-- ==== Sys2Proof/Word.lean ====
section
/-!
DEFINITION. Sys2Proof/Word.lean: the word types of the Histra H9 and the plain records that instructions and events carry
(R4: bit 0 is the least significant bit, multi-byte values are little-endian).
-/

namespace Sys2Proof

/-- One byte of any memory. -/
abbrev Byte := BitVec 8
/-- A scalar or vector register, or an instruction word (R8, R18). -/
abbrev Word := BitVec 32
/-- A scalar pair `x`n, an address or a time (R7, R349). -/
abbrev DWord := BitVec 64
/-- One bit per lane of a gang (R61, R201). -/
abbrev LaneMask := BitVec 32

/-- The fields of a prefix word (class 13), as R15 lays them out and R25 reads them. -/
structure Pfx where
  g : BitVec 7
  gn : BitVec 1
  rm : BitVec 3
  o : BitVec 7
  z : BitVec 1
  x : BitVec 8
  deriving DecidableEq, Repr

/-- The all-zero prefix that an unprefixed word behaves as if it had (R24). -/
def Pfx.none : Pfx := ⟨0, 0, 0, 0, 0, 0⟩

/-- A fabric packet: the 32-byte header of R311 and its data (LEN is the length of `data`). -/
structure Packet where
  kind : Nat
  resp : Bool
  drop : Bool
  rsvd : Bool
  tc : Nat
  dom : Nat
  src : Nat
  dst : Nat
  ctx : Nat
  sctx : Nat
  seq : Nat
  xfer : Nat
  addr : DWord
  op : Nat
  aux : Word
  /-- the bits that the header gives no meaning: bit 7 of byte 0 in bit 0, byte 27 above it -/
  spare : Nat
  data : List Byte
  deriving DecidableEq, Repr

/-- A structure that an error self-test examines (R265, R345). -/
inductive TestUnit where
  | sramBank (core bank : Nat)
  | arrayRow (dome row : Nat)
  | portLane (port lane : Nat)
  | dieModule (low high module : Nat)
  | carveRegion (die region : Nat)
  | lantern (stack index : Nat)
  deriving DecidableEq, Repr

/-- Where an uncorrectable error strikes (R266). -/
inductive ErrPlace where
  /-- the register file, sets or other state of a gang -/
  | gangState (gang : Nat)
  /-- a cache line or HBM4E data, by physical address -/
  | memory (pa : Nat)
  /-- a word of a gang's scratchpad window, by byte offset -/
  | scratch (gang off : Nat)
  /-- a row of an accumulator bank -/
  | bankRow (dome bank row : Nat)
  /-- the instruction cache of a core's Lamplighter slot -/
  | lampCache (core : Nat)
  /-- a 64 KiB region of the carve-out of a die -/
  | carve (die region : Nat)
  /-- an entry of the queue table -/
  | queueEntry (queue : Nat)
  /-- a structure with a check of its own (R265), apart from the data above -/
  | unit (u : TestUnit)
  deriving DecidableEq, Repr

/-- A region swap the memory controller starts at a period's end (R281): the stack, the region that moves, the region of the idlest group
it changes places with, and the accesses that the controller counted by region in the period. -/
structure SwapPick where
  stack : Nat
  busy : Nat
  idle : Nat
  deriving DecidableEq, Repr

/-- Byte `i` of a word, little-endian (R4). -/
def byteOf {n : Nat} (x : BitVec n) (i : Nat) : Byte := (x >>> (8 * i)).setWidth 8

/-- The low `n` bytes of a value, least significant first (R4). -/
def bytesLE (n : Nat) (x : Nat) : List Byte :=
  match n with
  | 0 => []
  | m + 1 => BitVec.ofNat 8 x :: bytesLE m (x / 256)

/-- The number a list of bytes holds, least significant first (R4). -/
def natLE : List Byte → Nat
  | [] => 0
  | b :: bs => b.toNat + 256 * natLE bs

end Sys2Proof
end

