-- ==== Sys2Proof/Syntax.lean ====
section
/-!
DEFINITION. Sys2Proof/Syntax.lean: the instructions of the Histra H9, one constructor for each row of spec/opcode_table.json.
253 rows are instruction words (classes 0 to 12 and the prefix); their arguments are the word's fields below the chain bit,
as bits, in the order of the table. Nine of them carry no argument and stand after the others: RET, END, YIELD, SNUFFREL and
HALT have no field, and the fields of PREFIX, VPREF, REGION and FENCE are read from the word itself (`Insn` of Decode and the
issue context): a prefix acts through its target, VPREF writes nothing, REGION's index is only checked, and FENCE reads its
scope and kind from the word that issues (log 15, DESIGN CHOICE). The other 111 rows are the steps the device takes without an instruction of a gang; their arguments name
where the step happens and what arrives from outside the package.
-/

namespace Sys2Proof

/-- One step of the part: an instruction word or an event of the opcode table. -/
inductive Instr where
  /-- `SADD` (R46): Scalar add: D := A + B modulo 2^32, once per lane-group issue. -/
  | sadd (d : BitVec 7) (a : BitVec 7) (b : BitVec 7)
  /-- `SSUB` (R46): Scalar subtract: D := A − B. -/
  | ssub (d : BitVec 7) (a : BitVec 7) (b : BitVec 7)
  /-- `SMUL` (R46): Scalar multiply, low 32 bits of the product. -/
  | smul (d : BitVec 7) (a : BitVec 7) (b : BitVec 7)
  /-- `SMULHU` (R46): High 32 bits of the unsigned 64-bit product. -/
  | smulhu (d : BitVec 7) (a : BitVec 7) (b : BitVec 7)
  /-- `SMULHS` (R46): High 32 bits of the signed 64-bit product. -/
  | smulhs (d : BitVec 7) (a : BitVec 7) (b : BitVec 7)
  /-- `SAND` (R46): Scalar bitwise and. -/
  | sand (d : BitVec 7) (a : BitVec 7) (b : BitVec 7)
  /-- `SOR` (R46): Scalar bitwise or. -/
  | sor (d : BitVec 7) (a : BitVec 7) (b : BitVec 7)
  /-- `SXOR` (R46): Scalar bitwise exclusive or. -/
  | sxor (d : BitVec 7) (a : BitVec 7) (b : BitVec 7)
  /-- `SANDN` (R46): Scalar A and not B. -/
  | sandn (d : BitVec 7) (a : BitVec 7) (b : BitVec 7)
  /-- `SSHL` (R46): Scalar shift left by B[4:0]. -/
  | sshl (d : BitVec 7) (a : BitVec 7) (b : BitVec 7)
  /-- `SSHR` (R46): Scalar logical shift right by B[4:0]. -/
  | sshr (d : BitVec 7) (a : BitVec 7) (b : BitVec 7)
  /-- `SSRA` (R46): Scalar arithmetic shift right by B[4:0]. -/
  | ssra (d : BitVec 7) (a : BitVec 7) (b : BitVec 7)
  /-- `SMIN` (R46): Scalar signed minimum. -/
  | smin (d : BitVec 7) (a : BitVec 7) (b : BitVec 7)
  /-- `SMAX` (R46): Scalar signed maximum. -/
  | smax (d : BitVec 7) (a : BitVec 7) (b : BitVec 7)
  /-- `SMINU` (R46): Scalar unsigned minimum. -/
  | sminu (d : BitVec 7) (a : BitVec 7) (b : BitVec 7)
  /-- `SMAXU` (R46): Scalar unsigned maximum. -/
  | smaxu (d : BitVec 7) (a : BitVec 7) (b : BitVec 7)
  /-- `SCMPEQ` (R46): D := 1 if A = B, else 0. -/
  | scmpeq (d : BitVec 7) (a : BitVec 7) (b : BitVec 7)
  /-- `SCMPLT` (R46): D := 1 if A < B signed, else 0. -/
  | scmplt (d : BitVec 7) (a : BitVec 7) (b : BitVec 7)
  /-- `SCMPLTU` (R46): D := 1 if A < B unsigned, else 0. -/
  | scmpltu (d : BitVec 7) (a : BitVec 7) (b : BitVec 7)
  /-- `SMOV` (R46): Scalar move D := A. -/
  | smov (d : BitVec 7) (a : BitVec 7)
  /-- `SADD64` (R47): 64-bit pair add. -/
  | sadd64 (d : BitVec 7) (a : BitVec 7) (b : BitVec 7)
  /-- `SSUB64` (R47): 64-bit pair subtract. -/
  | ssub64 (d : BitVec 7) (a : BitVec 7) (b : BitVec 7)
  /-- `SLEA64_1` (R47): x := A64 + (zero-extended B << 1). -/
  | slea64_1 (d : BitVec 7) (a : BitVec 7) (b : BitVec 7)
  /-- `SLEA64_2` (R47): x := A64 + (zero-extended B << 2). -/
  | slea64_2 (d : BitVec 7) (a : BitVec 7) (b : BitVec 7)
  /-- `SLEA64_3` (R47): x := A64 + (zero-extended B << 3). -/
  | slea64_3 (d : BitVec 7) (a : BitVec 7) (b : BitVec 7)
  /-- `SLEA64_4` (R47): x := A64 + (zero-extended B << 4). -/
  | slea64_4 (d : BitVec 7) (a : BitVec 7) (b : BitVec 7)
  /-- `SCLZ` (R46): Count leading zero bits of A. -/
  | sclz (d : BitVec 7) (a : BitVec 7)
  /-- `SPOP` (R46): Count one bits of A. -/
  | spop (d : BitVec 7) (a : BitVec 7)
  /-- `SBREV` (R46): Reverse the bits of A. -/
  | sbrev (d : BitVec 7) (a : BitVec 7)
  /-- `SBFE` (R46): Extract a zero-extended bit field of A, start and width from B. -/
  | sbfe (d : BitVec 7) (a : BitVec 7) (b : BitVec 7)
  /-- `SMOVI` (R48): D := sign-extended immediate. -/
  | smovi (d : BitVec 7) (i : BitVec 14)
  /-- `SADDI` (R48): D := D + sign-extended immediate. -/
  | saddi (d : BitVec 7) (i : BitVec 14)
  /-- `SANDI` (R48): D := D and zero-extended immediate. -/
  | sandi (d : BitVec 7) (i : BitVec 14)
  /-- `SORI` (R48): D := D or zero-extended immediate. -/
  | sori (d : BitVec 7) (i : BitVec 14)
  /-- `SXORI` (R48): D := D xor zero-extended immediate. -/
  | sxori (d : BitVec 7) (i : BitVec 14)
  /-- `SSHLI` (R48): Shift D left by an immediate count. -/
  | sshli (d : BitVec 7) (n : BitVec 5)
  /-- `SSHRI` (R48): Logical shift D right by an immediate count. -/
  | sshri (d : BitVec 7) (n : BitVec 5)
  /-- `SSRAI` (R48): Arithmetic shift D right by an immediate count. -/
  | ssrai (d : BitVec 7) (n : BitVec 5)
  /-- `SCMPEQI` (R48): D := 1 if D equals the immediate, else 0. -/
  | scmpeqi (d : BitVec 7) (i : BitVec 14)
  /-- `SCMPLTI` (R48): D := 1 if D is below the immediate signed, else 0. -/
  | scmplti (d : BitVec 7) (i : BitVec 14)
  /-- `SADD64I` (R48): Add a sign-extended immediate to a 64-bit pair. -/
  | sadd64i (d : BitVec 7) (i : BitVec 14)
  /-- `SSYSR` (R48): Read a system register into a scalar register. -/
  | ssysr (d : BitVec 7) (r : BitVec 14)
  /-- `SSYSW` (R48): Write a scalar register to a system register, with the register's own effect. -/
  | ssysw (d : BitVec 7) (r : BitVec 14)
  /-- `STIME` (R48): Read all 64 bits of EPH at one instant into a pair. -/
  | stime (d : BitVec 7)
  /-- `BR` (R51): Unconditional relative branch taken by every issuing lane. -/
  | br (f : BitVec 15)
  /-- `BRSZ` (R51): Branch every lane if the scalar operand is zero. -/
  | brsz (c : BitVec 7) (f : BitVec 15)
  /-- `BRSNZ` (R51): Branch every lane if the scalar operand is nonzero. -/
  | brsnz (c : BitVec 7) (f : BitVec 15)
  /-- `BRP` (R51): Branch each lane whose predicate reads 1. -/
  | brp (c : BitVec 7) (f : BitVec 15)
  /-- `BRNP` (R51): Branch each lane whose predicate reads 0. -/
  | brnp (c : BitVec 7) (f : BitVec 15)
  /-- `BRANY` (R52): Gang rendezvous; branch the lanes of each band where any predicate reads 1. -/
  | brany (c : BitVec 7) (f : BitVec 15)
  /-- `BRALL` (R52): Gang rendezvous; branch the lanes of each band where every predicate reads 1. -/
  | brall (c : BitVec 7) (f : BitVec 15)
  /-- `CALL` (R53): Push link, raise depth and window base, branch to a relative target. -/
  | call (c : BitVec 7) (f : BitVec 15)
  /-- `CALLI` (R53): Call to the byte address held in a pair. -/
  | calli (c : BitVec 7) (s : BitVec 3)
  /-- `BRI` (R55): Indirect branch to the byte address in a pair. -/
  | bri (c : BitVec 7)
  /-- `LOOPD` (R56): Decrement a scalar counter and branch if not zero. -/
  | loopd (c : BitVec 7) (f : BitVec 15)
  /-- `REFILL` (R59): Pop items from the launch's item queue into vacant lanes. -/
  | refill (c : BitVec 7) (f : BitVec 15)
  /-- `JNEW` (R62): Release waiters and reset a set to the issuing lanes at their lowest depth. -/
  | jnew (j : BitVec 4)
  /-- `JENTER` (R62): Orphan check, then add the issuing lanes to a set. -/
  | jenter (j : BitVec 4)
  /-- `JQUIT` (R62): Remove the issuing lanes from a set and run completion. -/
  | jquit (j : BitVec 4)
  /-- `JWAIT` (R62): Member lanes wait on a set until every live member waits. -/
  | jwait (j : BitVec 4)
  /-- `JMASK` (R63): Read a set's member mask or home/snuffed/freed word into a scalar. -/
  | jmask (j : BitVec 4) (x : BitVec 7) (y : BitVec 10)
  /-- `JWMASK` (R63): Read a set's waiting mask into a scalar. -/
  | jwmask (j : BitVec 4) (x : BitVec 7)
  /-- `JFREE` (R62): Release waiters and mark a set freed. -/
  | jfree (j : BitVec 4)
  /-- `JSETM` (R64): Privileged write of a set field without completion, for restore. -/
  | jsetm (j : BitVec 4) (x : BitVec 7) (y : BitVec 10)
  /-- `BAND` (R65): Gang rendezvous that sets the band width. -/
  | band (y : BitVec 10)
  /-- `TRAP` (R66): Raise a synchronous software trap with a code. -/
  | trap (y : BitVec 10)
  /-- `SVC` (R67): Write a service record, park the gang off-core and wake the companion. -/
  | svc (y : BitVec 10)
  /-- `SOFTINT` (R68): Write a wake code to a queue or the management core. -/
  | softint (x : BitVec 7) (y : BitVec 10)
  /-- `SNUFFHOLD` (R71): Open a snuff hold of up to 20 µs. -/
  | snuffhold (x : BitVec 7)
  /-- `SNUFFPC` (R72): Write the diverted PC offset or depth of each lane. -/
  | snuffpc (x : BitVec 7) (y : BitVec 10)
  /-- `VALID` (R73): Change the launch's validity word and partial flag. -/
  | valid (x : BitVec 7) (y : BitVec 10)
  /-- `BKPT` (R66): Raise a breakpoint trap with PC at the BKPT. -/
  | bkpt (y : BitVec 10)
  /-- `FAN` (R75): Create sibling gangs at an entry and count them in the spawn tree. -/
  | fan (x : BitVec 7) (y : BitVec 2)
  /-- `ENQ_TRY` (R76): Enqueue a child launch packet or return status. -/
  | enqTry (x : BitVec 7) (y : BitVec 10)
  /-- `ENQ_PARK` (R76): Enqueue a child launch packet, parking while the store is full. -/
  | enqPark (x : BitVec 7) (y : BitVec 10)
  /-- `VADD` (R84): Per-lane integer add, wrapping or saturating. -/
  | vadd (d : BitVec 6) (a : BitVec 7) (b : BitVec 7) (h : BitVec 1)
  /-- `VSUB` (R84): Per-lane integer subtract. -/
  | vsub (d : BitVec 6) (a : BitVec 7) (b : BitVec 7) (h : BitVec 1)
  /-- `VMULLO` (R84): Per-lane low product. -/
  | vmullo (d : BitVec 6) (a : BitVec 7) (b : BitVec 7) (h : BitVec 1)
  /-- `VMULHU` (R84): Per-lane high unsigned product. -/
  | vmulhu (d : BitVec 6) (a : BitVec 7) (b : BitVec 7) (h : BitVec 1)
  /-- `VMULHS` (R84): Per-lane high signed product. -/
  | vmulhs (d : BitVec 6) (a : BitVec 7) (b : BitVec 7) (h : BitVec 1)
  /-- `VMAD` (R84): Per-lane multiply-add with addend from the prefix or destination. -/
  | vmad (d : BitVec 6) (a : BitVec 7) (b : BitVec 7) (h : BitVec 1)
  /-- `VAND` (R84): Per-lane bitwise and. -/
  | vand (d : BitVec 6) (a : BitVec 7) (b : BitVec 7) (h : BitVec 1)
  /-- `VOR` (R84): Per-lane bitwise or. -/
  | vor (d : BitVec 6) (a : BitVec 7) (b : BitVec 7) (h : BitVec 1)
  /-- `VXOR` (R84): Per-lane bitwise xor. -/
  | vxor (d : BitVec 6) (a : BitVec 7) (b : BitVec 7) (h : BitVec 1)
  /-- `VANDN` (R84): Per-lane A and not B. -/
  | vandn (d : BitVec 6) (a : BitVec 7) (b : BitVec 7) (h : BitVec 1)
  /-- `VSHL` (R84): Per-lane shift left. -/
  | vshl (d : BitVec 6) (a : BitVec 7) (b : BitVec 7) (h : BitVec 1)
  /-- `VSHR` (R84): Per-lane logical shift right. -/
  | vshr (d : BitVec 6) (a : BitVec 7) (b : BitVec 7) (h : BitVec 1)
  /-- `VSRA` (R84): Per-lane arithmetic shift right. -/
  | vsra (d : BitVec 6) (a : BitVec 7) (b : BitVec 7) (h : BitVec 1)
  /-- `VMIN` (R84): Per-lane signed minimum. -/
  | vmin (d : BitVec 6) (a : BitVec 7) (b : BitVec 7) (h : BitVec 1)
  /-- `VMAX` (R84): Per-lane signed maximum. -/
  | vmax (d : BitVec 6) (a : BitVec 7) (b : BitVec 7) (h : BitVec 1)
  /-- `VMINU` (R84): Per-lane unsigned minimum. -/
  | vminu (d : BitVec 6) (a : BitVec 7) (b : BitVec 7) (h : BitVec 1)
  /-- `VMAXU` (R84): Per-lane unsigned maximum. -/
  | vmaxu (d : BitVec 6) (a : BitVec 7) (b : BitVec 7) (h : BitVec 1)
  /-- `VABSD` (R84): Per-lane absolute difference of signed values. -/
  | vabsd (d : BitVec 6) (a : BitVec 7) (b : BitVec 7) (h : BitVec 1)
  /-- `VMOV` (R84): Per-lane move. -/
  | vmov (d : BitVec 6) (a : BitVec 7)
  /-- `VSEL` (R84): Per-lane select by the prefix predicate. -/
  | vsel (d : BitVec 6) (a : BitVec 7) (b : BitVec 7)
  /-- `VCMPEQ` (R85): Per-lane equal compare into a predicate. -/
  | vcmpeq (d : BitVec 6) (a : BitVec 7) (b : BitVec 7) (h : BitVec 1)
  /-- `VCMPNE` (R85): Per-lane not-equal compare into a predicate. -/
  | vcmpne (d : BitVec 6) (a : BitVec 7) (b : BitVec 7) (h : BitVec 1)
  /-- `VCMPLT` (R85): Per-lane signed less-than compare. -/
  | vcmplt (d : BitVec 6) (a : BitVec 7) (b : BitVec 7) (h : BitVec 1)
  /-- `VCMPLE` (R85): Per-lane signed less-or-equal compare. -/
  | vcmple (d : BitVec 6) (a : BitVec 7) (b : BitVec 7) (h : BitVec 1)
  /-- `VCMPLTU` (R85): Per-lane unsigned less-than compare. -/
  | vcmpltu (d : BitVec 6) (a : BitVec 7) (b : BitVec 7) (h : BitVec 1)
  /-- `VCMPLEU` (R85): Per-lane unsigned less-or-equal compare. -/
  | vcmpleu (d : BitVec 6) (a : BitVec 7) (b : BitVec 7) (h : BitVec 1)
  /-- `VPAND` (R86): Predicate and. -/
  | vpand (d : BitVec 6) (a : BitVec 7) (b : BitVec 7) (h : BitVec 1)
  /-- `VPOR` (R86): Predicate or. -/
  | vpor (d : BitVec 6) (a : BitVec 7) (b : BitVec 7) (h : BitVec 1)
  /-- `VPXOR` (R86): Predicate xor. -/
  | vpxor (d : BitVec 6) (a : BitVec 7) (b : BitVec 7) (h : BitVec 1)
  /-- `VPNOT` (R86): Predicate not. -/
  | vpnot (d : BitVec 6) (a : BitVec 7) (h : BitVec 1)
  /-- `VPTOV` (R86): Pack a run of predicates into a vector register. -/
  | vptov (d : BitVec 6) (a : BitVec 7) (b : BitVec 7)
  /-- `VVTOP` (R86): Predicate := (A and B) ≠ 0. -/
  | vvtop (d : BitVec 6) (a : BitVec 7) (b : BitVec 7) (h : BitVec 1)
  /-- `VCLZ` (R84): Per-lane leading zero count. -/
  | vclz (d : BitVec 6) (a : BitVec 7) (h : BitVec 1)
  /-- `VPOP` (R84): Per-lane population count. -/
  | vpop (d : BitVec 6) (a : BitVec 7) (h : BitVec 1)
  /-- `VBFE` (R84): Per-lane bit-field extract. -/
  | vbfe (d : BitVec 6) (a : BitVec 7) (b : BitVec 7)
  /-- `VLEA` (R84): Per-lane D := A + (B << k). -/
  | vlea (d : BitVec 6) (a : BitVec 7) (b : BitVec 7)
  /-- `FADD` (R88): Floating-point add, one rounding. -/
  | fadd (d : BitVec 6) (a : BitVec 7) (b : BitVec 7) (h : BitVec 1)
  /-- `FSUB` (R88): Floating-point subtract. -/
  | fsub (d : BitVec 6) (a : BitVec 7) (b : BitVec 7) (h : BitVec 1)
  /-- `FMUL` (R88): Floating-point multiply. -/
  | fmul (d : BitVec 6) (a : BitVec 7) (b : BitVec 7) (h : BitVec 1)
  /-- `FMA` (R88): Fused multiply-add, one rounding. -/
  | fma (d : BitVec 6) (a : BitVec 7) (b : BitVec 7) (h : BitVec 1)
  /-- `FMIN` (R89): minimumNumber. -/
  | fmin (d : BitVec 6) (a : BitVec 7) (b : BitVec 7) (h : BitVec 1)
  /-- `FMAX` (R89): maximumNumber. -/
  | fmax (d : BitVec 6) (a : BitVec 7) (b : BitVec 7) (h : BitVec 1)
  /-- `FABS` (R89): Clear the sign bit. -/
  | fabs (d : BitVec 6) (a : BitVec 7) (h : BitVec 1)
  /-- `FNEG` (R89): Invert the sign bit. -/
  | fneg (d : BitVec 6) (a : BitVec 7) (h : BitVec 1)
  /-- `FCMPEQ` (R89): FP32 equal compare into a predicate. -/
  | fcmpeq (d : BitVec 6) (a : BitVec 7) (b : BitVec 7) (h : BitVec 1)
  /-- `FCMPLT` (R89): FP32 less-than compare. -/
  | fcmplt (d : BitVec 6) (a : BitVec 7) (b : BitVec 7) (h : BitVec 1)
  /-- `FCMPLE` (R89): FP32 less-or-equal compare. -/
  | fcmple (d : BitVec 6) (a : BitVec 7) (b : BitVec 7) (h : BitVec 1)
  /-- `FCMPUN` (R89): FP32 unordered compare. -/
  | fcmpun (d : BitVec 6) (a : BitVec 7) (b : BitVec 7) (h : BitVec 1)
  /-- `FCVT` (R90): Convert one element between FP32, BF16, FP16 and FP8 types. -/
  | fcvt (d : BitVec 6) (a : BitVec 7) (b : BitVec 7)
  /-- `FCVTI` (R91): Convert FP32 to an integer, saturating. -/
  | fcvti (d : BitVec 6) (a : BitVec 7) (b : BitVec 7)
  /-- `ICVTF` (R91): Convert an integer to FP32. -/
  | icvtf (d : BitVec 6) (a : BitVec 7) (b : BitVec 7)
  /-- `FRND` (R91): Round to an integral value in its own format. -/
  | frnd (d : BitVec 6) (a : BitVec 7) (h : BitVec 1)
  /-- `FCLASS` (R89): Write a one-hot class mask. -/
  | fclass (d : BitVec 6) (a : BitVec 7) (h : BitVec 1)
  /-- `FDOT2` (R88): Packed two-element dot product plus FP32 addend, one rounding. -/
  | fdot2 (d : BitVec 6) (a : BitVec 7) (b : BitVec 7)
  /-- `FMXUP` (R93): Unpack a scaled MX element to FP32. -/
  | fmxup (d : BitVec 6) (a : BitVec 7) (b : BitVec 7)
  /-- `FMXPK` (R93): Pack an FP32 value into an MX element position at a scale. -/
  | fmxpk (d : BitVec 6) (a : BitVec 7) (b : BitVec 7)
  /-- `FMXSCL` (R94): Gang rendezvous computing an MX block scale. -/
  | fmxscl (a : BitVec 7) (b : BitVec 7) (h : BitVec 1)
  /-- `FMXMUL` (R95): Gang rendezvous multiplying MX blocks with renormalisation. -/
  | fmxmul (d : BitVec 6) (a : BitVec 7) (b : BitVec 7) (h : BitVec 1)
  /-- `FMXADD` (R95): Gang rendezvous adding MX blocks with realignment. -/
  | fmxadd (d : BitVec 6) (a : BitVec 7) (b : BitVec 7) (h : BitVec 1)
  /-- `FSCALE` (R88): D := A × 2^N, one rounding. -/
  | fscale (d : BitVec 6) (a : BitVec 7) (b : BitVec 7) (h : BitVec 1)
  /-- `XPULL` (R99): Cross-lane gather by index within the band. -/
  | xpull (d : BitVec 6) (a : BitVec 6) (b : BitVec 6) (j : BitVec 4)
  /-- `XBACK` (R99): Cross-lane shift from lower lanes. -/
  | xback (d : BitVec 6) (a : BitVec 6) (b : BitVec 6) (j : BitVec 4)
  /-- `XFWD` (R99): Cross-lane shift from higher lanes. -/
  | xfwd (d : BitVec 6) (a : BitVec 6) (b : BitVec 6) (j : BitVec 4)
  /-- `XFLIP` (R99): Cross-lane butterfly by position xor n. -/
  | xflip (d : BitVec 6) (a : BitVec 6) (b : BitVec 6) (j : BitVec 4)
  /-- `PANY` (R100): OR of a predicate over the participants. -/
  | pany (d : BitVec 6) (a : BitVec 6) (j : BitVec 4)
  /-- `PALL` (R100): AND of a predicate over the participants. -/
  | pall (d : BitVec 6) (a : BitVec 6) (j : BitVec 4)
  /-- `XSAME` (R100): Predicate: all participants hold the same value. -/
  | xsame (d : BitVec 6) (a : BitVec 6) (j : BitVec 4)
  /-- `PMASK` (R100): Mask of participants whose predicate is 1. -/
  | pmask (d : BitVec 6) (a : BitVec 6) (j : BitVec 4)
  /-- `RED_ADD` (R101): Integer sum reduction by the fixed tree. -/
  | redAdd (d : BitVec 6) (a : BitVec 6) (j : BitVec 4)
  /-- `RED_MIN` (R101): Minimum reduction. -/
  | redMin (d : BitVec 6) (a : BitVec 6) (j : BitVec 4)
  /-- `RED_MAX` (R101): Maximum reduction. -/
  | redMax (d : BitVec 6) (a : BitVec 6) (j : BitVec 4)
  /-- `RED_FADD` (R101): FP32 sum reduction by the fixed tree. -/
  | redFadd (d : BitVec 6) (a : BitVec 6) (j : BitVec 4)
  /-- `RED_FMAX` (R101): FP32 maximum reduction. -/
  | redFmax (d : BitVec 6) (a : BitVec 6) (j : BitVec 4)
  /-- `SCAN_ADD` (R101): Integer prefix sum. -/
  | scanAdd (d : BitVec 6) (a : BitVec 6) (j : BitVec 4)
  /-- `SCAN_FADD` (R101): FP32 prefix sum. -/
  | scanFadd (d : BitVec 6) (a : BitVec 6) (j : BitVec 4)
  /-- `SORT_KV` (R102): Sort key-value pairs across the participants. -/
  | sortKv (d : BitVec 6) (a : BitVec 6) (j : BitVec 4)
  /-- `TOPK` (R103): Rank lanes by key and sum selected and unselected keys. -/
  | topk (d : BitVec 6) (a : BitVec 6) (b : BitVec 6) (j : BitVec 4)
  /-- `SEARCH` (R104): Count table keys below each query. -/
  | search (d : BitVec 6) (a : BitVec 6) (b : BitVec 6) (j : BitVec 4)
  /-- `CXCH` (R105): Compare-exchange with the partner lane. -/
  | cxch (d : BitVec 6) (a : BitVec 6) (b : BitVec 6) (j : BitVec 4)
  /-- `XEQM` (R100): Mask of participants holding an equal value. -/
  | xeqm (d : BitVec 6) (a : BitVec 6) (j : BitVec 4)
  /-- `FEXP2` (R108): 2^x by the table procedure. -/
  | fexp2 (d : BitVec 6) (a : BitVec 7) (m : BitVec 3) (L : BitVec 4)
  /-- `FLOG2` (R235): log2 x by the fixed procedure. -/
  | flog2 (d : BitVec 6) (a : BitVec 7) (m : BitVec 3) (L : BitVec 4)
  /-- `FRCP` (R107): Correctly rounded reciprocal. -/
  | frcp (d : BitVec 6) (a : BitVec 7) (m : BitVec 3) (L : BitVec 4)
  /-- `FRSQRT` (R107): Correctly rounded reciprocal square root. -/
  | frsqrt (d : BitVec 6) (a : BitVec 7) (m : BitVec 3) (L : BitVec 4)
  /-- `FSQRT` (R107): Correctly rounded square root. -/
  | fsqrt (d : BitVec 6) (a : BitVec 7) (m : BitVec 3) (L : BitVec 4)
  /-- `FSIN` (R236): Sine by the fixed procedure. -/
  | fsin (d : BitVec 6) (a : BitVec 7) (m : BitVec 3) (L : BitVec 4)
  /-- `FCOS` (R236): Cosine by the fixed procedure. -/
  | fcos (d : BitVec 6) (a : BitVec 7) (m : BitVec 3) (L : BitVec 4)
  /-- `FTANH` (R237): Hyperbolic tangent by the fixed procedure. -/
  | ftanh (d : BitVec 6) (a : BitVec 7) (m : BitVec 3) (L : BitVec 4)
  /-- `FEXP` (R108): e^x by cubic or table path chosen by lane and EXPMIX. -/
  | fexp (d : BitVec 6) (a : BitVec 7) (m : BitVec 3) (L : BitVec 4)
  /-- `VLD_B8` (R115): Per-lane byte load from global memory. -/
  | vldB8 (t : BitVec 6) (x : BitVec 6) (i : BitVec 6) (L : BitVec 4)
  /-- `VLD_B16` (R115): Per-lane halfword load. -/
  | vldB16 (t : BitVec 6) (x : BitVec 6) (i : BitVec 6) (L : BitVec 4)
  /-- `VLD_W` (R115): Per-lane word load. -/
  | vldW (t : BitVec 6) (x : BitVec 6) (i : BitVec 6) (L : BitVec 4)
  /-- `VLD_D` (R115): Per-lane doubleword load into two registers. -/
  | vldD (t : BitVec 6) (x : BitVec 6) (i : BitVec 6) (L : BitVec 4)
  /-- `VLD_Q` (R115): Per-lane 16-byte load into four registers. -/
  | vldQ (t : BitVec 6) (x : BitVec 6) (i : BitVec 6) (L : BitVec 4)
  /-- `VST_B8` (R115): Per-lane byte store. -/
  | vstB8 (t : BitVec 6) (x : BitVec 6) (i : BitVec 6)
  /-- `VST_B16` (R115): Per-lane halfword store. -/
  | vstB16 (t : BitVec 6) (x : BitVec 6) (i : BitVec 6)
  /-- `VST_W` (R115): Per-lane word store. -/
  | vstW (t : BitVec 6) (x : BitVec 6) (i : BitVec 6)
  /-- `VST_D` (R115): Per-lane doubleword store. -/
  | vstD (t : BitVec 6) (x : BitVec 6) (i : BitVec 6)
  /-- `VST_Q` (R115): Per-lane 16-byte store. -/
  | vstQ (t : BitVec 6) (x : BitVec 6) (i : BitVec 6)
  /-- `VLDS_W` (R115): Per-lane word load from the own scratchpad window. -/
  | vldsW (t : BitVec 6) (x : BitVec 6) (i : BitVec 6) (L : BitVec 4)
  /-- `VSTS_W` (R115): Per-lane word store to the own scratchpad window. -/
  | vstsW (t : BitVec 6) (x : BitVec 6) (i : BitVec 6)
  /-- `VLDS_Q` (R115): Per-lane 16-byte scratchpad load. -/
  | vldsQ (t : BitVec 6) (x : BitVec 6) (i : BitVec 6) (L : BitVec 4)
  /-- `VSTS_Q` (R115): Per-lane 16-byte scratchpad store. -/
  | vstsQ (t : BitVec 6) (x : BitVec 6) (i : BitVec 6)
  /-- `VLDM_W` (R117): Per-lane word load through a scratch reference, with absence status. -/
  | vldmW (t : BitVec 6) (x : BitVec 6) (i : BitVec 6) (L : BitVec 4)
  /-- `VSTM_W` (R117): Per-lane word store through a scratch reference, with absence status. -/
  | vstmW (t : BitVec 6) (x : BitVec 6) (i : BitVec 6)
  /-- `VATOM` (R118): Per-lane 32-bit atomic on global words in ascending lane order. -/
  | vatom (t : BitVec 6) (x : BitVec 6) (i : BitVec 6) (L : BitVec 4)
  /-- `SLD_W` (R121): Scalar word load, optionally acquiring. -/
  | sldW (d : BitVec 7) (x : BitVec 6) (L : BitVec 4) (s : BitVec 3) (o : BitVec 1)
  /-- `SLD_D` (R121): Scalar doubleword load. -/
  | sldD (d : BitVec 7) (x : BitVec 6) (L : BitVec 4) (s : BitVec 3) (o : BitVec 1)
  /-- `SLD_Q` (R121): Scalar 16-byte load into four registers. -/
  | sldQ (d : BitVec 7) (x : BitVec 6) (L : BitVec 4) (s : BitVec 3) (o : BitVec 1)
  /-- `SST_W` (R121): Scalar word store, optionally releasing. -/
  | sstW (d : BitVec 7) (x : BitVec 6) (s : BitVec 3) (o : BitVec 1)
  /-- `SST_D` (R121): Scalar doubleword store. -/
  | sstD (d : BitVec 7) (x : BitVec 6) (s : BitVec 3) (o : BitVec 1)
  /-- `SST_Q` (R121): Scalar 16-byte store. -/
  | sstQ (d : BitVec 7) (x : BitVec 6) (s : BitVec 3) (o : BitVec 1)
  /-- `SATOM_ADD` (R122): Scalar atomic add returning the old value. -/
  | satomAdd (d : BitVec 7) (x : BitVec 6) (L : BitVec 4) (s : BitVec 3) (o : BitVec 1)
  /-- `SATOM_MIN` (R122): Scalar atomic signed minimum. -/
  | satomMin (d : BitVec 7) (x : BitVec 6) (L : BitVec 4) (s : BitVec 3) (o : BitVec 1)
  /-- `SATOM_MAX` (R122): Scalar atomic signed maximum. -/
  | satomMax (d : BitVec 7) (x : BitVec 6) (L : BitVec 4) (s : BitVec 3) (o : BitVec 1)
  /-- `SATOM_AND` (R122): Scalar atomic and. -/
  | satomAnd (d : BitVec 7) (x : BitVec 6) (L : BitVec 4) (s : BitVec 3) (o : BitVec 1)
  /-- `SATOM_OR` (R122): Scalar atomic or. -/
  | satomOr (d : BitVec 7) (x : BitVec 6) (L : BitVec 4) (s : BitVec 3) (o : BitVec 1)
  /-- `SATOM_XOR` (R122): Scalar atomic xor. -/
  | satomXor (d : BitVec 7) (x : BitVec 6) (L : BitVec 4) (s : BitVec 3) (o : BitVec 1)
  /-- `SATOM_XCHG` (R122): Scalar atomic exchange. -/
  | satomXchg (d : BitVec 7) (x : BitVec 6) (L : BitVec 4) (s : BitVec 3) (o : BitVec 1)
  /-- `SATOM_CAS` (R122): Scalar 32-bit compare-and-swap. -/
  | satomCas (d : BitVec 7) (x : BitVec 6) (L : BitVec 4) (s : BitVec 3) (o : BitVec 1)
  /-- `SATOM_ADD64` (R122): Scalar 64-bit atomic add. -/
  | satomAdd64 (d : BitVec 7) (x : BitVec 6) (L : BitVec 4) (s : BitVec 3) (o : BitVec 1)
  /-- `SATOM_CAS64` (R122): Scalar 64-bit compare-and-swap. -/
  | satomCas64 (d : BitVec 7) (x : BitVec 6) (L : BitVec 4) (s : BitVec 3) (o : BitVec 1)
  /-- `ACQ` (R123): Read a sync object and acquire its bound regions. -/
  | acq (d : BitVec 7) (x : BitVec 6) (L : BitVec 4) (s : BitVec 3)
  /-- `REL` (R123): Release bound regions, then write VAL and increment SEQ atomically. -/
  | rel (d : BitVec 7) (x : BitVec 6) (s : BitVec 3)
  /-- `BIND` (R123): Bind a region to a sync object and return status. -/
  | bind (d : BitVec 7) (x : BitVec 6) (L : BitVec 4)
  /-- `UNBIND` (R123): Remove an exactly matching binding and return status. -/
  | unbind (d : BitVec 7) (x : BitVec 6) (L : BitVec 4)
  /-- `SLDS_W` (R121): Scalar word load through a scratch reference. -/
  | sldsW (d : BitVec 7) (x : BitVec 6) (L : BitVec 4) (s : BitVec 3) (o : BitVec 1)
  /-- `SSTS_W` (R121): Scalar word store through a scratch reference. -/
  | sstsW (d : BitVec 7) (x : BitVec 6) (s : BitVec 3) (o : BitVec 1)
  /-- `SSIG_SUB` (R124): Release the gang's writes, then subtract from a 64-bit completion signal. -/
  | ssigSub (d : BitVec 7) (x : BitVec 6) (s : BitVec 3)
  /-- `WAITC` (R128): Wait until an engine-class counter is at most a threshold. -/
  | waitc (a : BitVec 7) (n : BitVec 4)
  /-- `BAR_ARR` (R129): Release, then arrive with the lane count on a barrier object. -/
  | barArr (a : BitVec 7) (s : BitVec 3)
  /-- `BAR_WAIT` (R129): Wait for a phase flip, then acquire. -/
  | barWait (a : BitVec 7) (b : BitVec 7) (s : BitVec 3)
  /-- `BAR_ARRN` (R129): Release, then arrive with an operand count. -/
  | barArrn (a : BitVec 7) (b : BitVec 7) (s : BitVec 3)
  /-- `ARWAIT` (R129): Wait for a phase flip or a byte threshold, then acquire. -/
  | arwait (a : BitVec 7) (b : BitVec 7) (s : BitVec 3) (p : BitVec 1)
  /-- `ARSET` (R129): Atomically reset a barrier object with new targets, releasing. -/
  | arset (a : BitVec 7) (b : BitVec 7) (s : BitVec 3)
  /-- `SSTEP` (R130): Arrive at the Meridian superstep barrier of a group. -/
  | sstep (a : BitVec 7)
  /-- `GRPJOIN` (R130): Join a non-co-resident group and return status. -/
  | grpjoin (a : BitVec 7) (b : BitVec 7)
  /-- `GRPLEAVE` (R130): Leave a group and return status. -/
  | grpleave (a : BitVec 7) (b : BitVec 7)
  /-- `CANCEL` (R128): Keep the oldest operations of an engine class and cancel the rest. -/
  | cancel (a : BitVec 7) (n : BitVec 4)
  /-- `NOTIFY` (R130): Release, then set the wake bit of one or all gangs of the launch. -/
  | notify (a : BitVec 7) (s : BitVec 3)
  /-- `SLEEP` (R130): Test the wake bit, then sleep until time or wake. -/
  | sleep (a : BitVec 7) (b : BitVec 7)
  /-- `BCOPY` (R156): Issue an asynchronous linear copy between spaces. -/
  | bcopy (a : BitVec 7) (b : BitVec 7) (c : BitVec 7)
  /-- `BCOPY2D` (R157): Issue an asynchronous strided 2-D copy. -/
  | bcopy2d (a : BitVec 7) (b : BitVec 7) (c : BitVec 7)
  /-- `BLIST` (R158): Issue a copy list of 32-byte entries. -/
  | blist (a : BitVec 7) (b : BitVec 7) (c : BitVec 7)
  /-- `BKICK` (R159): Issue an indexed gather from a request read at issue. -/
  | bkick (a : BitVec 7)
  /-- `FPUT` (R168): Issue a put of local bytes to a fabric peer. -/
  | fput (a : BitVec 7) (b : BitVec 7) (c : BitVec 7)
  /-- `FSPUT` (R168): Issue a put followed by a signal add at the peer. -/
  | fsput (a : BitVec 7) (b : BitVec 7) (c : BitVec 7)
  /-- `FGET` (R168): Issue a get of peer bytes into local memory. -/
  | fget (a : BitVec 7) (b : BitVec 7) (c : BitVec 7)
  /-- `FATOM` (R169): Issue one atomic at a peer address. -/
  | fatom (a : BitVec 7) (b : BitVec 7) (c : BitVec 7)
  /-- `FRED` (R170): Contribute to an in-switch reduction of a group. -/
  | fred (a : BitVec 7) (b : BitVec 7) (c : BitVec 7)
  /-- `FRESV` (R171): Ask a peer for a timed bandwidth reservation. -/
  | fresv (a : BitVec 7) (b : BitVec 7) (c : BitVec 7)
  /-- `FBULK` (R171): Issue a droppable bulk transfer from a register descriptor. -/
  | fbulk (a : BitVec 7)
  /-- `LATTN` (R161): Send a Lantern attention list. -/
  | lattn (a : BitVec 7) (b : BitVec 7) (c : BitVec 7)
  /-- `BALLOC` (R165): Allocate permanent pool blocks for requests in order. -/
  | balloc (a : BitVec 7) (b : BitVec 7) (c : BitVec 7)
  /-- `BFREE` (R166): Return permanent blocks to the free list. -/
  | bfree (a : BitVec 7) (b : BitVec 7) (c : BitVec 7)
  /-- `BTENT` (R165): Allocate tentative blocks under a tag. -/
  | btent (a : BitVec 7) (b : BitVec 7) (c : BitVec 7)
  /-- `BDROP` (R166): Return every block of a tag and free the tag. -/
  | bdrop (a : BitVec 7) (c : BitVec 7)
  /-- `BKEEP` (R166): Make every block of a tag permanent and free the tag. -/
  | bkeep (a : BitVec 7) (c : BitVec 7)
  /-- `COHREC` (R172): Privileged reclaim of an owner-lost coherent line from given data. -/
  | cohrec (a : BitVec 7) (b : BitVec 7) (c : BitVec 7)
  /-- `MACQ` (R144): Acquire an accumulator bank, waiting in its owner queue or trying. -/
  | macq (n : BitVec 3) (b : BitVec 7) (t : BitVec 1)
  /-- `MREL` (R144): Release a bank once earlier MTX operations on it retire. -/
  | mrel (n : BitVec 3)
  /-- `MMA` (R146): Issue C += A × B^T into a bank. -/
  | mma (n : BitVec 3) (a : BitVec 7) (b : BitVec 7)
  /-- `MMAZ` (R146): Issue C := A × B^T into a bank. -/
  | mmaz (n : BitVec 3) (a : BitVec 7) (b : BitVec 7)
  /-- `MJOB` (R151): Issue a matrix job from a job card, optionally twin. -/
  | mjob (a : BitVec 7) (w : BitVec 1)
  /-- `MDRAIN` (R148): Copy bank rows into vector registers, optionally clearing. -/
  | mdrain (n : BitVec 3) (a : BitVec 7) (b : BitVec 7) (c : BitVec 1)
  /-- `MFILL` (R149): Write or add vector registers into bank rows. -/
  | mfill (n : BitVec 3) (a : BitVec 7) (b : BitVec 7) (d : BitVec 1)
  /-- `MZERO` (R149): Zero bank rows. -/
  | mzero (n : BitVec 3) (a : BitVec 7)
  /-- `MPROG` (R154): Read committed and speculative positions of an outstanding job. -/
  | mprog (a : BitVec 7) (b : BitVec 7)
  /-- `MTILE` (R145): Write a tile handle describing an operand-buffer tile. -/
  | mtile (a : BitVec 7) (b : BitVec 7) (f : BitVec 4)
  /-- `ret` (R54): Leave sets homed at this depth, pop link, lower depth and window; trap-frame return per R246. -/
  | ret
  /-- `end` (R58): Make each issuing lane vacant, leave every set, retire the gang when none is live. -/
  | end_
  /-- `yield` (R60): Let another ready lane group of the gang issue first. -/
  | yield
  /-- `snuffrel` (R71): End an open snuff hold. -/
  | snuffrel
  /-- `REGION` (R74): Record the packet as each lane's region entry. -/
  | region
  /-- `halt` (R69): Privileged: the Lamplighter slot stops issuing. -/
  | halt
  /-- `VPREF` (R119): Prefetch each lane's element into L1 or die cache. -/
  | vpref
  /-- `FENCE` (R127): Full, release or acquire fence at a scope. -/
  | fence
  /-- `PREFIX` (R25): Prefix word supplying guard, zeroing, rounding, fourth operand and aux bits to the next word. -/
  | pfx
  /-- LOOKAHEAD_RESULT_COMMIT (R26): A class 7, 8 or 9 result arrives and commits when its window closes. -/
  | lookaheadResultCommit (gang : Nat)
  /-- STACK_SERVICE_DONE (R206): A spill or fill service completes and the gang resumes issuing. -/
  | stackServiceDone (gang : Nat)
  /-- SVC_RING_ROOM (R67): Room appears in the service ring and a parked SVC writes its record. -/
  | svcRingRoom (gang : Nat)
  /-- ENQ_PARK_ROOM (R76): A pending-launch entry frees and a parked ENQ.PARK enqueues with status 0. -/
  | enqParkRoom (gang : Nat)
  /-- GANG_UNPARK (R248): A served park places the gang back on its core once it has room. -/
  | gangUnpark (gang : Nat)
  /-- SLEEP_TIMEOUT (R130): EPH reaches a SLEEP's end and the lane group resumes with reason 0. -/
  | sleepTimeout (gang : Nat)
  /-- MERIDIAN_RELEASE (R130): All participants arrived and the step drained; release with acquire and raise step numbers. -/
  | meridianRelease (launch : Nat) (group : Nat)
  /-- ENGINE_UNIT_COMMIT (R138): An engine unit finishes; Pc advances and its arrivals and signals take place. -/
  | engineUnitCommit (op : Nat)
  /-- ENGINE_OP_RETIRE (R128): An asynchronous operation retires in issue order, releasing waits and banks. -/
  | engineOpRetire (gang : Nat) (cls : Nat)
  /-- JOB_CARD_READ (R150): The engine reads a job card after issue and checks it. -/
  | jobCardRead (op : Nat)
  /-- MJOB_START (R152): After its wick a job checks banks, sequence, staging and partner. -/
  | mjobStart (op : Nat)
  /-- TWIN_PARTNER_BANK_ACQUIRE (R340): A twin job obtains a partner bank from its owner queue. -/
  | twinPartnerBankAcquire (op : Nat)
  /-- LATTN_WICK_REQUEST (R366): After reading its entries a LATTN requests its wick for the stacks touched. -/
  | lattnWickRequest (op : Nat)
  /-- LANTERN_TRIPLE (R162): A Lantern finishes computing one triple for a block. -/
  | lanternTriple (op : Nat) (unit : Nat)
  /-- WICK_GRANT (R366): The head request of the wick queue fits the cap and is granted. -/
  | wickGrant
  /-- CHANDLER_PERIOD (R365): Every 1 ms the Chandler redivides the cap and sets byte budgets. -/
  | chandlerPeriod (draw nonWick : List Nat) (swaps : List SwapPick)
  /-- REMAP_SWAP_COMPLETE (R281): A region swap finishes copying, exchanges entries and lifts the stall. -/
  | remapSwapComplete (stack : Nat)
  /-- TRANSLATION_WALK (R284): A TLB miss walk completes with a translation, PAGE or PROT. -/
  | translationWalk (ctx : Nat) (va : DWord) (kind : Nat) (die : Nat)
  /-- PIN_LIMIT_EXPIRY (R295): PINLIM ns after a pin, the line is performed at system scope. -/
  | pinLimitExpiry (line : Nat)
  /-- SNUFF_HOLD_EXPIRY (R71): A snuff hold ends and a pending snuff diverts the gang. -/
  | snuffHoldExpiry (gang : Nat)
  /-- SNUFF_TIME (R355): EPH reaches a launch's snuff time; it and descendants enter wrap-up. -/
  | snuffTime (launch : Nat)
  /-- DEADLINE_KILL (R358): EPH reaches the deadline; the launch and descendants are killed and complete TIMED. -/
  | deadlineKill (launch : Nat)
  /-- SLACK_RECOMPUTE (R360): Every 10 µs the Lamplighters recompute launch slack. -/
  | slackRecompute (die : Nat)
  /-- PREWAIT_EXPIRY (R362): A gang waited PREWAIT µs at the list head; lower-class gangs are pre-empted. -/
  | prewaitExpiry (die : Nat)
  /-- GANG_RESTORE (R254): Restore a saved gang onto a core with room and re-test its waits. -/
  | gangRestore (gang : Nat) (cores : List Nat)
  /-- QUEUE_INTAKE (R177): A Lamplighter takes the next VALID slot of a queue into the pending store. -/
  | queueIntake (queue : Nat)
  /-- LAUNCH_ADMISSION (R182): Check the code object and packet, create the launch and seed gang. -/
  | launchAdmission (die : Nat) (cores : List Nat)
  /-- GANG_PLACEMENT (R362): Place waiting gangs or a co-resident batch onto cores with room. -/
  | gangPlacement (die : Nat) (cores : List Nat)
  /-- LAUNCH_COMPLETION (R184): Spawn-tree counter at 0: write record, decrement signal, vector, lower parent. -/
  | launchCompletion (launch : Nat)
  /-- SIGNAL_MARKER (R178): A signal marker acts once every earlier packet of its queue has completed. -/
  | signalMarker (queue : Nat)
  /-- TICKET_LEASE_EXPIRY (R181): A 50 µs ticket lease lapses and a peer continues the job. -/
  | ticketLeaseExpiry (die : Nat) (ticket : Nat)
  /-- RECLAIM_EXECUTE (R271): The agent claiming a reclaim ticket executes COHREC and writes RCSTAT. -/
  | reclaimExecute (ctx : Nat)
  /-- FIRMWARE_CHECK_COMPLETE (R189): The boot ROM finishes the image check: RUN with measurement, or FAILED. -/
  | firmwareCheckComplete
  /-- RESET (R188): Device reset to boot ROM state WAITIMG and reset register values. -/
  | reset
  /-- FWGO (R188): A write of 1 starts the firmware image check. -/
  | fwgo (v : Word)
  /-- LAMPCTL (R191): Restart a halted or fenced Lamplighter slot. -/
  | lampctl (v : Word)
  /-- QUEUE_ACTIVATE (R175): STATE write of 1: zero indices and make the queue ACTIVE. -/
  | queueActivate (queue : Nat)
  /-- QUEUE_TURN_OFF (R175): STATE write of 0: turn the queue OFF at a slot boundary. -/
  | queueTurnOff (queue : Nat)
  /-- QUEUE_STOP (R175): STATE write of 2: stop an ACTIVE queue at a slot boundary. -/
  | queueStop (queue : Nat)
  /-- NOTIFY_REGISTER (R176): Companion writes a queue's new write index. -/
  | notifyRegister (queue : Nat) (v : DWord)
  /-- WAKE (R195): Store a wake code and send the queue's vector. -/
  | wake (queue : Nat) (code : Word)
  /-- SDOOR (R194): Reply doorbell: load DONE replies into parked SVC gangs and free records. -/
  | sdoor (ctx : Nat)
  /-- FDONE (R193): Companion answers a fault as served or denied. -/
  | fdone (v : DWord)
  /-- FQTAIL (R193): Companion advances the consumed-record count of the fault queue. -/
  | fqtail (v : Word)
  /-- SUSPEND (R256): Write 1 to SUSPEND: stop intake and pre-empt every gang of the context. -/
  | suspend (ctx : Nat)
  /-- SUSPEND_CLEAR (R256): Write 0 to SUSPEND: clear SUSPENDED and let gangs be restored. -/
  | suspendClear (ctx : Nat)
  /-- CTXTRAP (R243): Write copied by the Lamplighter into TRAPENT. -/
  | ctxtrap (ctx : Nat) (v : Word)
  /-- CTXPIN (R296): Write copied by the Lamplighter into PINLIM. -/
  | ctxpin (ctx : Nat) (v : Word)
  /-- FABTMO (R325): Write copied by the Lamplighter into COHTMO. -/
  | fabtmo (v : Word)
  /-- DUMPACK (R259): Free the held dump, zero DUMPHEAD and let a waiting dump proceed. -/
  | dumpack (ctx : Nat)
  /-- RCGO (R271): Write 1 while idle: set BUSY and post a reclaim ticket. -/
  | rcgo (ctx : Nat) (v : Word)
  /-- TLBINV (R285): Start invalidating translations of a page or context; set BUSY. -/
  | tlbinv (ctx : Nat) (v : DWord)
  /-- TLB_INVALIDATION_COMPLETE (R285): No TLB holds the range and its accesses are performed; BUSY clears. -/
  | tlbInvalidationComplete (ctx : Nat)
  /-- RMAPCTL (R282): Enable or disable remap swaps and set the threshold. -/
  | rmapctl (v : Word)
  /-- POOL_ENABLE (R346): EN write of 1 resets the pool with every block free in order. -/
  | poolEnable (ctx : Nat)
  /-- DROPALL (R346): Drop every tag of the pool in ascending order. -/
  | dropall (ctx : Nat)
  /-- EPHSET (R352): Step EPH to a value when no deadline launch is admitted. -/
  | ephset (v : DWord)
  /-- CHCFG_CLR (R369): Empty a Chronograph at one instant after applying the write's fields. -/
  | chcfgClr (die : Nat) (chrono : Nat) (v : Word)
  /-- ERRCLR (R370): Zero every error counter of the die. -/
  | errclr (die : Nat)
  /-- YPCTL_ENABLE (R328): Write 1 to ENABLE trains a Yaltex port with the staged keys. -/
  | ypctlEnable (port : Nat)
  /-- YKEYGO (R327): Stage a transmit or receive key; KEYSWITCH follows at a flit boundary. -/
  | ykeygo (port : Nat) (v : Word)
  /-- MGMT_REGISTER_WRITE (R196): Write to a management register with no behaviour of its own. -/
  | mgmtRegisterWrite (off : Nat) (size : Nat) (value : Nat)
  /-- PTP_SYNC (R350): A Sync message is timestamped and drives the servo. -/
  | ptpSync (twoStep : Bool) (domain : Nat) (seq : Nat) (origin : Nat)
  /-- PTP_FOLLOW_UP (R350): A two-step Follow_Up supplies the Sync origin time. -/
  | ptpFollowUp (domain : Nat) (seq : Nat) (origin : Nat)
  /-- PTP_DELAY_RESP (R350): A Delay_Resp completes a delay measurement. -/
  | ptpDelayResp (domain : Nat) (seq : Nat) (received : Nat)
  /-- PTP_MANAGEMENT (R350): A PTP management message is received and ignored. -/
  | ptpManagement
  /-- SYNC_LOSS_TIMEOUT (R350): No Sync for 2 s: EPH keeps its rate and LOCK clears. -/
  | syncLossTimeout
  /-- FLIT_RECEIVE (R326): A Yaltex flit is decrypted and checked; a failed tag requests REPLAY. -/
  | flitReceive (port : Nat) (flit : List Byte)
  /-- DIE_LINK_FLIT_RECEIVE (R306): A die-link flit is CRC-checked; a failure asks for replay. -/
  | dieLinkFlitReceive (sender : Nat) (receiver : Nat) (flit : List Byte)
  /-- DIE_LINK_REPLAY_REQUEST (R306): The sender replays from the named flit in order. -/
  | dieLinkReplayRequest (sender : Nat) (receiver : Nat) (number : Nat)
  /-- PUT (R314): Apply a PUT packet's data in flow order, or drop a bulk packet. -/
  | put (p : Packet) (port : Nat) (dropIt : Bool)
  /-- SPUT (R317): Apply a signal add after its transfer's bytes. -/
  | sput (p : Packet) (port : Nat)
  /-- GET (R312): Read up to 256 bytes at its flow place and respond. -/
  | get (p : Packet) (port : Nat)
  /-- GET_RESPONSE (R168): Write returned bytes to the local destination. -/
  | getResponse (p : Packet) (port : Nat)
  /-- ATOM (R169): Perform a fabric atomic once and respond with the old value. -/
  | atom (p : Packet) (port : Nat)
  /-- ATOM_RESPONSE (R169): Write the old value of an FATOM to its local address. -/
  | atomResponse (p : Packet) (port : Nat)
  /-- RED (R321): A reduction contribution or partial is combined by the rank tree. -/
  | red (p : Packet) (port : Nat)
  /-- RED_RESULT (R321): A member gateway writes a reduction result and adds its signal. -/
  | redResult (p : Packet) (port : Nat)
  /-- REMOTE_ERROR_RESPONSE (R308): An error response fails the source operation with REMOTE or FABRIC. -/
  | remoteErrorResponse (p : Packet) (port : Nat)
  /-- COH_RD (R324): Home directory read request for a window line. -/
  | cohRd (p : Packet) (port : Nat)
  /-- COH_RDX (R324): Home directory exclusive request for a window line. -/
  | cohRdx (p : Packet) (port : Nat)
  /-- COH_WB (R324): Write-back of a window line to the home directory. -/
  | cohWb (p : Packet) (port : Nat)
  /-- COH_SNP (R324): Owner receives a snoop, finishes its atomic and writes back. -/
  | cohSnp (p : Packet) (port : Nat)
  /-- COH_DATA (R324): Requester receives the line exclusive and completes its access. -/
  | cohData (p : Packet) (port : Nat)
  /-- COH_ERR (R270): Requester receives an error reply and its access raises MEMERR. -/
  | cohErr (p : Packet) (port : Nat)
  /-- COH_GONE (R324): Owner reports it no longer holds the line. -/
  | cohGone (p : Packet) (port : Nat)
  /-- COH_SNOOP_TIMEOUT (R324): An unanswered snoop reaches COHTMO; the line is poisoned owner-lost. -/
  | cohSnoopTimeout (line : Nat)
  /-- RESV_REQUEST (R319): Destination grants or refuses a reservation request. -/
  | resvRequest (p : Packet) (port : Nat)
  /-- RESV_GRANT (R318): Source resends owed bulk bytes under the grant, or completes FRESV. -/
  | resvGrant (p : Packet) (port : Nat)
  /-- RESV_REFUSAL (R318): Source records a refusal and retries later. -/
  | resvRefusal (p : Packet) (port : Nat)
  /-- RESV_RETRY_TIMER (R318): 10 µs after a refusal the source asks again. -/
  | resvRetryTimer (xfer : Nat)
  /-- RESV_GRANT_EXPIRY (R319): A grant's window runs out. -/
  | resvGrantExpiry (grant : Nat)
  /-- ACK (R315): Cumulative acknowledgement releases kept packets of a flow. -/
  | ack (p : Packet) (port : Nat)
  /-- NAK (R315): Resend the flow in order from the named SEQ. -/
  | nak (p : Packet) (port : Nat)
  /-- DROPNOTE (R318): Source learns a bulk packet was dropped and requests a reservation. -/
  | dropnote (p : Packet) (port : Nat)
  /-- BULKACK (R318): Destination acknowledges a bulk packet. -/
  | bulkack (p : Packet) (port : Nat)
  /-- BULKEND (R318): Destination applies the end of a bulk transfer. -/
  | bulkend (p : Packet) (port : Nat)
  /-- RESTRIPE (R310): Receiver adopts a new lane mask from the next flit. -/
  | restripe (port : Nat) (mask : BitVec 16)
  /-- KEYSWITCH (R327): Receiver switches to its staged key, or goes down without one. -/
  | keyswitch (port : Nat)
  /-- KEYREQ (R327): A clear-text key request from a port in key wait. -/
  | keyreq (port : Nat)
  /-- CREDIT (R312): Link credit returned for a virtual channel. -/
  | credit (port : Nat) (cls : Nat) (amount : Nat)
  /-- REPLAY (R326): Sender resends flits from the failed one under new counters. -/
  | replay (port : Nat) (flit : Nat)
  /-- KEY_WAIT_TIMEOUT (R327): After 1 ms in key wait the port goes down with DOWNKEY. -/
  | keyWaitTimeout (port : Nat)
  /-- FLOW_PORT_TIMEOUT (R315): A flow with no working port for 1 ms fails its operations with FABRIC. -/
  | flowPortTimeout (flow : Nat)
  /-- CORRECTED_ERROR (R265): A corrected error is counted and starts a targeted self-test. -/
  | correctedError (die : Nat) (u : TestUnit)
  /-- UNCORRECTABLE_ERROR (R266): An uncorrectable error poisons data or faults state as placed. -/
  | uncorrectableError (die : Nat) (at' : ErrPlace)
  /-- SELF_TEST_COMPLETE (R265): A self-test marks the error transient or retires the structure. -/
  | selfTestComplete (die : Nat) (u : TestUnit) (pass : Bool)
  /-- SYNCHRONOUS_INSTRUCTION_FINISH (R136): A synchronous engine instruction (MDRAIN after n + 8 cycles, a pool instruction, COHREC after its round trip) finishes, writes its registers and releases its waiting lane group. -/
  | synchronousInstructionFinish (gang : Nat)
  /-- PORT_TRAINING_COMPLETE (R328): A Yaltex port that ENABLE set training finishes training and comes UP with its lane mask and staged keys. -/
  | portTrainingComplete (port : Nat) (mask : BitVec 16)
  /-- PTP_DELAY_REQ_TIMER (R350): The slave's timer expires and the device sends a timestamped Delay_Req to the master. -/
  | ptpDelayReqTimer
  /-- PTP_ANNOUNCE (R350): An Announce message of the default profile is received and sets or confirms the master that the slave follows. -/
  | ptpAnnounce (domain : Nat) (master : Nat)
  deriving DecidableEq, Repr

end Sys2Proof
end

