-- ==== Sys2Proof/WellFormed.lean ====
section
/-!
DEFINITION. Sys2Proof/WellFormed.lean: what makes an instruction's fields legal (R16, R18, R22, R25, R77, R84 to R98, R114 to
R118, R121, R126, R135, R143). Each field of an instruction is named once with what it must be; a field that breaks its
limit is an illegal encoding of case 3 (reserved field value) or case 8 (illegal operand code) of R33.
-/

namespace Sys2Proof

/-- A field of an instruction word or of its prefix, by what it must hold. -/
inductive Field where
  /-- a 32-bit scalar operand code (R18, R21) -/
  | scalar (c : BitVec 7)
  /-- a 64-bit scalar source (R47) -/
  | scalar64 (c : BitVec 7)
  /-- the value of SST.D: an even register, an inline constant or the literal (R121) -/
  | store64 (c : BitVec 7)
  /-- a vector operand code (R18) -/
  | vector (c : BitVec 7)
  /-- a vector operand code of an integer operation, packed when the flag holds (R20) -/
  | vector16 (packed : Bool) (c : BitVec 7)
  /-- the fourth operand as an addend; 0 names the old destination (R87) -/
  | addend (c : BitVec 7)
  /-- the same in a packed integer operation (R20, R87) -/
  | addend16 (packed : Bool) (c : BitVec 7)
  /-- a scalar register 0-95 -/
  | sreg (c : BitVec 7)
  /-- a status register when `try` is set, else 0 (R143) -/
  | trySreg (t : BitVec 1) (c : BitVec 7)
  /-- an even register code 0-94 (R16, R135) -/
  | spair (c : BitVec 7)
  /-- a pair, or 96 for none (R155) -/
  | arrival (c : BitVec 7)
  /-- a register code that is a multiple of 4, at most 92 (R135) -/
  | block4 (c : BitVec 7)
  /-- a register code that is a multiple of 8, at most 88 (R135) -/
  | block8 (c : BitVec 7)
  /-- a predicate index 0-95 (R22) -/
  | pred (c : BitVec 7)
  /-- the guard of a prefix (R22, R25) -/
  | guard (c : BitVec 7)
  /-- a base pair field 0-47 (R114, R121) -/
  | base (x : BitVec 6)
  /-- any other limit whose breach is a reserved field value (case 3) -/
  | code3 (ok : Bool)
  /-- any other limit whose breach is an illegal operand code (case 8) -/
  | code8 (ok : Bool)
  deriving DecidableEq, Repr

/-- Scalar operand codes: registers 0-95, inline constants, the uniform specials and the literal (R18, R21). -/
def scalarCodeOk (c : BitVec 7) : Bool :=
  decide (c.toNat ≤ 111) || (decide (115 ≤ c.toNat) && decide (c.toNat ≤ 119)) || c == 127

/-- 64-bit scalar sources: even registers, inline constants, specials but `%ephhi`, the literal (R47). -/
def scalar64CodeOk (c : BitVec 7) : Bool :=
  (decide (c.toNat ≤ 94) && c.toNat % 2 == 0) || (decide (96 ≤ c.toNat) && decide (c.toNat ≤ 111)) ||
    (decide (115 ≤ c.toNat) && decide (c.toNat ≤ 118)) || c == 127

/-- Vector operand codes: all but 121-126 (R18). -/
def vectorCodeOk (c : BitVec 7) : Bool := decide (c.toNat ≤ 120) || c == 127

/-- Vector operand codes of packed 16-bit integer operations: 105-111 are illegal too (R20). -/
def vector16CodeOk (packed : Bool) (c : BitVec 7) : Bool :=
  vectorCodeOk c && !(packed && decide (105 ≤ c.toNat) && decide (c.toNat ≤ 111))

/-- An even register code 0-94 (R16). -/
def pairCodeOk (c : BitVec 7) : Bool := decide (c.toNat ≤ 94) && c.toNat % 2 == 0

/-- The case of R33 that a field breaks, if any. -/
def Field.case : Field → Option Nat
  | .scalar c => if scalarCodeOk c then none else some 8
  | .scalar64 c => if scalar64CodeOk c then none else some 8
  | .store64 c => if pairCodeOk c || (decide (96 ≤ c.toNat) && decide (c.toNat ≤ 111)) || c == 127 then none else some 8
  | .vector c => if vectorCodeOk c then none else some 8
  | .vector16 packed c => if vector16CodeOk packed c then none else some 8
  | .addend c => if vectorCodeOk c then none else some 8
  | .addend16 packed c => if vector16CodeOk packed c then none else some 8
  | .sreg c => if c.toNat ≤ 95 then none else some 8
  | .trySreg t c => if t == 1 then (if c.toNat ≤ 95 then none else some 8) else (if c == 0 then none else some 3)
  | .spair c => if pairCodeOk c then none else some 8
  | .arrival c => if pairCodeOk c || c == 96 then none else some 8
  | .block4 c => if c.toNat ≤ 92 && c.toNat % 4 == 0 then none else some 8
  | .block8 c => if c.toNat ≤ 88 && c.toNat % 8 == 0 then none else some 8
  | .pred c => if c.toNat ≤ 95 then none else some 8
  | .guard c => if c.toNat ≤ 95 then none else some 8
  | .base x => if x.toNat ≤ 47 then none else some 8
  | .code3 ok => if ok then none else some 3
  | .code8 ok => if ok then none else some 8

/-- Whether a field asks for the literal word (R23). -/
def Field.literal : Field → Bool
  | .scalar c | .scalar64 c | .store64 c | .vector c | .vector16 _ c | .addend c | .addend16 _ c => c == 127
  | _ => false

/-- The system register numbers that R35 and R369 assign. -/
def sysAssigned (n : Nat) : Bool :=
  [0x000, 0x001, 0x002, 0x010, 0x011, 0x012, 0x013, 0x014, 0x015, 0x020, 0x021, 0x030, 0x031, 0x032, 0x033, 0x040, 0x041,
    0x042, 0x043, 0x050, 0x051, 0x052, 0x060].contains n || (decide (0x100 ≤ n) && decide (n ≤ 0x1FF))

/-- Element width of an FCVT type code, 0 for a reserved one (R90). -/
def cvtWidth (t : Nat) : Nat :=
  match t with
  | 0 => 32
  | 1 => 16
  | 2 => 16
  | 3 => 8
  | 4 => 8
  | _ => 0

/-- The source and destination type codes of FCVT (R90). -/
def cvtSrc (b : BitVec 7) : Nat := b.toNat % 8
def cvtDst (b : BitVec 7) : Nat := b.toNat / 16

/-- FCVT's conversion code: defined, distinct types (R90). -/
def cvtCodeOk (b : BitVec 7) : Bool := cvtWidth (cvtSrc b) != 0 && cvtWidth (cvtDst b) != 0 && cvtSrc b != cvtDst b

/-- Whether element `e` exists in a register for a type of `w` bits (R90). -/
def elementOk (w e : Nat) : Bool := e * w < 32

/-- FCVT's auxiliary bits: elements within the types, bit 4 only with an FP8 operand, bits 7:5 zero (R90). -/
def cvtAuxOk (b : BitVec 7) (x : BitVec 8) : Bool :=
  elementOk (cvtWidth (cvtSrc b)) (x.toNat % 4) && elementOk (cvtWidth (cvtDst b)) (x.toNat / 4 % 4) &&
    (!x.getLsbD 4 || cvtWidth (cvtSrc b) == 8 || cvtWidth (cvtDst b) == 8) && decide (x.toNat < 32)

/-- The MX type in auxiliary bits 2:0, the sidecar in bits 6:3 (R92). -/
def mxType (x : BitVec 8) : Nat := x.toNat % 8
def mxSidecar (x : BitVec 8) : Nat := x.toNat / 8 % 16

/-- Defined MX type and bit 7 zero (R92). -/
def mxAuxOk (x : BitVec 8) : Bool := decide (mxType x ≤ 4) && !x.getLsbD 7

/-- Element positions of an MX register: 4 bytes or 8 nibbles (R92). -/
def mxPositions (x : BitVec 8) : Nat := if mxType x = 4 then 8 else 4

/-- Address bits of class 8: bit 6 is 0, SHIFT at most 4, NARROWS only where it applies (R114). -/
def vmAuxOk (narrow : Bool) (x : BitVec 8) : Bool :=
  !x.getLsbD 6 && decide (x.toNat % 8 ≤ 4) && (narrow || !x.getLsbD 7)

/-- VATOM's auxiliary bits: scope 1-5 with ORD, 0 without, operation 0-11 (R118). -/
def vatomAuxOk (x : BitVec 8) : Bool :=
  decide (x.toNat % 16 ≤ 11) &&
    (if x.getLsbD 7 then decide (1 ≤ x.toNat / 16 % 8 ∧ x.toNat / 16 % 8 ≤ 5) else x.toNat / 16 % 8 == 0)

/-- The scope and order fields of class 9: scope 0 without order, 1 to `top` with it (R121). -/
def scopeOk (s : BitVec 3) (o : BitVec 1) (top : Nat) : Bool :=
  if o == 1 then decide (1 ≤ s.toNat ∧ s.toNat ≤ top) else s == 0

/-- The fields of an instruction word, read with the prefix in force. -/
def fields (p : Pfx) : Instr → List Field
  | .sadd d a b => [.sreg d, .scalar a, .scalar b]
  | .ssub d a b => [.sreg d, .scalar a, .scalar b]
  | .smul d a b => [.sreg d, .scalar a, .scalar b]
  | .smulhu d a b => [.sreg d, .scalar a, .scalar b]
  | .smulhs d a b => [.sreg d, .scalar a, .scalar b]
  | .sand d a b => [.sreg d, .scalar a, .scalar b]
  | .sor d a b => [.sreg d, .scalar a, .scalar b]
  | .sxor d a b => [.sreg d, .scalar a, .scalar b]
  | .sandn d a b => [.sreg d, .scalar a, .scalar b]
  | .sshl d a b => [.sreg d, .scalar a, .scalar b]
  | .sshr d a b => [.sreg d, .scalar a, .scalar b]
  | .ssra d a b => [.sreg d, .scalar a, .scalar b]
  | .smin d a b => [.sreg d, .scalar a, .scalar b]
  | .smax d a b => [.sreg d, .scalar a, .scalar b]
  | .sminu d a b => [.sreg d, .scalar a, .scalar b]
  | .smaxu d a b => [.sreg d, .scalar a, .scalar b]
  | .scmpeq d a b => [.sreg d, .scalar a, .scalar b]
  | .scmplt d a b => [.sreg d, .scalar a, .scalar b]
  | .scmpltu d a b => [.sreg d, .scalar a, .scalar b]
  | .smov d a => [.sreg d, .scalar a]
  | .sadd64 d a b => [.spair d, .scalar64 a, .scalar64 b]
  | .ssub64 d a b => [.spair d, .scalar64 a, .scalar64 b]
  | .slea64_1 d a b => [.spair d, .scalar64 a, .scalar b]
  | .slea64_2 d a b => [.spair d, .scalar64 a, .scalar b]
  | .slea64_3 d a b => [.spair d, .scalar64 a, .scalar b]
  | .slea64_4 d a b => [.spair d, .scalar64 a, .scalar b]
  | .sclz d a => [.sreg d, .scalar a]
  | .spop d a => [.sreg d, .scalar a]
  | .sbrev d a => [.sreg d, .scalar a]
  | .sbfe d a b => [.sreg d, .scalar a, .scalar b]
  | .smovi d _ => [.sreg d]
  | .saddi d _ => [.sreg d]
  | .sandi d _ => [.sreg d]
  | .sori d _ => [.sreg d]
  | .sxori d _ => [.sreg d]
  | .sshli d _ => [.sreg d]
  | .sshri d _ => [.sreg d]
  | .ssrai d _ => [.sreg d]
  | .scmpeqi d _ => [.sreg d]
  | .scmplti d _ => [.sreg d]
  | .sadd64i d _ => [.spair d]
  | .ssysr d r => [.sreg d, .code3 (sysAssigned r.toNat)]
  | .ssysw d r => [.sreg d, .code3 (sysAssigned r.toNat)]
  | .stime d => [.spair d]
  | .br _ => []
  | .brsz c _ => [.scalar c]
  | .brsnz c _ => [.scalar c]
  | .brp c _ => [.pred c]
  | .brnp c _ => [.pred c]
  | .brany c _ => [.pred c]
  | .brall c _ => [.pred c]
  | .call c _ => [.code3 (decide (1 ≤ c.toNat ∧ c.toNat ≤ 7))]
  | .calli c s => [.spair c, .code3 (decide (1 ≤ s.toNat))]
  | .ret => []
  | .bri c => [.spair c]
  | .loopd c _ => [.sreg c]
  | .end_ => []
  | .refill c _ => [.code3 (decide (c.toNat ≤ 15))]
  | .yield => []
  | .jnew _ => []
  | .jenter _ => []
  | .jquit _ => []
  | .jwait _ => []
  | .jmask _ x y => [.sreg x, .code3 (decide (y.toNat ≤ 1))]
  | .jwmask _ x => [.sreg x]
  | .jfree _ => []
  | .jsetm _ x y => [.scalar x, .code3 (decide (y.toNat ≤ 2))]
  | .band y => [.code3 (decide (1 ≤ y.toNat ∧ y.toNat ≤ 5))]
  | .trap _ => []
  | .svc _ => []
  | .softint x _ => [.scalar x]
  | .snuffhold x => [.scalar x]
  | .snuffrel => []
  | .snuffpc x y => [.code8 (decide (x.toNat ≤ 63)), .code3 (decide (y.toNat ≤ 1))]
  | .valid x y => [.scalar x, .code3 (decide (y.toNat ≤ 7))]
  | .region => []
  | .halt => []
  | .bkpt _ => []
  | .fan x _ => [.spair x]
  | .enqTry x _ => [.spair x]
  | .enqPark x _ => [.spair x]
  | .vadd _ a b h => [.vector16 (h == 1) a, .vector16 (h == 1) b]
  | .vsub _ a b h => [.vector16 (h == 1) a, .vector16 (h == 1) b]
  | .vmullo _ a b h => [.vector16 (h == 1) a, .vector16 (h == 1) b]
  | .vmulhu _ a b h => [.vector16 (h == 1) a, .vector16 (h == 1) b]
  | .vmulhs _ a b h => [.vector16 (h == 1) a, .vector16 (h == 1) b]
  | .vmad _ a b h => [.vector16 (h == 1) a, .vector16 (h == 1) b]
  | .vand _ a b h => [.vector16 (h == 1) a, .vector16 (h == 1) b]
  | .vor _ a b h => [.vector16 (h == 1) a, .vector16 (h == 1) b]
  | .vxor _ a b h => [.vector16 (h == 1) a, .vector16 (h == 1) b]
  | .vandn _ a b h => [.vector16 (h == 1) a, .vector16 (h == 1) b]
  | .vshl _ a b h => [.vector16 (h == 1) a, .vector16 (h == 1) b]
  | .vshr _ a b h => [.vector16 (h == 1) a, .vector16 (h == 1) b]
  | .vsra _ a b h => [.vector16 (h == 1) a, .vector16 (h == 1) b]
  | .vmin _ a b h => [.vector16 (h == 1) a, .vector16 (h == 1) b]
  | .vmax _ a b h => [.vector16 (h == 1) a, .vector16 (h == 1) b]
  | .vminu _ a b h => [.vector16 (h == 1) a, .vector16 (h == 1) b]
  | .vmaxu _ a b h => [.vector16 (h == 1) a, .vector16 (h == 1) b]
  | .vabsd _ a b h => [.vector16 (h == 1) a, .vector16 (h == 1) b]
  | .vmov _ a => [.vector a]
  | .vsel _ a b => [.vector a, .vector b]
  | .vcmpeq d a b _ => [.code8 (decide (d.toNat ≤ 47)), .vector a, .vector b]
  | .vcmpne d a b _ => [.code8 (decide (d.toNat ≤ 47)), .vector a, .vector b]
  | .vcmplt d a b _ => [.code8 (decide (d.toNat ≤ 47)), .vector a, .vector b]
  | .vcmple d a b _ => [.code8 (decide (d.toNat ≤ 47)), .vector a, .vector b]
  | .vcmpltu d a b _ => [.code8 (decide (d.toNat ≤ 47)), .vector a, .vector b]
  | .vcmpleu d a b _ => [.code8 (decide (d.toNat ≤ 47)), .vector a, .vector b]
  | .vpand d a b _ => [.code8 (decide (d.toNat ≤ 47)), .pred a, .pred b]
  | .vpor d a b _ => [.code8 (decide (d.toNat ≤ 47)), .pred a, .pred b]
  | .vpxor d a b _ => [.code8 (decide (d.toNat ≤ 47)), .pred a, .pred b]
  | .vpnot d a _ => [.code8 (decide (d.toNat ≤ 47)), .pred a]
  | .vptov _ a b => [.pred a, .pred b, .code8 (decide (a.toNat ≤ b.toNat ∧ b.toNat - a.toNat ≤ 31))]
  | .vvtop d a b _ => [.code8 (decide (d.toNat ≤ 47)), .vector a, .vector b]
  | .vclz _ a h => [.vector16 (h == 1) a]
  | .vpop _ a h => [.vector16 (h == 1) a]
  | .vbfe _ a b => [.vector a, .vector b]
  | .vlea _ a b => [.vector a, .vector b]
  | .fadd _ a b _ => [.vector a, .vector b]
  | .fsub _ a b _ => [.vector a, .vector b]
  | .fmul _ a b _ => [.vector a, .vector b]
  | .fma _ a b _ => [.vector a, .vector b]
  | .fmin _ a b _ => [.vector a, .vector b]
  | .fmax _ a b _ => [.vector a, .vector b]
  | .fabs _ a _ => [.vector a]
  | .fneg _ a _ => [.vector a]
  | .fcmpeq d a b _ => [.code8 (decide (d.toNat ≤ 47)), .vector a, .vector b]
  | .fcmplt d a b _ => [.code8 (decide (d.toNat ≤ 47)), .vector a, .vector b]
  | .fcmple d a b _ => [.code8 (decide (d.toNat ≤ 47)), .vector a, .vector b]
  | .fcmpun d a b _ => [.code8 (decide (d.toNat ≤ 47)), .vector a, .vector b]
  | .fcvt _ a b => [.vector a, .code3 (cvtCodeOk b)]
  | .fcvti _ a b => [.vector a, .code3 (decide (b.toNat ≤ 2))]
  | .icvtf _ a b => [.vector a, .code3 (decide (b.toNat ≤ 1))]
  | .frnd _ a _ => [.vector a]
  | .fclass _ a _ => [.vector a]
  | .fdot2 _ a b => [.vector a, .vector b]
  | .fmxup _ a b => [.vector a, .code3 (decide (b.toNat < mxPositions p.x))]
  | .fmxpk _ a b => [.vector a, .code3 (decide (b.toNat < mxPositions p.x))]
  | .fmxscl a b h => [.vector a, .code3 (decide (b.toNat < mxPositions p.x)), .code3 (h == 0)]
  | .fmxmul _ a b h => [.vector a, .vector b, .code3 (h == 0)]
  | .fmxadd _ a b h => [.vector a, .vector b, .code3 (h == 0)]
  | .fscale _ a b h => [.vector a, .vector16 (h == 1) b]
  | .xpull _ _ _ _ => []
  | .xback _ _ _ _ => []
  | .xfwd _ _ _ _ => []
  | .xflip _ _ _ _ => []
  | .pany _ _ _ => []
  | .pall _ _ _ => []
  | .xsame _ _ _ => []
  | .pmask _ _ _ => []
  | .redAdd _ _ _ => []
  | .redMin _ _ _ => []
  | .redMax _ _ _ => []
  | .redFadd _ _ _ => []
  | .redFmax _ _ _ => []
  | .scanAdd _ _ _ => []
  | .scanFadd _ _ _ => []
  | .sortKv d a _ => [.code3 (a != d)]
  | .topk d _ b _ => [.code3 (decide (b.toNat ≤ 32)), .code3 (decide (d.toNat ≤ 61))]
  | .search _ _ _ _ => []
  | .cxch _ _ b _ => [.code3 (b != 0)]
  | .xeqm _ _ _ => []
  | .fexp2 _ a m _ => [.vector a, .code3 (decide (m.toNat ≤ 2))]
  | .flog2 _ a m _ => [.vector a, .code3 (decide (m.toNat ≤ 2))]
  | .frcp _ a m _ => [.vector a, .code3 (decide (m.toNat ≤ 2))]
  | .frsqrt _ a m _ => [.vector a, .code3 (decide (m.toNat ≤ 2))]
  | .fsqrt _ a m _ => [.vector a, .code3 (decide (m.toNat ≤ 2))]
  | .fsin _ a m _ => [.vector a, .code3 (decide (m.toNat ≤ 2))]
  | .fcos _ a m _ => [.vector a, .code3 (decide (m.toNat ≤ 2))]
  | .ftanh _ a m _ => [.vector a, .code3 (decide (m.toNat ≤ 2))]
  | .fexp _ a m _ => [.vector a, .code3 (decide (m.toNat ≤ 2))]
  | .vldB8 _ x i _ => [.base x, .code3 (p.x.getLsbD 4 == false || i == 0)]
  | .vldB16 _ x i _ => [.base x, .code3 (p.x.getLsbD 4 == false || i == 0)]
  | .vldW _ x i _ => [.base x, .code3 (p.x.getLsbD 4 == false || i == 0)]
  | .vldD t x i _ => [.base x, .code3 (p.x.getLsbD 4 == false || i == 0), .code8 (decide (t.toNat ≤ 62))]
  | .vldQ t x i _ => [.base x, .code3 (p.x.getLsbD 4 == false || i == 0), .code8 (decide (t.toNat ≤ 60))]
  | .vstB8 _ x i => [.base x, .code3 (p.x.getLsbD 4 == false || i == 0)]
  | .vstB16 _ x i => [.base x, .code3 (p.x.getLsbD 4 == false || i == 0)]
  | .vstW _ x i => [.base x, .code3 (p.x.getLsbD 4 == false || i == 0)]
  | .vstD t x i => [.base x, .code3 (p.x.getLsbD 4 == false || i == 0), .code8 (decide (t.toNat ≤ 62))]
  | .vstQ t x i => [.base x, .code3 (p.x.getLsbD 4 == false || i == 0), .code8 (decide (t.toNat ≤ 60))]
  | .vldsW _ x i _ => [.base x, .code3 (p.x.getLsbD 4 == false || i == 0)]
  | .vstsW _ x i => [.base x, .code3 (p.x.getLsbD 4 == false || i == 0)]
  | .vldsQ t x i _ => [.base x, .code3 (p.x.getLsbD 4 == false || i == 0), .code8 (decide (t.toNat ≤ 60))]
  | .vstsQ t x i => [.base x, .code3 (p.x.getLsbD 4 == false || i == 0), .code8 (decide (t.toNat ≤ 60))]
  | .vldmW _ x i _ => [.base x, .code3 (p.x.getLsbD 4 == false || i == 0)]
  | .vstmW _ x i => [.base x, .code3 (p.x.getLsbD 4 == false || i == 0)]
  | .vatom t x _ _ => [.base x, .code8 (p.x.toNat % 16 != 9 || decide (t.toNat ≤ 62))]
  | .vpref => []
  | .sldW d x _ s o => [.sreg d, .base x, .code3 (scopeOk s o 5)]
  | .sldD d x _ s o => [.spair d, .base x, .code3 (scopeOk s o 5)]
  | .sldQ d x _ s o => [.block4 d, .base x, .code3 (scopeOk s o 5)]
  | .sstW d x s o => [.scalar d, .base x, .code3 (scopeOk s o 5)]
  | .sstD d x s o => [.store64 d, .base x, .code3 (scopeOk s o 5)]
  | .sstQ d x s o => [.block4 d, .base x, .code3 (scopeOk s o 5)]
  | .satomAdd d x _ s o => [.sreg d, .base x, .code3 (scopeOk s o 5)]
  | .satomMin d x _ s o => [.sreg d, .base x, .code3 (scopeOk s o 5)]
  | .satomMax d x _ s o => [.sreg d, .base x, .code3 (scopeOk s o 5)]
  | .satomAnd d x _ s o => [.sreg d, .base x, .code3 (scopeOk s o 5)]
  | .satomOr d x _ s o => [.sreg d, .base x, .code3 (scopeOk s o 5)]
  | .satomXor d x _ s o => [.sreg d, .base x, .code3 (scopeOk s o 5)]
  | .satomXchg d x _ s o => [.sreg d, .base x, .code3 (scopeOk s o 5)]
  | .satomCas d x _ s o => [.spair d, .base x, .code3 (scopeOk s o 5)]
  | .satomAdd64 d x _ s o => [.spair d, .base x, .code3 (scopeOk s o 5)]
  | .satomCas64 d x _ s o => [.block4 d, .base x, .code3 (scopeOk s o 5)]
  | .acq d x _ s => [.spair d, .base x, .code3 (decide (1 ≤ s.toNat ∧ s.toNat ≤ 5))]
  | .rel d x s => [.scalar d, .base x, .code3 (decide (1 ≤ s.toNat ∧ s.toNat ≤ 5))]
  | .bind d x _ => [.block4 d, .base x]
  | .unbind d x _ => [.block4 d, .base x]
  | .sldsW d x _ s o => [.sreg d, .base x, .code3 (scopeOk s o 3)]
  | .sstsW d x s o => [.scalar d, .base x, .code3 (scopeOk s o 3)]
  | .ssigSub d x s => [.scalar d, .base x, .code3 (decide (1 ≤ s.toNat ∧ s.toNat ≤ 5))]
  | .fence => []
  | .waitc a n => [.scalar a, .code3 (decide (n.toNat ≤ 3))]
  | .barArr a s => [.spair a, .code3 (decide (1 ≤ s.toNat ∧ s.toNat ≤ 5))]
  | .barWait a b s => [.spair a, .scalar b, .code3 (decide (1 ≤ s.toNat ∧ s.toNat ≤ 5))]
  | .barArrn a b s => [.spair a, .scalar b, .code3 (decide (1 ≤ s.toNat ∧ s.toNat ≤ 5))]
  | .arwait a b s _ => [.spair a, .scalar b, .code3 (decide (1 ≤ s.toNat ∧ s.toNat ≤ 5))]
  | .arset a b s => [.spair a, .spair b, .code3 (decide (1 ≤ s.toNat ∧ s.toNat ≤ 5))]
  | .sstep a => [.scalar a]
  | .grpjoin a b => [.scalar a, .sreg b]
  | .grpleave a b => [.scalar a, .sreg b]
  | .cancel a n => [.scalar a, .code3 (decide (n.toNat ≤ 3))]
  | .notify a s => [.scalar a, .code3 (decide (1 ≤ s.toNat ∧ s.toNat ≤ 5))]
  | .sleep a b => [.scalar a, .sreg b]
  | .bcopy a b c => [.spair a, .spair b, .scalar c]
  | .bcopy2d a b c => [.spair a, .spair b, .block4 c]
  | .blist a b c => [.spair a, .scalar b, .arrival c]
  | .bkick a => [.spair a]
  | .fput a b c => [.spair a, .spair b, .spair c]
  | .fsput a b c => [.spair a, .spair b, .block4 c]
  | .fget a b c => [.spair a, .spair b, .block4 c]
  | .fatom a b c => [.spair a, .spair b, .block4 c]
  | .fred a b c => [.spair a, .spair b, .block4 c]
  | .fresv a b c => [.scalar a, .scalar b, .spair c]
  | .fbulk a => [.block8 a]
  | .lattn a b c => [.spair a, .scalar b, .spair c]
  | .balloc a b c => [.spair a, .scalar b, .sreg c]
  | .bfree a b c => [.spair a, .scalar b, .sreg c]
  | .btent a b c => [.spair a, .scalar b, .sreg c]
  | .bdrop a c => [.scalar a, .sreg c]
  | .bkeep a c => [.scalar a, .sreg c]
  | .cohrec a b c => [.spair a, .spair b, .sreg c]
  | .macq _ b t => [.trySreg t b]
  | .mrel _ => []
  | .mma _ a b => [.scalar a, .scalar b]
  | .mmaz _ a b => [.scalar a, .scalar b]
  | .mjob a _ => [.spair a]
  | .mdrain _ a b _ => [.scalar a, .code8 (decide (b.toNat ≤ 63))]
  | .mfill _ a b _ => [.scalar a, .code8 (decide (b.toNat ≤ 63))]
  | .mzero _ a => [.scalar a]
  | .mprog a b => [.block4 a, .scalar b]
  | .mtile a b _ => [.scalar a, .scalar b]
  | .pfx => []
  | .lookaheadResultCommit _ => []
  | .stackServiceDone _ => []
  | .svcRingRoom _ => []
  | .enqParkRoom _ => []
  | .gangUnpark _ => []
  | .sleepTimeout _ => []
  | .meridianRelease _ _ => []
  | .engineUnitCommit _ => []
  | .engineOpRetire _ _ => []
  | .jobCardRead _ => []
  | .mjobStart _ => []
  | .twinPartnerBankAcquire _ => []
  | .lattnWickRequest _ => []
  | .lanternTriple _ _ => []
  | .wickGrant => []
  | .chandlerPeriod _ _ _ => []
  | .remapSwapComplete _ => []
  | .translationWalk _ _ _ _ => []
  | .pinLimitExpiry _ => []
  | .snuffHoldExpiry _ => []
  | .snuffTime _ => []
  | .deadlineKill _ => []
  | .slackRecompute _ => []
  | .prewaitExpiry _ => []
  | .gangRestore _ _ => []
  | .queueIntake _ => []
  | .launchAdmission _ _ => []
  | .gangPlacement _ _ => []
  | .launchCompletion _ => []
  | .signalMarker _ => []
  | .ticketLeaseExpiry _ _ => []
  | .reclaimExecute _ => []
  | .firmwareCheckComplete => []
  | .reset => []
  | .fwgo _ => []
  | .lampctl _ => []
  | .queueActivate _ => []
  | .queueTurnOff _ => []
  | .queueStop _ => []
  | .notifyRegister _ _ => []
  | .wake _ _ => []
  | .sdoor _ => []
  | .fdone _ => []
  | .fqtail _ => []
  | .suspend _ => []
  | .suspendClear _ => []
  | .ctxtrap _ _ => []
  | .ctxpin _ _ => []
  | .fabtmo _ => []
  | .dumpack _ => []
  | .rcgo _ _ => []
  | .tlbinv _ _ => []
  | .tlbInvalidationComplete _ => []
  | .rmapctl _ => []
  | .poolEnable _ => []
  | .dropall _ => []
  | .ephset _ => []
  | .chcfgClr _ _ _ => []
  | .errclr _ => []
  | .ypctlEnable _ => []
  | .ykeygo _ _ => []
  | .mgmtRegisterWrite _ _ _ => []
  | .ptpSync _ _ _ _ => []
  | .ptpFollowUp _ _ _ => []
  | .ptpDelayResp _ _ _ => []
  | .ptpManagement => []
  | .syncLossTimeout => []
  | .flitReceive _ _ => []
  | .dieLinkFlitReceive _ _ _ => []
  | .dieLinkReplayRequest _ _ _ => []
  | .put _ _ _ => []
  | .sput _ _ => []
  | .get _ _ => []
  | .getResponse _ _ => []
  | .atom _ _ => []
  | .atomResponse _ _ => []
  | .red _ _ => []
  | .redResult _ _ => []
  | .remoteErrorResponse _ _ => []
  | .cohRd _ _ => []
  | .cohRdx _ _ => []
  | .cohWb _ _ => []
  | .cohSnp _ _ => []
  | .cohData _ _ => []
  | .cohErr _ _ => []
  | .cohGone _ _ => []
  | .cohSnoopTimeout _ => []
  | .resvRequest _ _ => []
  | .resvGrant _ _ => []
  | .resvRefusal _ _ => []
  | .resvRetryTimer _ => []
  | .resvGrantExpiry _ => []
  | .ack _ _ => []
  | .nak _ _ => []
  | .dropnote _ _ => []
  | .bulkack _ _ => []
  | .bulkend _ _ => []
  | .restripe _ _ => []
  | .keyswitch _ => []
  | .keyreq _ => []
  | .credit _ _ _ => []
  | .replay _ _ => []
  | .keyWaitTimeout _ => []
  | .flowPortTimeout _ => []
  | .correctedError _ _ => []
  | .uncorrectableError _ _ => []
  | .selfTestComplete _ _ _ => []
  | .synchronousInstructionFinish _ => []
  | .portTrainingComplete _ _ => []
  | .ptpDelayReqTimer => []
  | .ptpAnnounce _ _ => []

/-- The prefix's own fields, as its target uses them (R25); an instruction of a class that takes no prefix has none. -/
def pfxFields (p : Pfx) : Instr → List Field
  | .sadd _ _ _ => []
  | .ssub _ _ _ => []
  | .smul _ _ _ => []
  | .smulhu _ _ _ => []
  | .smulhs _ _ _ => []
  | .sand _ _ _ => []
  | .sor _ _ _ => []
  | .sxor _ _ _ => []
  | .sandn _ _ _ => []
  | .sshl _ _ _ => []
  | .sshr _ _ _ => []
  | .ssra _ _ _ => []
  | .smin _ _ _ => []
  | .smax _ _ _ => []
  | .sminu _ _ _ => []
  | .smaxu _ _ _ => []
  | .scmpeq _ _ _ => []
  | .scmplt _ _ _ => []
  | .scmpltu _ _ _ => []
  | .smov _ _ => []
  | .sadd64 _ _ _ => []
  | .ssub64 _ _ _ => []
  | .slea64_1 _ _ _ => []
  | .slea64_2 _ _ _ => []
  | .slea64_3 _ _ _ => []
  | .slea64_4 _ _ _ => []
  | .sclz _ _ => []
  | .spop _ _ => []
  | .sbrev _ _ => []
  | .sbfe _ _ _ => []
  | .smovi _ _ => []
  | .saddi _ _ => []
  | .sandi _ _ => []
  | .sori _ _ => []
  | .sxori _ _ => []
  | .sshli _ _ => []
  | .sshri _ _ => []
  | .ssrai _ _ => []
  | .scmpeqi _ _ => []
  | .scmplti _ _ => []
  | .sadd64i _ _ => []
  | .ssysr _ _ => []
  | .ssysw _ _ => []
  | .stime _ => []
  | .br _ => []
  | .brsz _ _ => []
  | .brsnz _ _ => []
  | .brp _ _ => []
  | .brnp _ _ => []
  | .brany _ _ => []
  | .brall _ _ => []
  | .call _ _ => []
  | .calli _ _ => []
  | .ret => []
  | .bri _ => []
  | .loopd _ _ => []
  | .end_ => []
  | .refill _ _ => []
  | .yield => []
  | .jnew _ => []
  | .jenter _ => []
  | .jquit _ => []
  | .jwait _ => []
  | .jmask _ _ _ => []
  | .jwmask _ _ => []
  | .jfree _ => []
  | .jsetm _ _ _ => []
  | .band _ => []
  | .trap _ => []
  | .svc _ => []
  | .softint _ _ => []
  | .snuffhold _ => []
  | .snuffrel => []
  | .snuffpc _ _ => []
  | .valid _ _ => []
  | .region => []
  | .halt => []
  | .bkpt _ => []
  | .fan _ _ => []
  | .enqTry _ _ => []
  | .enqPark _ _ => []
  | .vadd _ _ _ _ => [.guard p.g, .code3 (p.rm == 0), .code3 (p.o == 0), .code3 (decide (p.x.toNat ≤ 2))]
  | .vsub _ _ _ _ => [.guard p.g, .code3 (p.rm == 0), .code3 (p.o == 0), .code3 (decide (p.x.toNat ≤ 2))]
  | .vmullo _ _ _ _ => [.guard p.g, .code3 (p.rm == 0), .code3 (p.o == 0), .code3 (p.x == 0)]
  | .vmulhu _ _ _ _ => [.guard p.g, .code3 (p.rm == 0), .code3 (p.o == 0), .code3 (p.x == 0)]
  | .vmulhs _ _ _ _ => [.guard p.g, .code3 (p.rm == 0), .code3 (p.o == 0), .code3 (p.x == 0)]
  | .vmad _ _ _ h => [.guard p.g, .code3 (p.rm == 0), .addend16 (h == 1) p.o, .code3 (p.x == 0)]
  | .vand _ _ _ _ => [.guard p.g, .code3 (p.rm == 0), .code3 (p.o == 0), .code3 (p.x == 0)]
  | .vor _ _ _ _ => [.guard p.g, .code3 (p.rm == 0), .code3 (p.o == 0), .code3 (p.x == 0)]
  | .vxor _ _ _ _ => [.guard p.g, .code3 (p.rm == 0), .code3 (p.o == 0), .code3 (p.x == 0)]
  | .vandn _ _ _ _ => [.guard p.g, .code3 (p.rm == 0), .code3 (p.o == 0), .code3 (p.x == 0)]
  | .vshl _ _ _ _ => [.guard p.g, .code3 (p.rm == 0), .code3 (p.o == 0), .code3 (p.x == 0)]
  | .vshr _ _ _ _ => [.guard p.g, .code3 (p.rm == 0), .code3 (p.o == 0), .code3 (p.x == 0)]
  | .vsra _ _ _ _ => [.guard p.g, .code3 (p.rm == 0), .code3 (p.o == 0), .code3 (p.x == 0)]
  | .vmin _ _ _ _ => [.guard p.g, .code3 (p.rm == 0), .code3 (p.o == 0), .code3 (p.x == 0)]
  | .vmax _ _ _ _ => [.guard p.g, .code3 (p.rm == 0), .code3 (p.o == 0), .code3 (p.x == 0)]
  | .vminu _ _ _ _ => [.guard p.g, .code3 (p.rm == 0), .code3 (p.o == 0), .code3 (p.x == 0)]
  | .vmaxu _ _ _ _ => [.guard p.g, .code3 (p.rm == 0), .code3 (p.o == 0), .code3 (p.x == 0)]
  | .vabsd _ _ _ _ => [.guard p.g, .code3 (p.rm == 0), .code3 (p.o == 0), .code3 (p.x == 0)]
  | .vmov _ _ => [.guard p.g, .code3 (p.rm == 0), .code3 (p.o == 0), .code3 (p.x == 0)]
  | .vsel _ _ _ => [.guard p.g, .code3 (p.rm == 0), .pred p.o, .code3 (p.x == 0)]
  | .vcmpeq _ _ _ _ => [.guard p.g, .code3 (p.rm == 0), .code3 (p.o == 0), .code3 (p.x == 0)]
  | .vcmpne _ _ _ _ => [.guard p.g, .code3 (p.rm == 0), .code3 (p.o == 0), .code3 (p.x == 0)]
  | .vcmplt _ _ _ _ => [.guard p.g, .code3 (p.rm == 0), .code3 (p.o == 0), .code3 (p.x == 0)]
  | .vcmple _ _ _ _ => [.guard p.g, .code3 (p.rm == 0), .code3 (p.o == 0), .code3 (p.x == 0)]
  | .vcmpltu _ _ _ _ => [.guard p.g, .code3 (p.rm == 0), .code3 (p.o == 0), .code3 (p.x == 0)]
  | .vcmpleu _ _ _ _ => [.guard p.g, .code3 (p.rm == 0), .code3 (p.o == 0), .code3 (p.x == 0)]
  | .vpand _ _ _ _ => [.guard p.g, .code3 (p.rm == 0), .code3 (p.o == 0), .code3 (p.x == 0)]
  | .vpor _ _ _ _ => [.guard p.g, .code3 (p.rm == 0), .code3 (p.o == 0), .code3 (p.x == 0)]
  | .vpxor _ _ _ _ => [.guard p.g, .code3 (p.rm == 0), .code3 (p.o == 0), .code3 (p.x == 0)]
  | .vpnot _ _ _ => [.guard p.g, .code3 (p.rm == 0), .code3 (p.o == 0), .code3 (p.x == 0)]
  | .vptov _ _ _ => [.guard p.g, .code3 (p.rm == 0), .code3 (p.o == 0), .code3 (p.x == 0)]
  | .vvtop _ _ _ _ => [.guard p.g, .code3 (p.rm == 0), .code3 (p.o == 0), .code3 (p.x == 0)]
  | .vclz _ _ _ => [.guard p.g, .code3 (p.rm == 0), .code3 (p.o == 0), .code3 (p.x == 0)]
  | .vpop _ _ _ => [.guard p.g, .code3 (p.rm == 0), .code3 (p.o == 0), .code3 (p.x == 0)]
  | .vbfe _ _ _ => [.guard p.g, .code3 (p.rm == 0), .code3 (p.o == 0), .code3 (p.x == 0)]
  | .vlea _ _ _ => [.guard p.g, .code3 (p.rm == 0), .code3 (p.o == 0), .code3 (decide (p.x.toNat ≤ 4))]
  | .fadd _ _ _ h => [.guard p.g, .code3 (decide (p.rm.toNat ≤ 5)), .code3 (p.o == 0), .code3 (p.x == 0 || (h == 1 && p.x == 0x80))]
  | .fsub _ _ _ h => [.guard p.g, .code3 (decide (p.rm.toNat ≤ 5)), .code3 (p.o == 0), .code3 (p.x == 0 || (h == 1 && p.x == 0x80))]
  | .fmul _ _ _ h => [.guard p.g, .code3 (decide (p.rm.toNat ≤ 5)), .code3 (p.o == 0), .code3 (p.x == 0 || (h == 1 && p.x == 0x80))]
  | .fma _ _ _ h => [.guard p.g, .code3 (decide (p.rm.toNat ≤ 5)), .addend p.o, .code3 (p.x == 0 || (h == 1 && p.x == 0x80))]
  | .fmin _ _ _ h => [.guard p.g, .code3 (p.rm == 0), .code3 (p.o == 0), .code3 (p.x == 0 || (h == 1 && p.x == 0x80))]
  | .fmax _ _ _ h => [.guard p.g, .code3 (p.rm == 0), .code3 (p.o == 0), .code3 (p.x == 0 || (h == 1 && p.x == 0x80))]
  | .fabs _ _ h => [.guard p.g, .code3 (p.rm == 0), .code3 (p.o == 0), .code3 (p.x == 0 || (h == 1 && p.x == 0x80))]
  | .fneg _ _ h => [.guard p.g, .code3 (p.rm == 0), .code3 (p.o == 0), .code3 (p.x == 0 || (h == 1 && p.x == 0x80))]
  | .fcmpeq _ _ _ _ => [.guard p.g, .code3 (p.rm == 0), .code3 (p.o == 0), .code3 (p.x == 0)]
  | .fcmplt _ _ _ _ => [.guard p.g, .code3 (p.rm == 0), .code3 (p.o == 0), .code3 (p.x == 0)]
  | .fcmple _ _ _ _ => [.guard p.g, .code3 (p.rm == 0), .code3 (p.o == 0), .code3 (p.x == 0)]
  | .fcmpun _ _ _ _ => [.guard p.g, .code3 (p.rm == 0), .code3 (p.o == 0), .code3 (p.x == 0)]
  | .fcvt _ _ b => [.guard p.g, .code3 (decide (p.rm.toNat ≤ 5)), .code3 (p.o == 0), .code3 (cvtAuxOk b p.x)]
  | .fcvti _ _ _ => [.guard p.g, .code3 (decide (p.rm.toNat ≤ 5)), .code3 (p.o == 0), .code3 (p.x == 0)]
  | .icvtf _ _ _ => [.guard p.g, .code3 (decide (p.rm.toNat ≤ 5)), .code3 (p.o == 0), .code3 (p.x == 0)]
  | .frnd _ _ h => [.guard p.g, .code3 (decide (p.rm.toNat ≤ 5)), .code3 (p.o == 0), .code3 (p.x == 0 || (h == 1 && p.x == 0x80))]
  | .fclass _ _ h => [.guard p.g, .code3 (p.rm == 0), .code3 (p.o == 0), .code3 (p.x == 0 || (h == 1 && p.x == 0x80))]
  | .fdot2 _ _ _ => [.guard p.g, .code3 (decide (p.rm.toNat ≤ 5)), .addend p.o, .code3 (p.x == 0 || p.x == 0x80)]
  | .fmxup _ _ _ => [.guard p.g, .code3 (decide (p.rm.toNat ≤ 5)), .code3 (p.o == 0), .code3 (mxAuxOk p.x)]
  | .fmxpk _ _ _ => [.guard p.g, .code3 (decide (p.rm.toNat ≤ 5)), .code3 (p.o == 0), .code3 (mxAuxOk p.x)]
  | .fmxscl _ _ _ => [.guard p.g, .code3 (p.rm == 0), .code3 (p.o == 0), .code3 (mxAuxOk p.x), .code3 (p.z == 0)]
  | .fmxmul _ _ _ _ => [.guard p.g, .code3 (decide (p.rm.toNat ≤ 5)), .code3 (p.o == 0), .code3 (mxAuxOk p.x && decide (mxSidecar p.x ≤ 13))]
  | .fmxadd _ _ _ _ => [.guard p.g, .code3 (decide (p.rm.toNat ≤ 5)), .code3 (p.o == 0), .code3 (mxAuxOk p.x && decide (mxSidecar p.x ≤ 13))]
  | .fscale _ _ _ h => [.guard p.g, .code3 (decide (p.rm.toNat ≤ 5)), .code3 (p.o == 0), .code3 (p.x == 0 || (h == 1 && p.x == 0x80))]
  | .xpull _ _ _ _ => [.guard p.g, .code3 (p.rm == 0), .code3 (p.o == 0), .code3 (decide (p.x.toNat ≤ 1))]
  | .xback _ _ _ _ => [.guard p.g, .code3 (p.rm == 0), .code3 (p.o == 0), .code3 (decide (p.x.toNat ≤ 1))]
  | .xfwd _ _ _ _ => [.guard p.g, .code3 (p.rm == 0), .code3 (p.o == 0), .code3 (decide (p.x.toNat ≤ 1))]
  | .xflip _ _ _ _ => [.guard p.g, .code3 (p.rm == 0), .code3 (p.o == 0), .code3 (p.x == 0)]
  | .pany _ _ _ => [.guard p.g, .code3 (p.rm == 0), .code3 (p.o == 0), .code3 (p.x == 0)]
  | .pall _ _ _ => [.guard p.g, .code3 (p.rm == 0), .code3 (p.o == 0), .code3 (p.x == 0)]
  | .xsame _ _ _ => [.guard p.g, .code3 (p.rm == 0), .code3 (p.o == 0), .code3 (p.x == 0)]
  | .pmask _ _ _ => [.guard p.g, .code3 (p.rm == 0), .code3 (p.o == 0), .code3 (decide (p.x.toNat ≤ 1))]
  | .redAdd _ _ _ => [.guard p.g, .code3 (p.rm == 0), .code3 (p.o == 0), .code3 (p.x == 0)]
  | .redMin _ _ _ => [.guard p.g, .code3 (p.rm == 0), .code3 (p.o == 0), .code3 (decide (p.x.toNat ≤ 1))]
  | .redMax _ _ _ => [.guard p.g, .code3 (p.rm == 0), .code3 (p.o == 0), .code3 (decide (p.x.toNat ≤ 1))]
  | .redFadd _ _ _ => [.guard p.g, .code3 (decide (p.rm.toNat ≤ 5)), .code3 (p.o == 0), .code3 (p.x == 0)]
  | .redFmax _ _ _ => [.guard p.g, .code3 (p.rm == 0), .code3 (p.o == 0), .code3 (p.x == 0)]
  | .scanAdd _ _ _ => [.guard p.g, .code3 (p.rm == 0), .code3 (p.o == 0), .code3 (decide (p.x.toNat ≤ 1))]
  | .scanFadd _ _ _ => [.guard p.g, .code3 (decide (p.rm.toNat ≤ 5)), .code3 (p.o == 0), .code3 (decide (p.x.toNat ≤ 1))]
  | .sortKv _ _ _ => [.guard p.g, .code3 (p.rm == 0), .code3 (p.o == 0), .code3 (decide (p.x.toNat % 4 ≤ 2) && decide (p.x.toNat < 8))]
  | .topk _ _ _ _ => [.guard p.g, .code3 (p.rm == 0 || (decide (p.x.toNat % 4 = 2) && decide (p.rm.toNat ≤ 5))), .code3 (p.o == 0), .code3 (decide (p.x.toNat % 4 ≤ 2) && decide (p.x.toNat < 8))]
  | .search _ _ _ _ => [.guard p.g, .code3 (p.rm == 0), .code3 (p.o == 0), .code3 (decide (p.x.toNat % 4 ≤ 2) && p.x &&& 0xF4 == 0)]
  | .cxch _ _ _ _ => [.guard p.g, .code3 (p.rm == 0), .pred p.o, .code3 (decide (p.x.toNat ≤ 2))]
  | .xeqm _ _ _ => [.guard p.g, .code3 (p.rm == 0), .code3 (p.o == 0), .code3 (decide (p.x.toNat ≤ 1))]
  | .fexp2 _ _ _ _ => [.guard p.g, .code3 (decide (p.rm.toNat ≤ 1)), .code3 (p.o == 0), .code3 (p.x == 0)]
  | .flog2 _ _ _ _ => [.guard p.g, .code3 (decide (p.rm.toNat ≤ 1)), .code3 (p.o == 0), .code3 (p.x == 0)]
  | .frcp _ _ _ _ => [.guard p.g, .code3 (decide (p.rm.toNat ≤ 1)), .code3 (p.o == 0), .code3 (p.x == 0)]
  | .frsqrt _ _ _ _ => [.guard p.g, .code3 (decide (p.rm.toNat ≤ 1)), .code3 (p.o == 0), .code3 (p.x == 0)]
  | .fsqrt _ _ _ _ => [.guard p.g, .code3 (decide (p.rm.toNat ≤ 1)), .code3 (p.o == 0), .code3 (p.x == 0)]
  | .fsin _ _ _ _ => [.guard p.g, .code3 (decide (p.rm.toNat ≤ 1)), .code3 (p.o == 0), .code3 (p.x == 0)]
  | .fcos _ _ _ _ => [.guard p.g, .code3 (decide (p.rm.toNat ≤ 1)), .code3 (p.o == 0), .code3 (p.x == 0)]
  | .ftanh _ _ _ _ => [.guard p.g, .code3 (decide (p.rm.toNat ≤ 1)), .code3 (p.o == 0), .code3 (p.x == 0)]
  | .fexp _ _ _ _ => [.guard p.g, .code3 (decide (p.rm.toNat ≤ 1)), .code3 (p.o == 0), .code3 (p.x == 0)]
  | .vldB8 _ _ _ _ => [.guard p.g, .code3 (p.rm == 0), .code3 (p.o == 0), .code3 (vmAuxOk true p.x)]
  | .vldB16 _ _ _ _ => [.guard p.g, .code3 (p.rm == 0), .code3 (p.o == 0), .code3 (vmAuxOk true p.x)]
  | .vldW _ _ _ _ => [.guard p.g, .code3 (p.rm == 0), .code3 (p.o == 0), .code3 (vmAuxOk false p.x)]
  | .vldD _ _ _ _ => [.guard p.g, .code3 (p.rm == 0), .code3 (p.o == 0), .code3 (vmAuxOk false p.x)]
  | .vldQ _ _ _ _ => [.guard p.g, .code3 (p.rm == 0), .code3 (p.o == 0), .code3 (vmAuxOk false p.x)]
  | .vstB8 _ _ _ => [.guard p.g, .code3 (p.rm == 0), .code3 (p.o == 0), .code3 (vmAuxOk false p.x), .code3 (p.z == 0)]
  | .vstB16 _ _ _ => [.guard p.g, .code3 (p.rm == 0), .code3 (p.o == 0), .code3 (vmAuxOk false p.x), .code3 (p.z == 0)]
  | .vstW _ _ _ => [.guard p.g, .code3 (p.rm == 0), .code3 (p.o == 0), .code3 (vmAuxOk false p.x), .code3 (p.z == 0)]
  | .vstD _ _ _ => [.guard p.g, .code3 (p.rm == 0), .code3 (p.o == 0), .code3 (vmAuxOk false p.x), .code3 (p.z == 0)]
  | .vstQ _ _ _ => [.guard p.g, .code3 (p.rm == 0), .code3 (p.o == 0), .code3 (vmAuxOk false p.x), .code3 (p.z == 0)]
  | .vldsW _ _ _ _ => [.guard p.g, .code3 (p.rm == 0), .code3 (p.o == 0), .code3 (vmAuxOk false p.x)]
  | .vstsW _ _ _ => [.guard p.g, .code3 (p.rm == 0), .code3 (p.o == 0), .code3 (vmAuxOk false p.x), .code3 (p.z == 0)]
  | .vldsQ _ _ _ _ => [.guard p.g, .code3 (p.rm == 0), .code3 (p.o == 0), .code3 (vmAuxOk false p.x)]
  | .vstsQ _ _ _ => [.guard p.g, .code3 (p.rm == 0), .code3 (p.o == 0), .code3 (vmAuxOk false p.x), .code3 (p.z == 0)]
  | .vldmW _ _ _ _ => [.guard p.g, .code3 (p.rm == 0), .pred p.o, .code3 (vmAuxOk false p.x)]
  | .vstmW _ _ _ => [.guard p.g, .code3 (p.rm == 0), .pred p.o, .code3 (vmAuxOk false p.x), .code3 (p.z == 0)]
  | .vatom _ _ _ _ => [.guard p.g, .code3 (p.rm == 0), .code3 (p.o == 0), .code3 (vatomAuxOk p.x)]
  | .vpref => [.guard p.g, .code3 (p.rm == 0), .code3 (p.o == 0), .code3 (vmAuxOk true p.x), .code3 (p.z == 0)]
  | .sldW _ _ _ _ _ => []
  | .sldD _ _ _ _ _ => []
  | .sldQ _ _ _ _ _ => []
  | .sstW _ _ _ _ => []
  | .sstD _ _ _ _ => []
  | .sstQ _ _ _ _ => []
  | .satomAdd _ _ _ _ _ => []
  | .satomMin _ _ _ _ _ => []
  | .satomMax _ _ _ _ _ => []
  | .satomAnd _ _ _ _ _ => []
  | .satomOr _ _ _ _ _ => []
  | .satomXor _ _ _ _ _ => []
  | .satomXchg _ _ _ _ _ => []
  | .satomCas _ _ _ _ _ => []
  | .satomAdd64 _ _ _ _ _ => []
  | .satomCas64 _ _ _ _ _ => []
  | .acq _ _ _ _ => []
  | .rel _ _ _ => []
  | .bind _ _ _ => []
  | .unbind _ _ _ => []
  | .sldsW _ _ _ _ _ => []
  | .sstsW _ _ _ _ => []
  | .ssigSub _ _ _ => []
  | .fence => []
  | .waitc _ _ => []
  | .barArr _ _ => []
  | .barWait _ _ _ => []
  | .barArrn _ _ _ => []
  | .arwait _ _ _ _ => []
  | .arset _ _ _ => []
  | .sstep _ => []
  | .grpjoin _ _ => []
  | .grpleave _ _ => []
  | .cancel _ _ => []
  | .notify _ _ => []
  | .sleep _ _ => []
  | .bcopy _ _ _ => []
  | .bcopy2d _ _ _ => []
  | .blist _ _ _ => []
  | .bkick _ => []
  | .fput _ _ _ => []
  | .fsput _ _ _ => []
  | .fget _ _ _ => []
  | .fatom _ _ _ => []
  | .fred _ _ _ => []
  | .fresv _ _ _ => []
  | .fbulk _ => []
  | .lattn _ _ _ => []
  | .balloc _ _ _ => []
  | .bfree _ _ _ => []
  | .btent _ _ _ => []
  | .bdrop _ _ => []
  | .bkeep _ _ => []
  | .cohrec _ _ _ => []
  | .macq _ _ _ => []
  | .mrel _ => []
  | .mma _ _ _ => []
  | .mmaz _ _ _ => []
  | .mjob _ _ => []
  | .mdrain _ _ _ _ => []
  | .mfill _ _ _ _ => []
  | .mzero _ _ => []
  | .mprog _ _ => []
  | .mtile _ _ _ => []
  | .pfx => []
  | .lookaheadResultCommit _ => []
  | .stackServiceDone _ => []
  | .svcRingRoom _ => []
  | .enqParkRoom _ => []
  | .gangUnpark _ => []
  | .sleepTimeout _ => []
  | .meridianRelease _ _ => []
  | .engineUnitCommit _ => []
  | .engineOpRetire _ _ => []
  | .jobCardRead _ => []
  | .mjobStart _ => []
  | .twinPartnerBankAcquire _ => []
  | .lattnWickRequest _ => []
  | .lanternTriple _ _ => []
  | .wickGrant => []
  | .chandlerPeriod _ _ _ => []
  | .remapSwapComplete _ => []
  | .translationWalk _ _ _ _ => []
  | .pinLimitExpiry _ => []
  | .snuffHoldExpiry _ => []
  | .snuffTime _ => []
  | .deadlineKill _ => []
  | .slackRecompute _ => []
  | .prewaitExpiry _ => []
  | .gangRestore _ _ => []
  | .queueIntake _ => []
  | .launchAdmission _ _ => []
  | .gangPlacement _ _ => []
  | .launchCompletion _ => []
  | .signalMarker _ => []
  | .ticketLeaseExpiry _ _ => []
  | .reclaimExecute _ => []
  | .firmwareCheckComplete => []
  | .reset => []
  | .fwgo _ => []
  | .lampctl _ => []
  | .queueActivate _ => []
  | .queueTurnOff _ => []
  | .queueStop _ => []
  | .notifyRegister _ _ => []
  | .wake _ _ => []
  | .sdoor _ => []
  | .fdone _ => []
  | .fqtail _ => []
  | .suspend _ => []
  | .suspendClear _ => []
  | .ctxtrap _ _ => []
  | .ctxpin _ _ => []
  | .fabtmo _ => []
  | .dumpack _ => []
  | .rcgo _ _ => []
  | .tlbinv _ _ => []
  | .tlbInvalidationComplete _ => []
  | .rmapctl _ => []
  | .poolEnable _ => []
  | .dropall _ => []
  | .ephset _ => []
  | .chcfgClr _ _ _ => []
  | .errclr _ => []
  | .ypctlEnable _ => []
  | .ykeygo _ _ => []
  | .mgmtRegisterWrite _ _ _ => []
  | .ptpSync _ _ _ _ => []
  | .ptpFollowUp _ _ _ => []
  | .ptpDelayResp _ _ _ => []
  | .ptpManagement => []
  | .syncLossTimeout => []
  | .flitReceive _ _ => []
  | .dieLinkFlitReceive _ _ _ => []
  | .dieLinkReplayRequest _ _ _ => []
  | .put _ _ _ => []
  | .sput _ _ => []
  | .get _ _ => []
  | .getResponse _ _ => []
  | .atom _ _ => []
  | .atomResponse _ _ => []
  | .red _ _ => []
  | .redResult _ _ => []
  | .remoteErrorResponse _ _ => []
  | .cohRd _ _ => []
  | .cohRdx _ _ => []
  | .cohWb _ _ => []
  | .cohSnp _ _ => []
  | .cohData _ _ => []
  | .cohErr _ _ => []
  | .cohGone _ _ => []
  | .cohSnoopTimeout _ => []
  | .resvRequest _ _ => []
  | .resvGrant _ _ => []
  | .resvRefusal _ _ => []
  | .resvRetryTimer _ => []
  | .resvGrantExpiry _ => []
  | .ack _ _ => []
  | .nak _ _ => []
  | .dropnote _ _ => []
  | .bulkack _ _ => []
  | .bulkend _ _ => []
  | .restripe _ _ => []
  | .keyswitch _ => []
  | .keyreq _ => []
  | .credit _ _ _ => []
  | .replay _ _ => []
  | .keyWaitTimeout _ => []
  | .flowPortTimeout _ => []
  | .correctedError _ _ => []
  | .uncorrectableError _ _ => []
  | .selfTestComplete _ _ _ => []
  | .synchronousInstructionFinish _ => []
  | .portTrainingComplete _ _ => []
  | .ptpDelayReqTimer => []
  | .ptpAnnounce _ _ => []

/-- The fields of a VPREF word: base pair and index register (R114, R119); they stand in the word. -/
def vprefFields (p : Pfx) (w : Word) : List Field :=
  [.base (w.extractLsb' 10 6), .code3 (p.x.getLsbD 4 == false || w.extractLsb' 4 6 == (0 : BitVec 6))]

/-- The fields of a FENCE word: scope 1-5 and kind 0-2 (R126). -/
def fenceFields (w : Word) : List Field :=
  [.code3 (decide (1 ≤ w.toNat / 16 % 8 ∧ w.toNat / 16 % 8 ≤ 5)), .code3 (decide (w.toNat % 16 ≤ 2))]

/-- The lowest case among broken fields. -/
def lowestCase : List Field → Option Nat
  | [] => none
  | f :: fs =>
    match f.case, lowestCase fs with
    | none, r => r
    | some a, none => some a
    | some a, some b => some (min a b)

/-- Whether the instruction, with its prefix, takes a literal word (R23). -/
def takesLiteral (p : Pfx) (i : Instr) : Bool := (fields p i).any Field.literal || (pfxFields p i).any Field.literal

/-- Every field of an instruction with prefix `p` is legal (cases 3 and 8 of R33). -/
def wellFormedWith (p : Pfx) (i : Instr) : Bool := (lowestCase (fields p i)).isNone && (lowestCase (pfxFields p i)).isNone

/-- Every field of an unprefixed instruction is legal; an event is well-formed. -/
def wellFormed (i : Instr) : Bool := wellFormedWith Pfx.none i

end Sys2Proof
end

