-- ==== Sys2Proof/Decode.lean ====
section
/-!
DEFINITION. Sys2Proof/Decode.lean: instruction words to instructions and back (R8, R15 to R17, R29), and the instructions of a
packet (R9, R13, R23, R24). Decoding is total on any word; a word that is no instruction is rejected by the case of R33.
-/

namespace Sys2Proof

/-- `n` bits of a word from bit `lo` up. -/
def cut (w : Word) (lo n : Nat) : BitVec n := w.extractLsb' lo n

/-- Why a word is no instruction, by the case codes 1 to 3 of R33 (log 21, DEDUCED). -/
inductive Reject where
  /-- case 1: class 14 or 15 -/
  | reservedClass
  /-- case 2: an op value that R29 does not assign -/
  | reservedOp
  /-- case 3: a nonzero unused field, or a prefix with C = 1 -/
  | reservedField
  deriving DecidableEq, Repr

/-- The case code of R33. -/
def Reject.case : Reject → Nat
  | .reservedClass => 1
  | .reservedOp => 2
  | .reservedField => 3

/-- What one word decodes to. -/
inductive Decoded where
  | instr (i : Instr)
  | reject (r : Reject)
  deriving DecidableEq, Repr

/-- An instruction whose unused fields must hold what the format fixes (R16). -/
def ifFixed (ok : Bool) (i : Instr) : Decoded := if ok then .instr i else .reject .reservedField

/-- The chain bit C (R8). -/
def chainBit (w : Word) : Bool := w.getLsbD 31

/-- The class of a word (R8). -/
def classOf (w : Word) : Nat := (cut w 27 4).toNat

/-- The pad word (R11). -/
def padWord : Word := 0x02600000

/-- Class 0: the op values of R29. -/
def decodeClass0 (w : Word) : Decoded :=
  match (cut w 21 6).toNat with
  | 0 => .instr (.sadd (cut w 14 7) (cut w 7 7) (cut w 0 7))
  | 1 => .instr (.ssub (cut w 14 7) (cut w 7 7) (cut w 0 7))
  | 2 => .instr (.smul (cut w 14 7) (cut w 7 7) (cut w 0 7))
  | 3 => .instr (.smulhu (cut w 14 7) (cut w 7 7) (cut w 0 7))
  | 4 => .instr (.smulhs (cut w 14 7) (cut w 7 7) (cut w 0 7))
  | 5 => .instr (.sand (cut w 14 7) (cut w 7 7) (cut w 0 7))
  | 6 => .instr (.sor (cut w 14 7) (cut w 7 7) (cut w 0 7))
  | 7 => .instr (.sxor (cut w 14 7) (cut w 7 7) (cut w 0 7))
  | 8 => .instr (.sandn (cut w 14 7) (cut w 7 7) (cut w 0 7))
  | 9 => .instr (.sshl (cut w 14 7) (cut w 7 7) (cut w 0 7))
  | 10 => .instr (.sshr (cut w 14 7) (cut w 7 7) (cut w 0 7))
  | 11 => .instr (.ssra (cut w 14 7) (cut w 7 7) (cut w 0 7))
  | 12 => .instr (.smin (cut w 14 7) (cut w 7 7) (cut w 0 7))
  | 13 => .instr (.smax (cut w 14 7) (cut w 7 7) (cut w 0 7))
  | 14 => .instr (.sminu (cut w 14 7) (cut w 7 7) (cut w 0 7))
  | 15 => .instr (.smaxu (cut w 14 7) (cut w 7 7) (cut w 0 7))
  | 16 => .instr (.scmpeq (cut w 14 7) (cut w 7 7) (cut w 0 7))
  | 17 => .instr (.scmplt (cut w 14 7) (cut w 7 7) (cut w 0 7))
  | 18 => .instr (.scmpltu (cut w 14 7) (cut w 7 7) (cut w 0 7))
  | 19 => ifFixed (cut w 0 7 == 0) (.smov (cut w 14 7) (cut w 7 7))
  | 20 => .instr (.sadd64 (cut w 14 7) (cut w 7 7) (cut w 0 7))
  | 21 => .instr (.ssub64 (cut w 14 7) (cut w 7 7) (cut w 0 7))
  | 22 => .instr (.slea64_1 (cut w 14 7) (cut w 7 7) (cut w 0 7))
  | 23 => .instr (.slea64_2 (cut w 14 7) (cut w 7 7) (cut w 0 7))
  | 24 => .instr (.slea64_3 (cut w 14 7) (cut w 7 7) (cut w 0 7))
  | 25 => .instr (.slea64_4 (cut w 14 7) (cut w 7 7) (cut w 0 7))
  | 26 => ifFixed (cut w 0 7 == 0) (.sclz (cut w 14 7) (cut w 7 7))
  | 27 => ifFixed (cut w 0 7 == 0) (.spop (cut w 14 7) (cut w 7 7))
  | 28 => ifFixed (cut w 0 7 == 0) (.sbrev (cut w 14 7) (cut w 7 7))
  | 29 => .instr (.sbfe (cut w 14 7) (cut w 7 7) (cut w 0 7))
  | _ => .reject .reservedOp

/-- Class 1: the op values of R29. -/
def decodeClass1 (w : Word) : Decoded :=
  match (cut w 21 6).toNat with
  | 0 => .instr (.smovi (cut w 14 7) (cut w 0 14))
  | 1 => .instr (.saddi (cut w 14 7) (cut w 0 14))
  | 2 => .instr (.sandi (cut w 14 7) (cut w 0 14))
  | 3 => .instr (.sori (cut w 14 7) (cut w 0 14))
  | 4 => .instr (.sxori (cut w 14 7) (cut w 0 14))
  | 5 => ifFixed (cut w 5 9 == 0) (.sshli (cut w 14 7) (cut w 0 5))
  | 6 => ifFixed (cut w 5 9 == 0) (.sshri (cut w 14 7) (cut w 0 5))
  | 7 => ifFixed (cut w 5 9 == 0) (.ssrai (cut w 14 7) (cut w 0 5))
  | 8 => .instr (.scmpeqi (cut w 14 7) (cut w 0 14))
  | 9 => .instr (.scmplti (cut w 14 7) (cut w 0 14))
  | 10 => .instr (.sadd64i (cut w 14 7) (cut w 0 14))
  | 11 => .instr (.ssysr (cut w 14 7) (cut w 0 14))
  | 12 => .instr (.ssysw (cut w 14 7) (cut w 0 14))
  | 13 => ifFixed (cut w 0 14 == 0) (.stime (cut w 14 7))
  | _ => .reject .reservedOp

/-- Class 2: the op values of R29. -/
def decodeClass2 (w : Word) : Decoded :=
  match (cut w 22 5).toNat with
  | 0 => ifFixed (cut w 15 7 == 0) (.br (cut w 0 15))
  | 1 => .instr (.brsz (cut w 15 7) (cut w 0 15))
  | 2 => .instr (.brsnz (cut w 15 7) (cut w 0 15))
  | 3 => .instr (.brp (cut w 15 7) (cut w 0 15))
  | 4 => .instr (.brnp (cut w 15 7) (cut w 0 15))
  | 5 => .instr (.brany (cut w 15 7) (cut w 0 15))
  | 6 => .instr (.brall (cut w 15 7) (cut w 0 15))
  | 7 => .instr (.call (cut w 15 7) (cut w 0 15))
  | 8 => ifFixed (cut w 3 12 == 0) (.calli (cut w 15 7) (cut w 0 3))
  | 9 => ifFixed (cut w 0 22 == 0) (.ret)
  | 10 => ifFixed (cut w 0 15 == 0) (.bri (cut w 15 7))
  | 11 => .instr (.loopd (cut w 15 7) (cut w 0 15))
  | 12 => ifFixed (cut w 0 22 == 0) (.end_)
  | 13 => .instr (.refill (cut w 15 7) (cut w 0 15))
  | 14 => ifFixed (cut w 0 22 == 0) (.yield)
  | _ => .reject .reservedOp

/-- Class 3: the op values of R29. -/
def decodeClass3 (w : Word) : Decoded :=
  match (cut w 21 6).toNat with
  | 0 => ifFixed (cut w 0 17 == 0) (.jnew (cut w 17 4))
  | 1 => ifFixed (cut w 0 17 == 0) (.jenter (cut w 17 4))
  | 2 => ifFixed (cut w 0 17 == 0) (.jquit (cut w 17 4))
  | 3 => ifFixed (cut w 0 17 == 0) (.jwait (cut w 17 4))
  | 4 => .instr (.jmask (cut w 17 4) (cut w 10 7) (cut w 0 10))
  | 5 => ifFixed (cut w 0 10 == 0) (.jwmask (cut w 17 4) (cut w 10 7))
  | 6 => ifFixed (cut w 0 17 == 0) (.jfree (cut w 17 4))
  | 7 => .instr (.jsetm (cut w 17 4) (cut w 10 7) (cut w 0 10))
  | 8 => ifFixed (cut w 10 11 == 0) (.band (cut w 0 10))
  | 9 => ifFixed (cut w 10 11 == 0) (.trap (cut w 0 10))
  | 10 => ifFixed (cut w 10 11 == 0) (.svc (cut w 0 10))
  | 11 => ifFixed (cut w 17 4 == 0) (.softint (cut w 10 7) (cut w 0 10))
  | 12 => ifFixed (cut w 0 10 == 0 && cut w 17 4 == 0) (.snuffhold (cut w 10 7))
  | 13 => ifFixed (cut w 0 21 == 0) (.snuffrel)
  | 14 => ifFixed (cut w 17 4 == 0) (.snuffpc (cut w 10 7) (cut w 0 10))
  | 15 => ifFixed (cut w 17 4 == 0) (.valid (cut w 10 7) (cut w 0 10))
  | 16 => ifFixed (cut w 17 4 == 0) (.region)
  | 17 => ifFixed (cut w 0 21 == 0) (.halt)
  | 18 => ifFixed (cut w 10 11 == 0) (.bkpt (cut w 0 10))
  | 19 => ifFixed (cut w 2 8 == 0 && cut w 17 4 == 0) (.fan (cut w 10 7) (cut w 0 2))
  | 20 => ifFixed (cut w 17 4 == 0) (.enqTry (cut w 10 7) (cut w 0 10))
  | 21 => ifFixed (cut w 17 4 == 0) (.enqPark (cut w 10 7) (cut w 0 10))
  | _ => .reject .reservedOp

/-- Class 4: the op values of R29. -/
def decodeClass4 (w : Word) : Decoded :=
  match (cut w 21 6).toNat with
  | 0 => .instr (.vadd (cut w 15 6) (cut w 8 7) (cut w 1 7) (cut w 0 1))
  | 1 => .instr (.vsub (cut w 15 6) (cut w 8 7) (cut w 1 7) (cut w 0 1))
  | 2 => .instr (.vmullo (cut w 15 6) (cut w 8 7) (cut w 1 7) (cut w 0 1))
  | 3 => .instr (.vmulhu (cut w 15 6) (cut w 8 7) (cut w 1 7) (cut w 0 1))
  | 4 => .instr (.vmulhs (cut w 15 6) (cut w 8 7) (cut w 1 7) (cut w 0 1))
  | 5 => .instr (.vmad (cut w 15 6) (cut w 8 7) (cut w 1 7) (cut w 0 1))
  | 6 => .instr (.vand (cut w 15 6) (cut w 8 7) (cut w 1 7) (cut w 0 1))
  | 7 => .instr (.vor (cut w 15 6) (cut w 8 7) (cut w 1 7) (cut w 0 1))
  | 8 => .instr (.vxor (cut w 15 6) (cut w 8 7) (cut w 1 7) (cut w 0 1))
  | 9 => .instr (.vandn (cut w 15 6) (cut w 8 7) (cut w 1 7) (cut w 0 1))
  | 10 => .instr (.vshl (cut w 15 6) (cut w 8 7) (cut w 1 7) (cut w 0 1))
  | 11 => .instr (.vshr (cut w 15 6) (cut w 8 7) (cut w 1 7) (cut w 0 1))
  | 12 => .instr (.vsra (cut w 15 6) (cut w 8 7) (cut w 1 7) (cut w 0 1))
  | 13 => .instr (.vmin (cut w 15 6) (cut w 8 7) (cut w 1 7) (cut w 0 1))
  | 14 => .instr (.vmax (cut w 15 6) (cut w 8 7) (cut w 1 7) (cut w 0 1))
  | 15 => .instr (.vminu (cut w 15 6) (cut w 8 7) (cut w 1 7) (cut w 0 1))
  | 16 => .instr (.vmaxu (cut w 15 6) (cut w 8 7) (cut w 1 7) (cut w 0 1))
  | 17 => .instr (.vabsd (cut w 15 6) (cut w 8 7) (cut w 1 7) (cut w 0 1))
  | 18 => ifFixed (cut w 0 8 == 0) (.vmov (cut w 15 6) (cut w 8 7))
  | 19 => ifFixed (cut w 0 1 == 0) (.vsel (cut w 15 6) (cut w 8 7) (cut w 1 7))
  | 20 => .instr (.vcmpeq (cut w 15 6) (cut w 8 7) (cut w 1 7) (cut w 0 1))
  | 21 => .instr (.vcmpne (cut w 15 6) (cut w 8 7) (cut w 1 7) (cut w 0 1))
  | 22 => .instr (.vcmplt (cut w 15 6) (cut w 8 7) (cut w 1 7) (cut w 0 1))
  | 23 => .instr (.vcmple (cut w 15 6) (cut w 8 7) (cut w 1 7) (cut w 0 1))
  | 24 => .instr (.vcmpltu (cut w 15 6) (cut w 8 7) (cut w 1 7) (cut w 0 1))
  | 25 => .instr (.vcmpleu (cut w 15 6) (cut w 8 7) (cut w 1 7) (cut w 0 1))
  | 26 => .instr (.vpand (cut w 15 6) (cut w 8 7) (cut w 1 7) (cut w 0 1))
  | 27 => .instr (.vpor (cut w 15 6) (cut w 8 7) (cut w 1 7) (cut w 0 1))
  | 28 => .instr (.vpxor (cut w 15 6) (cut w 8 7) (cut w 1 7) (cut w 0 1))
  | 29 => ifFixed (cut w 1 7 == 0) (.vpnot (cut w 15 6) (cut w 8 7) (cut w 0 1))
  | 30 => ifFixed (cut w 0 1 == 0) (.vptov (cut w 15 6) (cut w 8 7) (cut w 1 7))
  | 31 => .instr (.vvtop (cut w 15 6) (cut w 8 7) (cut w 1 7) (cut w 0 1))
  | 32 => ifFixed (cut w 1 7 == 0) (.vclz (cut w 15 6) (cut w 8 7) (cut w 0 1))
  | 33 => ifFixed (cut w 1 7 == 0) (.vpop (cut w 15 6) (cut w 8 7) (cut w 0 1))
  | 34 => ifFixed (cut w 0 1 == 0) (.vbfe (cut w 15 6) (cut w 8 7) (cut w 1 7))
  | 35 => ifFixed (cut w 0 1 == 0) (.vlea (cut w 15 6) (cut w 8 7) (cut w 1 7))
  | _ => .reject .reservedOp

/-- Class 5: the op values of R29. -/
def decodeClass5 (w : Word) : Decoded :=
  match (cut w 21 6).toNat with
  | 0 => .instr (.fadd (cut w 15 6) (cut w 8 7) (cut w 1 7) (cut w 0 1))
  | 1 => .instr (.fsub (cut w 15 6) (cut w 8 7) (cut w 1 7) (cut w 0 1))
  | 2 => .instr (.fmul (cut w 15 6) (cut w 8 7) (cut w 1 7) (cut w 0 1))
  | 3 => .instr (.fma (cut w 15 6) (cut w 8 7) (cut w 1 7) (cut w 0 1))
  | 4 => .instr (.fmin (cut w 15 6) (cut w 8 7) (cut w 1 7) (cut w 0 1))
  | 5 => .instr (.fmax (cut w 15 6) (cut w 8 7) (cut w 1 7) (cut w 0 1))
  | 6 => ifFixed (cut w 1 7 == 0) (.fabs (cut w 15 6) (cut w 8 7) (cut w 0 1))
  | 7 => ifFixed (cut w 1 7 == 0) (.fneg (cut w 15 6) (cut w 8 7) (cut w 0 1))
  | 8 => .instr (.fcmpeq (cut w 15 6) (cut w 8 7) (cut w 1 7) (cut w 0 1))
  | 9 => .instr (.fcmplt (cut w 15 6) (cut w 8 7) (cut w 1 7) (cut w 0 1))
  | 10 => .instr (.fcmple (cut w 15 6) (cut w 8 7) (cut w 1 7) (cut w 0 1))
  | 11 => .instr (.fcmpun (cut w 15 6) (cut w 8 7) (cut w 1 7) (cut w 0 1))
  | 12 => ifFixed (cut w 0 1 == 0) (.fcvt (cut w 15 6) (cut w 8 7) (cut w 1 7))
  | 13 => ifFixed (cut w 0 1 == 0) (.fcvti (cut w 15 6) (cut w 8 7) (cut w 1 7))
  | 14 => ifFixed (cut w 0 1 == 0) (.icvtf (cut w 15 6) (cut w 8 7) (cut w 1 7))
  | 15 => ifFixed (cut w 1 7 == 0) (.frnd (cut w 15 6) (cut w 8 7) (cut w 0 1))
  | 16 => ifFixed (cut w 1 7 == 0) (.fclass (cut w 15 6) (cut w 8 7) (cut w 0 1))
  | 17 => ifFixed (cut w 0 1 == 1) (.fdot2 (cut w 15 6) (cut w 8 7) (cut w 1 7))
  | 18 => ifFixed (cut w 0 1 == 0) (.fmxup (cut w 15 6) (cut w 8 7) (cut w 1 7))
  | 19 => ifFixed (cut w 0 1 == 0) (.fmxpk (cut w 15 6) (cut w 8 7) (cut w 1 7))
  | 20 => ifFixed (cut w 15 6 == 0) (.fmxscl (cut w 8 7) (cut w 1 7) (cut w 0 1))
  | 21 => .instr (.fmxmul (cut w 15 6) (cut w 8 7) (cut w 1 7) (cut w 0 1))
  | 22 => .instr (.fmxadd (cut w 15 6) (cut w 8 7) (cut w 1 7) (cut w 0 1))
  | 23 => .instr (.fscale (cut w 15 6) (cut w 8 7) (cut w 1 7) (cut w 0 1))
  | _ => .reject .reservedOp

/-- Class 6: the op values of R29. -/
def decodeClass6 (w : Word) : Decoded :=
  match (cut w 22 5).toNat with
  | 0 => .instr (.xpull (cut w 16 6) (cut w 10 6) (cut w 4 6) (cut w 0 4))
  | 1 => .instr (.xback (cut w 16 6) (cut w 10 6) (cut w 4 6) (cut w 0 4))
  | 2 => .instr (.xfwd (cut w 16 6) (cut w 10 6) (cut w 4 6) (cut w 0 4))
  | 3 => .instr (.xflip (cut w 16 6) (cut w 10 6) (cut w 4 6) (cut w 0 4))
  | 4 => ifFixed (cut w 4 6 == 0) (.pany (cut w 16 6) (cut w 10 6) (cut w 0 4))
  | 5 => ifFixed (cut w 4 6 == 0) (.pall (cut w 16 6) (cut w 10 6) (cut w 0 4))
  | 6 => ifFixed (cut w 4 6 == 0) (.xsame (cut w 16 6) (cut w 10 6) (cut w 0 4))
  | 7 => ifFixed (cut w 4 6 == 0) (.pmask (cut w 16 6) (cut w 10 6) (cut w 0 4))
  | 8 => ifFixed (cut w 4 6 == 0) (.redAdd (cut w 16 6) (cut w 10 6) (cut w 0 4))
  | 9 => ifFixed (cut w 4 6 == 0) (.redMin (cut w 16 6) (cut w 10 6) (cut w 0 4))
  | 10 => ifFixed (cut w 4 6 == 0) (.redMax (cut w 16 6) (cut w 10 6) (cut w 0 4))
  | 11 => ifFixed (cut w 4 6 == 0) (.redFadd (cut w 16 6) (cut w 10 6) (cut w 0 4))
  | 12 => ifFixed (cut w 4 6 == 0) (.redFmax (cut w 16 6) (cut w 10 6) (cut w 0 4))
  | 13 => ifFixed (cut w 4 6 == 0) (.scanAdd (cut w 16 6) (cut w 10 6) (cut w 0 4))
  | 14 => ifFixed (cut w 4 6 == 0) (.scanFadd (cut w 16 6) (cut w 10 6) (cut w 0 4))
  | 15 => ifFixed (cut w 4 6 == 0) (.sortKv (cut w 16 6) (cut w 10 6) (cut w 0 4))
  | 16 => .instr (.topk (cut w 16 6) (cut w 10 6) (cut w 4 6) (cut w 0 4))
  | 17 => .instr (.search (cut w 16 6) (cut w 10 6) (cut w 4 6) (cut w 0 4))
  | 18 => .instr (.cxch (cut w 16 6) (cut w 10 6) (cut w 4 6) (cut w 0 4))
  | 19 => ifFixed (cut w 4 6 == 0) (.xeqm (cut w 16 6) (cut w 10 6) (cut w 0 4))
  | _ => .reject .reservedOp

/-- Class 7: the op values of R29. -/
def decodeClass7 (w : Word) : Decoded :=
  match (cut w 21 6).toNat with
  | 0 => ifFixed (cut w 4 1 == 0) (.fexp2 (cut w 15 6) (cut w 8 7) (cut w 5 3) (cut w 0 4))
  | 1 => ifFixed (cut w 4 1 == 0) (.flog2 (cut w 15 6) (cut w 8 7) (cut w 5 3) (cut w 0 4))
  | 2 => ifFixed (cut w 4 1 == 0) (.frcp (cut w 15 6) (cut w 8 7) (cut w 5 3) (cut w 0 4))
  | 3 => ifFixed (cut w 4 1 == 0) (.frsqrt (cut w 15 6) (cut w 8 7) (cut w 5 3) (cut w 0 4))
  | 4 => ifFixed (cut w 4 1 == 0) (.fsqrt (cut w 15 6) (cut w 8 7) (cut w 5 3) (cut w 0 4))
  | 5 => ifFixed (cut w 4 1 == 0) (.fsin (cut w 15 6) (cut w 8 7) (cut w 5 3) (cut w 0 4))
  | 6 => ifFixed (cut w 4 1 == 0) (.fcos (cut w 15 6) (cut w 8 7) (cut w 5 3) (cut w 0 4))
  | 7 => ifFixed (cut w 4 1 == 0) (.ftanh (cut w 15 6) (cut w 8 7) (cut w 5 3) (cut w 0 4))
  | 8 => ifFixed (cut w 4 1 == 0) (.fexp (cut w 15 6) (cut w 8 7) (cut w 5 3) (cut w 0 4))
  | _ => .reject .reservedOp

/-- Class 8: the op values of R29. -/
def decodeClass8 (w : Word) : Decoded :=
  match (cut w 22 5).toNat with
  | 0 => .instr (.vldB8 (cut w 16 6) (cut w 10 6) (cut w 4 6) (cut w 0 4))
  | 1 => .instr (.vldB16 (cut w 16 6) (cut w 10 6) (cut w 4 6) (cut w 0 4))
  | 2 => .instr (.vldW (cut w 16 6) (cut w 10 6) (cut w 4 6) (cut w 0 4))
  | 3 => .instr (.vldD (cut w 16 6) (cut w 10 6) (cut w 4 6) (cut w 0 4))
  | 4 => .instr (.vldQ (cut w 16 6) (cut w 10 6) (cut w 4 6) (cut w 0 4))
  | 5 => ifFixed (cut w 0 4 == 0) (.vstB8 (cut w 16 6) (cut w 10 6) (cut w 4 6))
  | 6 => ifFixed (cut w 0 4 == 0) (.vstB16 (cut w 16 6) (cut w 10 6) (cut w 4 6))
  | 7 => ifFixed (cut w 0 4 == 0) (.vstW (cut w 16 6) (cut w 10 6) (cut w 4 6))
  | 8 => ifFixed (cut w 0 4 == 0) (.vstD (cut w 16 6) (cut w 10 6) (cut w 4 6))
  | 9 => ifFixed (cut w 0 4 == 0) (.vstQ (cut w 16 6) (cut w 10 6) (cut w 4 6))
  | 10 => .instr (.vldsW (cut w 16 6) (cut w 10 6) (cut w 4 6) (cut w 0 4))
  | 11 => ifFixed (cut w 0 4 == 0) (.vstsW (cut w 16 6) (cut w 10 6) (cut w 4 6))
  | 12 => .instr (.vldsQ (cut w 16 6) (cut w 10 6) (cut w 4 6) (cut w 0 4))
  | 13 => ifFixed (cut w 0 4 == 0) (.vstsQ (cut w 16 6) (cut w 10 6) (cut w 4 6))
  | 14 => .instr (.vldmW (cut w 16 6) (cut w 10 6) (cut w 4 6) (cut w 0 4))
  | 15 => ifFixed (cut w 0 4 == 0) (.vstmW (cut w 16 6) (cut w 10 6) (cut w 4 6))
  | 16 => .instr (.vatom (cut w 16 6) (cut w 10 6) (cut w 4 6) (cut w 0 4))
  | 17 => ifFixed (cut w 0 4 == 0 && cut w 16 6 == 0) (.vpref)
  | _ => .reject .reservedOp

/-- Class 9: the op values of R29. -/
def decodeClass9 (w : Word) : Decoded :=
  match (cut w 21 6).toNat with
  | 0 => .instr (.sldW (cut w 14 7) (cut w 8 6) (cut w 4 4) (cut w 1 3) (cut w 0 1))
  | 1 => .instr (.sldD (cut w 14 7) (cut w 8 6) (cut w 4 4) (cut w 1 3) (cut w 0 1))
  | 2 => .instr (.sldQ (cut w 14 7) (cut w 8 6) (cut w 4 4) (cut w 1 3) (cut w 0 1))
  | 3 => ifFixed (cut w 4 4 == 0) (.sstW (cut w 14 7) (cut w 8 6) (cut w 1 3) (cut w 0 1))
  | 4 => ifFixed (cut w 4 4 == 0) (.sstD (cut w 14 7) (cut w 8 6) (cut w 1 3) (cut w 0 1))
  | 5 => ifFixed (cut w 4 4 == 0) (.sstQ (cut w 14 7) (cut w 8 6) (cut w 1 3) (cut w 0 1))
  | 6 => .instr (.satomAdd (cut w 14 7) (cut w 8 6) (cut w 4 4) (cut w 1 3) (cut w 0 1))
  | 7 => .instr (.satomMin (cut w 14 7) (cut w 8 6) (cut w 4 4) (cut w 1 3) (cut w 0 1))
  | 8 => .instr (.satomMax (cut w 14 7) (cut w 8 6) (cut w 4 4) (cut w 1 3) (cut w 0 1))
  | 9 => .instr (.satomAnd (cut w 14 7) (cut w 8 6) (cut w 4 4) (cut w 1 3) (cut w 0 1))
  | 10 => .instr (.satomOr (cut w 14 7) (cut w 8 6) (cut w 4 4) (cut w 1 3) (cut w 0 1))
  | 11 => .instr (.satomXor (cut w 14 7) (cut w 8 6) (cut w 4 4) (cut w 1 3) (cut w 0 1))
  | 12 => .instr (.satomXchg (cut w 14 7) (cut w 8 6) (cut w 4 4) (cut w 1 3) (cut w 0 1))
  | 13 => .instr (.satomCas (cut w 14 7) (cut w 8 6) (cut w 4 4) (cut w 1 3) (cut w 0 1))
  | 14 => .instr (.satomAdd64 (cut w 14 7) (cut w 8 6) (cut w 4 4) (cut w 1 3) (cut w 0 1))
  | 15 => .instr (.satomCas64 (cut w 14 7) (cut w 8 6) (cut w 4 4) (cut w 1 3) (cut w 0 1))
  | 16 => ifFixed (cut w 0 1 == 0) (.acq (cut w 14 7) (cut w 8 6) (cut w 4 4) (cut w 1 3))
  | 17 => ifFixed (cut w 0 1 == 0 && cut w 4 4 == 0) (.rel (cut w 14 7) (cut w 8 6) (cut w 1 3))
  | 18 => ifFixed (cut w 0 4 == 0) (.bind (cut w 14 7) (cut w 8 6) (cut w 4 4))
  | 19 => ifFixed (cut w 0 4 == 0) (.unbind (cut w 14 7) (cut w 8 6) (cut w 4 4))
  | 20 => .instr (.sldsW (cut w 14 7) (cut w 8 6) (cut w 4 4) (cut w 1 3) (cut w 0 1))
  | 21 => ifFixed (cut w 4 4 == 0) (.sstsW (cut w 14 7) (cut w 8 6) (cut w 1 3) (cut w 0 1))
  | 22 => ifFixed (cut w 0 1 == 0 && cut w 4 4 == 0) (.ssigSub (cut w 14 7) (cut w 8 6) (cut w 1 3))
  | _ => .reject .reservedOp

/-- Class 10: the op values of R29. -/
def decodeClass10 (w : Word) : Decoded :=
  match (cut w 21 6).toNat with
  | 0 => ifFixed (cut w 7 14 == 0) (.fence)
  | 1 => ifFixed (cut w 4 10 == 0) (.waitc (cut w 14 7) (cut w 0 4))
  | 2 => ifFixed (cut w 0 4 == 0 && cut w 7 7 == 0) (.barArr (cut w 14 7) (cut w 4 3))
  | 3 => ifFixed (cut w 0 4 == 0) (.barWait (cut w 14 7) (cut w 7 7) (cut w 4 3))
  | 4 => ifFixed (cut w 0 4 == 0) (.barArrn (cut w 14 7) (cut w 7 7) (cut w 4 3))
  | 5 => ifFixed (cut w 1 3 == 0) (.arwait (cut w 14 7) (cut w 7 7) (cut w 4 3) (cut w 0 1))
  | 6 => ifFixed (cut w 0 4 == 0) (.arset (cut w 14 7) (cut w 7 7) (cut w 4 3))
  | 7 => ifFixed (cut w 0 14 == 64) (.sstep (cut w 14 7))
  | 8 => ifFixed (cut w 0 7 == 0) (.grpjoin (cut w 14 7) (cut w 7 7))
  | 9 => ifFixed (cut w 0 7 == 0) (.grpleave (cut w 14 7) (cut w 7 7))
  | 10 => ifFixed (cut w 4 10 == 0) (.cancel (cut w 14 7) (cut w 0 4))
  | 11 => ifFixed (cut w 0 4 == 0 && cut w 7 7 == 0) (.notify (cut w 14 7) (cut w 4 3))
  | 12 => ifFixed (cut w 0 7 == 0) (.sleep (cut w 14 7) (cut w 7 7))
  | _ => .reject .reservedOp

/-- Class 11: the op values of R29. -/
def decodeClass11 (w : Word) : Decoded :=
  match (cut w 21 6).toNat with
  | 0 => .instr (.bcopy (cut w 14 7) (cut w 7 7) (cut w 0 7))
  | 1 => .instr (.bcopy2d (cut w 14 7) (cut w 7 7) (cut w 0 7))
  | 2 => .instr (.blist (cut w 14 7) (cut w 7 7) (cut w 0 7))
  | 3 => ifFixed (cut w 0 14 == 0) (.bkick (cut w 14 7))
  | 4 => .instr (.fput (cut w 14 7) (cut w 7 7) (cut w 0 7))
  | 5 => .instr (.fsput (cut w 14 7) (cut w 7 7) (cut w 0 7))
  | 6 => .instr (.fget (cut w 14 7) (cut w 7 7) (cut w 0 7))
  | 7 => .instr (.fatom (cut w 14 7) (cut w 7 7) (cut w 0 7))
  | 8 => .instr (.fred (cut w 14 7) (cut w 7 7) (cut w 0 7))
  | 9 => .instr (.fresv (cut w 14 7) (cut w 7 7) (cut w 0 7))
  | 10 => ifFixed (cut w 0 14 == 0) (.fbulk (cut w 14 7))
  | 11 => .instr (.lattn (cut w 14 7) (cut w 7 7) (cut w 0 7))
  | 12 => .instr (.balloc (cut w 14 7) (cut w 7 7) (cut w 0 7))
  | 13 => .instr (.bfree (cut w 14 7) (cut w 7 7) (cut w 0 7))
  | 14 => .instr (.btent (cut w 14 7) (cut w 7 7) (cut w 0 7))
  | 15 => ifFixed (cut w 7 7 == 0) (.bdrop (cut w 14 7) (cut w 0 7))
  | 16 => ifFixed (cut w 7 7 == 0) (.bkeep (cut w 14 7) (cut w 0 7))
  | 17 => .instr (.cohrec (cut w 14 7) (cut w 7 7) (cut w 0 7))
  | _ => .reject .reservedOp

/-- Class 12: the op values of R29. -/
def decodeClass12 (w : Word) : Decoded :=
  match (cut w 21 6).toNat with
  | 0 => ifFixed (cut w 1 3 == 0 && cut w 11 7 == 0) (.macq (cut w 18 3) (cut w 4 7) (cut w 0 1))
  | 1 => ifFixed (cut w 0 18 == 0) (.mrel (cut w 18 3))
  | 2 => ifFixed (cut w 0 4 == 0) (.mma (cut w 18 3) (cut w 11 7) (cut w 4 7))
  | 3 => ifFixed (cut w 0 4 == 0) (.mmaz (cut w 18 3) (cut w 11 7) (cut w 4 7))
  | 4 => ifFixed (cut w 1 10 == 0 && cut w 18 3 == 0) (.mjob (cut w 11 7) (cut w 0 1))
  | 5 => ifFixed (cut w 1 3 == 0) (.mdrain (cut w 18 3) (cut w 11 7) (cut w 4 7) (cut w 0 1))
  | 6 => ifFixed (cut w 1 3 == 0) (.mfill (cut w 18 3) (cut w 11 7) (cut w 4 7) (cut w 0 1))
  | 7 => ifFixed (cut w 0 11 == 0) (.mzero (cut w 18 3) (cut w 11 7))
  | 8 => ifFixed (cut w 0 4 == 0 && cut w 18 3 == 0) (.mprog (cut w 11 7) (cut w 4 7))
  | 9 => ifFixed (cut w 18 3 == 0) (.mtile (cut w 11 7) (cut w 4 7) (cut w 0 4))
  | _ => .reject .reservedOp

/-- Class 13: the prefix; its chain bit is 0 (R24). -/
def decodeClass13 (w : Word) : Decoded :=
  ifFixed (!chainBit w) .pfx

/-- One instruction word (R8, R29) (log 15, DESIGN CHOICE). -/
def decodeWord (w : Word) : Decoded :=
  match classOf w with
  | 0 => decodeClass0 w
  | 1 => decodeClass1 w
  | 2 => decodeClass2 w
  | 3 => decodeClass3 w
  | 4 => decodeClass4 w
  | 5 => decodeClass5 w
  | 6 => decodeClass6 w
  | 7 => decodeClass7 w
  | 8 => decodeClass8 w
  | 9 => decodeClass9 w
  | 10 => decodeClass10 w
  | 11 => decodeClass11 w
  | 12 => decodeClass12 w
  | 13 => decodeClass13 w
  | _ => .reject .reservedClass

/-- A field value standing from bit `lo` of a word up. -/
def place {n : Nat} (lo : Nat) (x : BitVec n) : Nat := x.toNat * 2 ^ lo

/-- The bits of an instruction word below its chain bit, or nothing for an event, which has no encoding (R8, R15, R29). A
prefix, VPREF, REGION and FENCE get the word whose remaining fields are 0 (log 15, DESIGN CHOICE). -/
def encodeBits : Instr → Option Nat
  | .sadd d a b => some (0x00000000 + place 14 d + place 7 a + place 0 b)
  | .ssub d a b => some (0x00200000 + place 14 d + place 7 a + place 0 b)
  | .smul d a b => some (0x00400000 + place 14 d + place 7 a + place 0 b)
  | .smulhu d a b => some (0x00600000 + place 14 d + place 7 a + place 0 b)
  | .smulhs d a b => some (0x00800000 + place 14 d + place 7 a + place 0 b)
  | .sand d a b => some (0x00A00000 + place 14 d + place 7 a + place 0 b)
  | .sor d a b => some (0x00C00000 + place 14 d + place 7 a + place 0 b)
  | .sxor d a b => some (0x00E00000 + place 14 d + place 7 a + place 0 b)
  | .sandn d a b => some (0x01000000 + place 14 d + place 7 a + place 0 b)
  | .sshl d a b => some (0x01200000 + place 14 d + place 7 a + place 0 b)
  | .sshr d a b => some (0x01400000 + place 14 d + place 7 a + place 0 b)
  | .ssra d a b => some (0x01600000 + place 14 d + place 7 a + place 0 b)
  | .smin d a b => some (0x01800000 + place 14 d + place 7 a + place 0 b)
  | .smax d a b => some (0x01A00000 + place 14 d + place 7 a + place 0 b)
  | .sminu d a b => some (0x01C00000 + place 14 d + place 7 a + place 0 b)
  | .smaxu d a b => some (0x01E00000 + place 14 d + place 7 a + place 0 b)
  | .scmpeq d a b => some (0x02000000 + place 14 d + place 7 a + place 0 b)
  | .scmplt d a b => some (0x02200000 + place 14 d + place 7 a + place 0 b)
  | .scmpltu d a b => some (0x02400000 + place 14 d + place 7 a + place 0 b)
  | .smov d a => some (0x02600000 + place 14 d + place 7 a)
  | .sadd64 d a b => some (0x02800000 + place 14 d + place 7 a + place 0 b)
  | .ssub64 d a b => some (0x02A00000 + place 14 d + place 7 a + place 0 b)
  | .slea64_1 d a b => some (0x02C00000 + place 14 d + place 7 a + place 0 b)
  | .slea64_2 d a b => some (0x02E00000 + place 14 d + place 7 a + place 0 b)
  | .slea64_3 d a b => some (0x03000000 + place 14 d + place 7 a + place 0 b)
  | .slea64_4 d a b => some (0x03200000 + place 14 d + place 7 a + place 0 b)
  | .sclz d a => some (0x03400000 + place 14 d + place 7 a)
  | .spop d a => some (0x03600000 + place 14 d + place 7 a)
  | .sbrev d a => some (0x03800000 + place 14 d + place 7 a)
  | .sbfe d a b => some (0x03A00000 + place 14 d + place 7 a + place 0 b)
  | .smovi d i => some (0x08000000 + place 14 d + place 0 i)
  | .saddi d i => some (0x08200000 + place 14 d + place 0 i)
  | .sandi d i => some (0x08400000 + place 14 d + place 0 i)
  | .sori d i => some (0x08600000 + place 14 d + place 0 i)
  | .sxori d i => some (0x08800000 + place 14 d + place 0 i)
  | .sshli d n => some (0x08A00000 + place 14 d + place 0 n)
  | .sshri d n => some (0x08C00000 + place 14 d + place 0 n)
  | .ssrai d n => some (0x08E00000 + place 14 d + place 0 n)
  | .scmpeqi d i => some (0x09000000 + place 14 d + place 0 i)
  | .scmplti d i => some (0x09200000 + place 14 d + place 0 i)
  | .sadd64i d i => some (0x09400000 + place 14 d + place 0 i)
  | .ssysr d r => some (0x09600000 + place 14 d + place 0 r)
  | .ssysw d r => some (0x09800000 + place 14 d + place 0 r)
  | .stime d => some (0x09A00000 + place 14 d)
  | .br f => some (0x10000000 + place 0 f)
  | .brsz c f => some (0x10400000 + place 15 c + place 0 f)
  | .brsnz c f => some (0x10800000 + place 15 c + place 0 f)
  | .brp c f => some (0x10C00000 + place 15 c + place 0 f)
  | .brnp c f => some (0x11000000 + place 15 c + place 0 f)
  | .brany c f => some (0x11400000 + place 15 c + place 0 f)
  | .brall c f => some (0x11800000 + place 15 c + place 0 f)
  | .call c f => some (0x11C00000 + place 15 c + place 0 f)
  | .calli c s => some (0x12000000 + place 15 c + place 0 s)
  | .ret => some (0x12400000)
  | .bri c => some (0x12800000 + place 15 c)
  | .loopd c f => some (0x12C00000 + place 15 c + place 0 f)
  | .end_ => some (0x13000000)
  | .refill c f => some (0x13400000 + place 15 c + place 0 f)
  | .yield => some (0x13800000)
  | .jnew j => some (0x18000000 + place 17 j)
  | .jenter j => some (0x18200000 + place 17 j)
  | .jquit j => some (0x18400000 + place 17 j)
  | .jwait j => some (0x18600000 + place 17 j)
  | .jmask j x y => some (0x18800000 + place 17 j + place 10 x + place 0 y)
  | .jwmask j x => some (0x18A00000 + place 17 j + place 10 x)
  | .jfree j => some (0x18C00000 + place 17 j)
  | .jsetm j x y => some (0x18E00000 + place 17 j + place 10 x + place 0 y)
  | .band y => some (0x19000000 + place 0 y)
  | .trap y => some (0x19200000 + place 0 y)
  | .svc y => some (0x19400000 + place 0 y)
  | .softint x y => some (0x19600000 + place 10 x + place 0 y)
  | .snuffhold x => some (0x19800000 + place 10 x)
  | .snuffrel => some (0x19A00000)
  | .snuffpc x y => some (0x19C00000 + place 10 x + place 0 y)
  | .valid x y => some (0x19E00000 + place 10 x + place 0 y)
  | .region => some (0x1A000000)
  | .halt => some (0x1A200000)
  | .bkpt y => some (0x1A400000 + place 0 y)
  | .fan x y => some (0x1A600000 + place 10 x + place 0 y)
  | .enqTry x y => some (0x1A800000 + place 10 x + place 0 y)
  | .enqPark x y => some (0x1AA00000 + place 10 x + place 0 y)
  | .vadd d a b h => some (0x20000000 + place 15 d + place 8 a + place 1 b + place 0 h)
  | .vsub d a b h => some (0x20200000 + place 15 d + place 8 a + place 1 b + place 0 h)
  | .vmullo d a b h => some (0x20400000 + place 15 d + place 8 a + place 1 b + place 0 h)
  | .vmulhu d a b h => some (0x20600000 + place 15 d + place 8 a + place 1 b + place 0 h)
  | .vmulhs d a b h => some (0x20800000 + place 15 d + place 8 a + place 1 b + place 0 h)
  | .vmad d a b h => some (0x20A00000 + place 15 d + place 8 a + place 1 b + place 0 h)
  | .vand d a b h => some (0x20C00000 + place 15 d + place 8 a + place 1 b + place 0 h)
  | .vor d a b h => some (0x20E00000 + place 15 d + place 8 a + place 1 b + place 0 h)
  | .vxor d a b h => some (0x21000000 + place 15 d + place 8 a + place 1 b + place 0 h)
  | .vandn d a b h => some (0x21200000 + place 15 d + place 8 a + place 1 b + place 0 h)
  | .vshl d a b h => some (0x21400000 + place 15 d + place 8 a + place 1 b + place 0 h)
  | .vshr d a b h => some (0x21600000 + place 15 d + place 8 a + place 1 b + place 0 h)
  | .vsra d a b h => some (0x21800000 + place 15 d + place 8 a + place 1 b + place 0 h)
  | .vmin d a b h => some (0x21A00000 + place 15 d + place 8 a + place 1 b + place 0 h)
  | .vmax d a b h => some (0x21C00000 + place 15 d + place 8 a + place 1 b + place 0 h)
  | .vminu d a b h => some (0x21E00000 + place 15 d + place 8 a + place 1 b + place 0 h)
  | .vmaxu d a b h => some (0x22000000 + place 15 d + place 8 a + place 1 b + place 0 h)
  | .vabsd d a b h => some (0x22200000 + place 15 d + place 8 a + place 1 b + place 0 h)
  | .vmov d a => some (0x22400000 + place 15 d + place 8 a)
  | .vsel d a b => some (0x22600000 + place 15 d + place 8 a + place 1 b)
  | .vcmpeq d a b h => some (0x22800000 + place 15 d + place 8 a + place 1 b + place 0 h)
  | .vcmpne d a b h => some (0x22A00000 + place 15 d + place 8 a + place 1 b + place 0 h)
  | .vcmplt d a b h => some (0x22C00000 + place 15 d + place 8 a + place 1 b + place 0 h)
  | .vcmple d a b h => some (0x22E00000 + place 15 d + place 8 a + place 1 b + place 0 h)
  | .vcmpltu d a b h => some (0x23000000 + place 15 d + place 8 a + place 1 b + place 0 h)
  | .vcmpleu d a b h => some (0x23200000 + place 15 d + place 8 a + place 1 b + place 0 h)
  | .vpand d a b h => some (0x23400000 + place 15 d + place 8 a + place 1 b + place 0 h)
  | .vpor d a b h => some (0x23600000 + place 15 d + place 8 a + place 1 b + place 0 h)
  | .vpxor d a b h => some (0x23800000 + place 15 d + place 8 a + place 1 b + place 0 h)
  | .vpnot d a h => some (0x23A00000 + place 15 d + place 8 a + place 0 h)
  | .vptov d a b => some (0x23C00000 + place 15 d + place 8 a + place 1 b)
  | .vvtop d a b h => some (0x23E00000 + place 15 d + place 8 a + place 1 b + place 0 h)
  | .vclz d a h => some (0x24000000 + place 15 d + place 8 a + place 0 h)
  | .vpop d a h => some (0x24200000 + place 15 d + place 8 a + place 0 h)
  | .vbfe d a b => some (0x24400000 + place 15 d + place 8 a + place 1 b)
  | .vlea d a b => some (0x24600000 + place 15 d + place 8 a + place 1 b)
  | .fadd d a b h => some (0x28000000 + place 15 d + place 8 a + place 1 b + place 0 h)
  | .fsub d a b h => some (0x28200000 + place 15 d + place 8 a + place 1 b + place 0 h)
  | .fmul d a b h => some (0x28400000 + place 15 d + place 8 a + place 1 b + place 0 h)
  | .fma d a b h => some (0x28600000 + place 15 d + place 8 a + place 1 b + place 0 h)
  | .fmin d a b h => some (0x28800000 + place 15 d + place 8 a + place 1 b + place 0 h)
  | .fmax d a b h => some (0x28A00000 + place 15 d + place 8 a + place 1 b + place 0 h)
  | .fabs d a h => some (0x28C00000 + place 15 d + place 8 a + place 0 h)
  | .fneg d a h => some (0x28E00000 + place 15 d + place 8 a + place 0 h)
  | .fcmpeq d a b h => some (0x29000000 + place 15 d + place 8 a + place 1 b + place 0 h)
  | .fcmplt d a b h => some (0x29200000 + place 15 d + place 8 a + place 1 b + place 0 h)
  | .fcmple d a b h => some (0x29400000 + place 15 d + place 8 a + place 1 b + place 0 h)
  | .fcmpun d a b h => some (0x29600000 + place 15 d + place 8 a + place 1 b + place 0 h)
  | .fcvt d a b => some (0x29800000 + place 15 d + place 8 a + place 1 b)
  | .fcvti d a b => some (0x29A00000 + place 15 d + place 8 a + place 1 b)
  | .icvtf d a b => some (0x29C00000 + place 15 d + place 8 a + place 1 b)
  | .frnd d a h => some (0x29E00000 + place 15 d + place 8 a + place 0 h)
  | .fclass d a h => some (0x2A000000 + place 15 d + place 8 a + place 0 h)
  | .fdot2 d a b => some (0x2A200001 + place 15 d + place 8 a + place 1 b)
  | .fmxup d a b => some (0x2A400000 + place 15 d + place 8 a + place 1 b)
  | .fmxpk d a b => some (0x2A600000 + place 15 d + place 8 a + place 1 b)
  | .fmxscl a b h => some (0x2A800000 + place 8 a + place 1 b + place 0 h)
  | .fmxmul d a b h => some (0x2AA00000 + place 15 d + place 8 a + place 1 b + place 0 h)
  | .fmxadd d a b h => some (0x2AC00000 + place 15 d + place 8 a + place 1 b + place 0 h)
  | .fscale d a b h => some (0x2AE00000 + place 15 d + place 8 a + place 1 b + place 0 h)
  | .xpull d a b j => some (0x30000000 + place 16 d + place 10 a + place 4 b + place 0 j)
  | .xback d a b j => some (0x30400000 + place 16 d + place 10 a + place 4 b + place 0 j)
  | .xfwd d a b j => some (0x30800000 + place 16 d + place 10 a + place 4 b + place 0 j)
  | .xflip d a b j => some (0x30C00000 + place 16 d + place 10 a + place 4 b + place 0 j)
  | .pany d a j => some (0x31000000 + place 16 d + place 10 a + place 0 j)
  | .pall d a j => some (0x31400000 + place 16 d + place 10 a + place 0 j)
  | .xsame d a j => some (0x31800000 + place 16 d + place 10 a + place 0 j)
  | .pmask d a j => some (0x31C00000 + place 16 d + place 10 a + place 0 j)
  | .redAdd d a j => some (0x32000000 + place 16 d + place 10 a + place 0 j)
  | .redMin d a j => some (0x32400000 + place 16 d + place 10 a + place 0 j)
  | .redMax d a j => some (0x32800000 + place 16 d + place 10 a + place 0 j)
  | .redFadd d a j => some (0x32C00000 + place 16 d + place 10 a + place 0 j)
  | .redFmax d a j => some (0x33000000 + place 16 d + place 10 a + place 0 j)
  | .scanAdd d a j => some (0x33400000 + place 16 d + place 10 a + place 0 j)
  | .scanFadd d a j => some (0x33800000 + place 16 d + place 10 a + place 0 j)
  | .sortKv d a j => some (0x33C00000 + place 16 d + place 10 a + place 0 j)
  | .topk d a b j => some (0x34000000 + place 16 d + place 10 a + place 4 b + place 0 j)
  | .search d a b j => some (0x34400000 + place 16 d + place 10 a + place 4 b + place 0 j)
  | .cxch d a b j => some (0x34800000 + place 16 d + place 10 a + place 4 b + place 0 j)
  | .xeqm d a j => some (0x34C00000 + place 16 d + place 10 a + place 0 j)
  | .fexp2 d a m L => some (0x38000000 + place 15 d + place 8 a + place 5 m + place 0 L)
  | .flog2 d a m L => some (0x38200000 + place 15 d + place 8 a + place 5 m + place 0 L)
  | .frcp d a m L => some (0x38400000 + place 15 d + place 8 a + place 5 m + place 0 L)
  | .frsqrt d a m L => some (0x38600000 + place 15 d + place 8 a + place 5 m + place 0 L)
  | .fsqrt d a m L => some (0x38800000 + place 15 d + place 8 a + place 5 m + place 0 L)
  | .fsin d a m L => some (0x38A00000 + place 15 d + place 8 a + place 5 m + place 0 L)
  | .fcos d a m L => some (0x38C00000 + place 15 d + place 8 a + place 5 m + place 0 L)
  | .ftanh d a m L => some (0x38E00000 + place 15 d + place 8 a + place 5 m + place 0 L)
  | .fexp d a m L => some (0x39000000 + place 15 d + place 8 a + place 5 m + place 0 L)
  | .vldB8 t x i L => some (0x40000000 + place 16 t + place 10 x + place 4 i + place 0 L)
  | .vldB16 t x i L => some (0x40400000 + place 16 t + place 10 x + place 4 i + place 0 L)
  | .vldW t x i L => some (0x40800000 + place 16 t + place 10 x + place 4 i + place 0 L)
  | .vldD t x i L => some (0x40C00000 + place 16 t + place 10 x + place 4 i + place 0 L)
  | .vldQ t x i L => some (0x41000000 + place 16 t + place 10 x + place 4 i + place 0 L)
  | .vstB8 t x i => some (0x41400000 + place 16 t + place 10 x + place 4 i)
  | .vstB16 t x i => some (0x41800000 + place 16 t + place 10 x + place 4 i)
  | .vstW t x i => some (0x41C00000 + place 16 t + place 10 x + place 4 i)
  | .vstD t x i => some (0x42000000 + place 16 t + place 10 x + place 4 i)
  | .vstQ t x i => some (0x42400000 + place 16 t + place 10 x + place 4 i)
  | .vldsW t x i L => some (0x42800000 + place 16 t + place 10 x + place 4 i + place 0 L)
  | .vstsW t x i => some (0x42C00000 + place 16 t + place 10 x + place 4 i)
  | .vldsQ t x i L => some (0x43000000 + place 16 t + place 10 x + place 4 i + place 0 L)
  | .vstsQ t x i => some (0x43400000 + place 16 t + place 10 x + place 4 i)
  | .vldmW t x i L => some (0x43800000 + place 16 t + place 10 x + place 4 i + place 0 L)
  | .vstmW t x i => some (0x43C00000 + place 16 t + place 10 x + place 4 i)
  | .vatom t x i L => some (0x44000000 + place 16 t + place 10 x + place 4 i + place 0 L)
  | .vpref => some (0x44400000)
  | .sldW d x L s o => some (0x48000000 + place 14 d + place 8 x + place 4 L + place 1 s + place 0 o)
  | .sldD d x L s o => some (0x48200000 + place 14 d + place 8 x + place 4 L + place 1 s + place 0 o)
  | .sldQ d x L s o => some (0x48400000 + place 14 d + place 8 x + place 4 L + place 1 s + place 0 o)
  | .sstW d x s o => some (0x48600000 + place 14 d + place 8 x + place 1 s + place 0 o)
  | .sstD d x s o => some (0x48800000 + place 14 d + place 8 x + place 1 s + place 0 o)
  | .sstQ d x s o => some (0x48A00000 + place 14 d + place 8 x + place 1 s + place 0 o)
  | .satomAdd d x L s o => some (0x48C00000 + place 14 d + place 8 x + place 4 L + place 1 s + place 0 o)
  | .satomMin d x L s o => some (0x48E00000 + place 14 d + place 8 x + place 4 L + place 1 s + place 0 o)
  | .satomMax d x L s o => some (0x49000000 + place 14 d + place 8 x + place 4 L + place 1 s + place 0 o)
  | .satomAnd d x L s o => some (0x49200000 + place 14 d + place 8 x + place 4 L + place 1 s + place 0 o)
  | .satomOr d x L s o => some (0x49400000 + place 14 d + place 8 x + place 4 L + place 1 s + place 0 o)
  | .satomXor d x L s o => some (0x49600000 + place 14 d + place 8 x + place 4 L + place 1 s + place 0 o)
  | .satomXchg d x L s o => some (0x49800000 + place 14 d + place 8 x + place 4 L + place 1 s + place 0 o)
  | .satomCas d x L s o => some (0x49A00000 + place 14 d + place 8 x + place 4 L + place 1 s + place 0 o)
  | .satomAdd64 d x L s o => some (0x49C00000 + place 14 d + place 8 x + place 4 L + place 1 s + place 0 o)
  | .satomCas64 d x L s o => some (0x49E00000 + place 14 d + place 8 x + place 4 L + place 1 s + place 0 o)
  | .acq d x L s => some (0x4A000000 + place 14 d + place 8 x + place 4 L + place 1 s)
  | .rel d x s => some (0x4A200000 + place 14 d + place 8 x + place 1 s)
  | .bind d x L => some (0x4A400000 + place 14 d + place 8 x + place 4 L)
  | .unbind d x L => some (0x4A600000 + place 14 d + place 8 x + place 4 L)
  | .sldsW d x L s o => some (0x4A800000 + place 14 d + place 8 x + place 4 L + place 1 s + place 0 o)
  | .sstsW d x s o => some (0x4AA00000 + place 14 d + place 8 x + place 1 s + place 0 o)
  | .ssigSub d x s => some (0x4AC00000 + place 14 d + place 8 x + place 1 s)
  | .fence => some (0x50000000)
  | .waitc a n => some (0x50200000 + place 14 a + place 0 n)
  | .barArr a s => some (0x50400000 + place 14 a + place 4 s)
  | .barWait a b s => some (0x50600000 + place 14 a + place 7 b + place 4 s)
  | .barArrn a b s => some (0x50800000 + place 14 a + place 7 b + place 4 s)
  | .arwait a b s p => some (0x50A00000 + place 14 a + place 7 b + place 4 s + place 0 p)
  | .arset a b s => some (0x50C00000 + place 14 a + place 7 b + place 4 s)
  | .sstep a => some (0x50E00040 + place 14 a)
  | .grpjoin a b => some (0x51000000 + place 14 a + place 7 b)
  | .grpleave a b => some (0x51200000 + place 14 a + place 7 b)
  | .cancel a n => some (0x51400000 + place 14 a + place 0 n)
  | .notify a s => some (0x51600000 + place 14 a + place 4 s)
  | .sleep a b => some (0x51800000 + place 14 a + place 7 b)
  | .bcopy a b c => some (0x58000000 + place 14 a + place 7 b + place 0 c)
  | .bcopy2d a b c => some (0x58200000 + place 14 a + place 7 b + place 0 c)
  | .blist a b c => some (0x58400000 + place 14 a + place 7 b + place 0 c)
  | .bkick a => some (0x58600000 + place 14 a)
  | .fput a b c => some (0x58800000 + place 14 a + place 7 b + place 0 c)
  | .fsput a b c => some (0x58A00000 + place 14 a + place 7 b + place 0 c)
  | .fget a b c => some (0x58C00000 + place 14 a + place 7 b + place 0 c)
  | .fatom a b c => some (0x58E00000 + place 14 a + place 7 b + place 0 c)
  | .fred a b c => some (0x59000000 + place 14 a + place 7 b + place 0 c)
  | .fresv a b c => some (0x59200000 + place 14 a + place 7 b + place 0 c)
  | .fbulk a => some (0x59400000 + place 14 a)
  | .lattn a b c => some (0x59600000 + place 14 a + place 7 b + place 0 c)
  | .balloc a b c => some (0x59800000 + place 14 a + place 7 b + place 0 c)
  | .bfree a b c => some (0x59A00000 + place 14 a + place 7 b + place 0 c)
  | .btent a b c => some (0x59C00000 + place 14 a + place 7 b + place 0 c)
  | .bdrop a c => some (0x59E00000 + place 14 a + place 0 c)
  | .bkeep a c => some (0x5A000000 + place 14 a + place 0 c)
  | .cohrec a b c => some (0x5A200000 + place 14 a + place 7 b + place 0 c)
  | .macq n b t => some (0x60000000 + place 18 n + place 4 b + place 0 t)
  | .mrel n => some (0x60200000 + place 18 n)
  | .mma n a b => some (0x60400000 + place 18 n + place 11 a + place 4 b)
  | .mmaz n a b => some (0x60600000 + place 18 n + place 11 a + place 4 b)
  | .mjob a w => some (0x60800000 + place 11 a + place 0 w)
  | .mdrain n a b c => some (0x60A00000 + place 18 n + place 11 a + place 4 b + place 0 c)
  | .mfill n a b d => some (0x60C00000 + place 18 n + place 11 a + place 4 b + place 0 d)
  | .mzero n a => some (0x60E00000 + place 18 n + place 11 a)
  | .mprog a b => some (0x61000000 + place 11 a + place 4 b)
  | .mtile a b f => some (0x61200000 + place 11 a + place 4 b + place 0 f)
  | .pfx => some (0x68000000)
  | .lookaheadResultCommit _ => none
  | .stackServiceDone _ => none
  | .svcRingRoom _ => none
  | .enqParkRoom _ => none
  | .gangUnpark _ => none
  | .sleepTimeout _ => none
  | .meridianRelease _ _ => none
  | .engineUnitCommit _ => none
  | .engineOpRetire _ _ => none
  | .jobCardRead _ => none
  | .mjobStart _ => none
  | .twinPartnerBankAcquire _ => none
  | .lattnWickRequest _ => none
  | .lanternTriple _ _ => none
  | .wickGrant => none
  | .chandlerPeriod _ _ _ => none
  | .remapSwapComplete _ => none
  | .translationWalk _ _ _ _ => none
  | .pinLimitExpiry _ => none
  | .snuffHoldExpiry _ => none
  | .snuffTime _ => none
  | .deadlineKill _ => none
  | .slackRecompute _ => none
  | .prewaitExpiry _ => none
  | .gangRestore _ _ => none
  | .queueIntake _ => none
  | .launchAdmission _ _ => none
  | .gangPlacement _ _ => none
  | .launchCompletion _ => none
  | .signalMarker _ => none
  | .ticketLeaseExpiry _ _ => none
  | .reclaimExecute _ => none
  | .firmwareCheckComplete => none
  | .reset => none
  | .fwgo _ => none
  | .lampctl _ => none
  | .queueActivate _ => none
  | .queueTurnOff _ => none
  | .queueStop _ => none
  | .notifyRegister _ _ => none
  | .wake _ _ => none
  | .sdoor _ => none
  | .fdone _ => none
  | .fqtail _ => none
  | .suspend _ => none
  | .suspendClear _ => none
  | .ctxtrap _ _ => none
  | .ctxpin _ _ => none
  | .fabtmo _ => none
  | .dumpack _ => none
  | .rcgo _ _ => none
  | .tlbinv _ _ => none
  | .tlbInvalidationComplete _ => none
  | .rmapctl _ => none
  | .poolEnable _ => none
  | .dropall _ => none
  | .ephset _ => none
  | .chcfgClr _ _ _ => none
  | .errclr _ => none
  | .ypctlEnable _ => none
  | .ykeygo _ _ => none
  | .mgmtRegisterWrite _ _ _ => none
  | .ptpSync _ _ _ _ => none
  | .ptpFollowUp _ _ _ => none
  | .ptpDelayResp _ _ _ => none
  | .ptpManagement => none
  | .syncLossTimeout => none
  | .flitReceive _ _ => none
  | .dieLinkFlitReceive _ _ _ => none
  | .dieLinkReplayRequest _ _ _ => none
  | .put _ _ _ => none
  | .sput _ _ => none
  | .get _ _ => none
  | .getResponse _ _ => none
  | .atom _ _ => none
  | .atomResponse _ _ => none
  | .red _ _ => none
  | .redResult _ _ => none
  | .remoteErrorResponse _ _ => none
  | .cohRd _ _ => none
  | .cohRdx _ _ => none
  | .cohWb _ _ => none
  | .cohSnp _ _ => none
  | .cohData _ _ => none
  | .cohErr _ _ => none
  | .cohGone _ _ => none
  | .cohSnoopTimeout _ => none
  | .resvRequest _ _ => none
  | .resvGrant _ _ => none
  | .resvRefusal _ _ => none
  | .resvRetryTimer _ => none
  | .resvGrantExpiry _ => none
  | .ack _ _ => none
  | .nak _ _ => none
  | .dropnote _ _ => none
  | .bulkack _ _ => none
  | .bulkend _ _ => none
  | .restripe _ _ => none
  | .keyswitch _ => none
  | .keyreq _ => none
  | .credit _ _ _ => none
  | .replay _ _ => none
  | .keyWaitTimeout _ => none
  | .flowPortTimeout _ => none
  | .correctedError _ _ => none
  | .uncorrectableError _ _ => none
  | .selfTestComplete _ _ _ => none
  | .synchronousInstructionFinish _ => none
  | .portTrainingComplete _ _ => none
  | .ptpDelayReqTimer => none
  | .ptpAnnounce _ _ => none

/-- The word of an instruction with its chain bit; the chain bit of a prefix is 0 (R8, R24) (log 15, DESIGN CHOICE). -/
def encode (chain : Bool) (i : Instr) : Option Word :=
  (encodeBits i).map fun b => BitVec.ofNat 32 (b + if chain then 2 ^ 31 else 0)

/-! ### Packets (R9, R13, R23, R24) -/

/-- One instruction of a packet: the slot of its first word (the prefix when it has one), of its instruction word, and the
slot after it and its literal. -/
structure Insn where
  first : Nat
  main : Nat
  next : Nat
  pfx : Option Pfx
  instr : Instr
  word : Word
  literal : Option Word
  chain : Bool
  deriving DecidableEq, Repr

/-- An illegal encoding: its case (R33) and the slot of its failing word. -/
structure Illegal where
  case : Nat
  slot : Nat
  deriving DecidableEq, Repr

/-- The prefix in force (R24: an unprefixed word has a prefix of zeros). -/
def Insn.prefixOrNone (n : Insn) : Pfx := n.pfx.getD Pfx.none

/-- The lowest code, and among equal codes the first word in slot order (R33). -/
def lowestIllegal : List Illegal → Option Illegal
  | [] => none
  | a :: as =>
    match lowestIllegal as with
    | none => some a
    | some b => if b.case < a.case || (b.case == a.case && b.slot < a.slot) then some b else some a

/-- The word of a slot of a packet; slots beyond the packet read as the pad word. -/
def slotWord (ws : List Word) (k : Nat) : Word := ws.getD k padWord

/-- The prefix fields of a class 13 word (R15). -/
def pfxOf (w : Word) : Pfx := ⟨cut w 20 7, cut w 19 1, cut w 16 3, cut w 9 7, cut w 8 1, cut w 0 8⟩

/-- Whether a prefix in this slot has an eligible target in the next (R24). -/
def prefixEligible (ws : List Word) (slot : Nat) : Bool :=
  decide (slot < 2) && decide (4 ≤ classOf (slotWord ws (slot + 1))) && decide (classOf (slotWord ws (slot + 1)) ≤ 8)

/-- What an illegal field or word adds to the cases of an instruction. -/
def illegalAt (slot : Nat) : Option Nat → List Illegal
  | none => []
  | some c => [⟨c, slot⟩]

/-- The fields that an instruction leaves in its word. -/
def wordFields (p : Pfx) (w : Word) (i : Instr) : List Field :=
  match i with
  | .vpref => vprefFields p w
  | .fence => fenceFields w
  | _ => []

/-- The cases of a prefix word's own fields: a chain bit of 1 and a reserved rounding code (R24, R25, R33). -/
def prefixCases (ws : List Word) (slot : Nat) : List Illegal :=
  if chainBit (slotWord ws slot) || decide (6 ≤ (pfxOf (slotWord ws slot)).rm.toNat) then [⟨3, slot⟩] else []

/-- An instruction whose word stands in slot `main`, with the illegal encodings among cases 3, 6 and 8 that it shows, or the
illegal encoding of a word that is no instruction (cases 1 to 3 of R33): what its prefix is to it is then not asked (log 48, DESIGN
CHOICE). -/
def readMain (ws : List Word) (first main : Nat) (p : Option Pfx) (bad : List Illegal) :
    Except Illegal (Insn × List Illegal) :=
  match decodeWord (slotWord ws main) with
  | .reject r => .error ((lowestIllegal (⟨r.case, main⟩ :: bad)).getD ⟨r.case, main⟩)
  | .instr i =>
    let q := p.getD Pfx.none
    let lit := takesLiteral q i
    let own := fields q i ++ wordFields q (slotWord ws main) i
    .ok ({ first := first, main := main, next := main + 1 + (if lit then 1 else 0), pfx := p, instr := i,
           word := slotWord ws main,
           literal := if lit then some (slotWord ws (main + 1)) else none,
           chain := chainBit (slotWord ws main) },
         bad ++ illegalAt main (lowestCase own) ++ illegalAt first (lowestCase (pfxFields q i)) ++
           (if lit && decide (2 < main + 1) then [⟨6, first⟩] else []))

/-- The instruction that starts in a slot (R23, R24) with the illegal encodings it shows, or the illegal encoding it is. -/
def readInsn (ws : List Word) (slot : Nat) : Except Illegal (Insn × List Illegal) :=
  if classOf (slotWord ws slot) = 13 then
    if prefixEligible ws slot then
      readMain ws slot (slot + 1) (some (pfxOf (slotWord ws slot))) (prefixCases ws slot)
    else .error ((lowestIllegal (⟨5, slot⟩ :: prefixCases ws slot)).getD ⟨5, slot⟩)
  else readMain ws slot slot none []

/-- The instruction that starts in a slot (R23, R24), or the illegal encoding it is. -/
def parseInsn (ws : List Word) (slot : Nat) : Except Illegal Insn :=
  match readInsn ws slot with
  | .error e => .error e
  | .ok (n, bad) =>
    match lowestIllegal bad with
    | some e => .error e
    | none => .ok n

/-- The pipe of a class: S 0, B 1, V 2, X 3, M 4, E 5 (R12). -/
def pipeOf (cls : Nat) : Nat :=
  if cls ≤ 1 then 0 else if cls ≤ 3 then 1 else if cls ≤ 5 then 2 else if cls ≤ 7 then 3 else if cls ≤ 10 then 4 else 5

/-- Instances of a pipe in a core (R12). -/
def pipeCount (p : Nat) : Nat := if p = 2 then 2 else 1

/-- The chain that the instruction in `slot` opens (R13), checked whole (R31, R33). `dyn` gives the cases that depend on the
machine's state; `used` are the pipes taken so far. A chain holds at most three instructions, so `fuel` is 3. -/
def parseChain (dyn : Insn → Option Nat) (ws : List Word) : Nat → Nat → List Nat → Except Illegal (List Insn)
  | 0, _, _ => .ok []
  | fuel + 1, slot, used =>
    match readInsn ws slot with
    | .error e => .error e
    | .ok (n, bad) =>
      let pipe := pipeOf (classOf (slotWord ws n.main))
      let isOver := decide (pipeCount pipe ≤ used.count pipe)
      let noNext := n.chain && (decide (3 ≤ n.next) || slotWord ws n.next == padWord)
      let all := bad ++ (if noNext then [⟨4, n.main⟩] else []) ++ (if isOver then [⟨7, n.first⟩] else []) ++
        illegalAt n.main (dyn n)
      match lowestIllegal all with
      | some e => .error e
      | none =>
        if n.chain then
          match parseChain dyn ws fuel n.next (pipe :: used) with
          | .error e => .error e
          | .ok ns => .ok (n :: ns)
        else .ok [n]

/-- Words an instruction takes from its first word on, prefix and literal included (R246); a word that is no instruction
counts as one. -/
def insnWords (ws : List Word) (slot : Nat) : Nat :=
  match readInsn ws slot with
  | .ok (n, _) => n.next - slot
  | .error _ => if classOf (slotWord ws slot) = 13 && prefixEligible ws slot then 2 else 1

/-- What a slot of a packet holds, as R246 finds it by decoding from slot 0. -/
inductive SlotKind where
  | first
  | pad
  | inner
  deriving DecidableEq, Repr

/-- The kind of slot `target`, decoding from `slot` on. -/
def slotKindFrom (ws : List Word) (target : Nat) : Nat → Nat → SlotKind
  | 0, _ => .inner
  | fuel + 1, slot =>
    if slot = target then (if slotWord ws slot == padWord then .pad else .first)
    else if target < slot then .inner
    else if slotWord ws slot == padWord then slotKindFrom ws target fuel (slot + 1)
    else slotKindFrom ws target fuel (slot + insnWords ws slot)

/-- The kind of a slot of a packet (R246). -/
def slotKind (ws : List Word) (target : Nat) : SlotKind := slotKindFrom ws target 4 0

/-- Where a resume point in `slot` leads past pad words: a later slot of the packet, or 3 for slot 0 of the next packet
(R10). -/
def skipPads (ws : List Word) (slot : Nat) : Nat :=
  if 3 ≤ slot then 3
  else if slotWord ws slot != padWord then slot
  else if slot < 2 && slotWord ws (slot + 1) != padWord then slot + 1
  else if slot < 1 && slotWord ws (slot + 2) != padWord then slot + 2
  else 3

/-! ### Bytes -/

/-- The word that four bytes hold (R4). -/
def wordOfBytes (bs : List Byte) : Word := BitVec.ofNat 32 (natLE (bs.take 4))

/-- The words of a packet's bytes, each little-endian, the first at the lowest address (R4, R9). -/
def wordsOfBytes : Nat → List Byte → List Word
  | 0, _ => []
  | n + 1, bs => wordOfBytes bs :: wordsOfBytes n (bs.drop 4)

/-- The instruction that a list of bytes begins with, and the bytes after it. -/
def decodeBytes (bs : List Byte) : Option (Instr × List Byte) :=
  if bs.length < 4 then none
  else
    match decodeWord (wordOfBytes bs) with
    | .instr i => some (i, bs.drop 4)
    | .reject _ => none

/-- The instruction the decoder reads from bits numbered as spec/opcode_table.json numbers them (log 14, DESIGN CHOICE). -/
def decodeTableWord (nbits w : Nat) : Option Instr :=
  (decodeBytes (bytesLE 4 (w % 2 ^ nbits))).map Prod.fst

end Sys2Proof
end

