-- ==== Sys2Proof/Config.lean ====
section
/-!
DEFINITION. Sys2Proof/Config.lean: what one implementation fixes and the manual does not give, each a constant WITHOUT a body,
so that every claim holds whatever its value is. notes/assumptions says of each why it is open.
-/

namespace Sys2Proof.Config

/-- A byte that some choice of the source range supplies inside an overlapping copy (R160): the n-th such choice is a
position in the source range. The state's counter picks n (log 5, DESIGN CHOICE). -/
opaque overlapPick : Nat → Nat

/-- Whether the SLH-DSA-SHAKE-256s signature over header and body verifies under the fused vendor key (R189; FIPS 205 and
the key stand outside the manual, log 6, DESIGN CHOICE). -/
opaque signatureOk : List Byte → List Byte → Bool

/-- 64 bytes of SHAKE256 over a message (R189; FIPS 202 stands outside the manual, log 6, DESIGN CHOICE). -/
opaque shake256 : List Byte → List Byte

/-- The digest of the fused vendor key that MEAS8 to MEAS15 receive (R189, log 6, DESIGN CHOICE). -/
opaque keyDigest : Nat → BitVec 64

/-- AES-256-GCM of one flit (R326, log 6, DESIGN CHOICE): key, 96-bit IV and the 64 payload bytes give the 72 bytes of the flit. -/
opaque gcmSeal : Nat → Nat → List Byte → List Byte

/-- AES-256-GCM of one received flit (R326, log 6, DESIGN CHOICE): key, IV and 72 bytes give the payload, or nothing when the tag fails. -/
opaque gcmOpen : Nat → Nat → List Byte → Option (List Byte)

/-- The address of the firmware's restart entry (R191): it lies in the image, whose program the manual does not give (log 7, DESIGN CHOICE). -/
opaque restartEntry : BitVec 64

/-- The number of packets of the firmware's code object (R188), which lies in the image (log 7, DESIGN CHOICE). -/
opaque firmwarePackets : Nat

/-- The size in 64 MiB units that the boot ROM gives the carve-out (R190): it covers the image and the Lamplighters' journals, whose
size the manual does not give (log 7, DESIGN CHOICE). -/
opaque carveSize : Nat

/-- The unit that ERRLAST gives for a module of a die link (R370): the manual gives numbers to the lanes of ports only (log 10, DESIGN CHOICE). By the
two dies and the module. -/
opaque moduleUnit : Nat → Nat → Nat → Nat

/-- The rate correction the firmware's servo writes to EPHADJ for a measured offset in ns (R350, R351): the servo is
firmware, which the manual does not give (log 7, DESIGN CHOICE). -/
opaque servo : Int → BitVec 32

/-- The byte budget, in 64-byte units, that a stack's share of the cap in W gives it for a period (R365, R371): the manual gives the
share and not the bytes it buys (log 7, DESIGN CHOICE). -/
opaque byteBudget : Nat → Nat

/-- Bytes that the image of a pre-empted gang takes in its context's pool (R253, R256): the manual lists what is saved and not how
it is laid out. All that a gang holds stays below 4 GiB. By stack depth, window bytes and owned banks (log 7, DESIGN CHOICE). -/
opaque imageBytes : Nat → Nat → Nat → BitVec 32

/-- Which of the free 4 KiB pieces of a context's pool a spill area takes (R205, R264): the firmware picks it, and the manual does not say
how (log 7, DESIGN CHOICE). By the counter of free values. -/
opaque poolPiece : Nat → Nat

/-- Traffic class and ordering domain of packets whose operation names neither (R313, R321, R324): reductions and window lines; the
manual gives them no route word (log 8, DESIGN CHOICE). -/
opaque innerClass : Nat
opaque innerDomain : Nat

/-- The fabric ID of the switch that this package's RED packets meet, and the package and context of a rank of a reduction group where
no packet has told it (R321): the manual gives neither (log 45, DESIGN CHOICE). By the context, the group and the rank. -/
opaque switchId : Nat
opaque groupMember : Nat → Nat → Nat → Nat × Nat

/-- The place, among the working lanes of a port, of the lane that a failed tag puts to the test (R265, R326): the tag covers all lanes
(log 46, DESIGN CHOICE). By the port and the flit's counter value. -/
opaque failedLane : Nat → Nat → Nat

end Sys2Proof.Config
end

