-- ==== Sys2Proof/Machine/Table.lean ====
section
/-!
DEFINITION. Sys2Proof/Machine/Table.lean: total maps from numbers, held as lists of (key, value) pairs with rising keys: an unlisted
key reads as a value the reader names. Memory, registers and every table of records of the state are such lists.
-/

namespace Sys2Proof.Machine

/-- A map from numbers as plain data. -/
abbrev Table (β : Type) := List (Nat × β)

/-- The value at a key; `d` where the key is not listed. -/
def Table.get {β : Type} (d : β) (k : Nat) : Table β → β
  | [] => d
  | (a, b) :: t => if a = k then b else Table.get d k t

/-- The value at a key, if it is listed. -/
def Table.find {β : Type} (k : Nat) : Table β → Option β
  | [] => none
  | (a, b) :: t => if a = k then some b else Table.find k t

/-- List a value at a key. -/
def Table.put {β : Type} (k : Nat) (v : β) : Table β → Table β
  | [] => [(k, v)]
  | (a, b) :: t => if k < a then (k, v) :: (a, b) :: t else if a = k then (k, v) :: t else (a, b) :: Table.put k v t

/-- Take a key off the list. -/
def Table.erase {β : Type} (k : Nat) : Table β → Table β
  | [] => []
  | (a, b) :: t => if a = k then Table.erase k t else (a, b) :: Table.erase k t

/-- Make a key read as `v` where unlisted keys read as `d`: `d` itself is never listed. -/
def Table.set {β : Type} [DecidableEq β] (d : β) (k : Nat) (v : β) (t : Table β) : Table β :=
  if v = d then Table.erase k t else Table.put k v t

/-- Change the value at a key. -/
def Table.modify {β : Type} (d : β) (k : Nat) (f : β → β) (t : Table β) : Table β :=
  Table.put k (f (Table.get d k t)) t

/-- Every key of a table is above `k`. -/
def Table.above {β : Type} (k : Nat) : Table β → Bool
  | [] => true
  | (a, _) :: t => decide (k < a) && Table.above k t

/-- Keys strictly rise and no listed value is `d`: the one form of each map. -/
def Table.canonical {β : Type} [DecidableEq β] (d : β) : Table β → Bool
  | [] => true
  | (a, b) :: t => Table.above a t && decide (b ≠ d) && Table.canonical d t

/-- Store a list of values at rising keys. -/
def Table.setList {β : Type} [DecidableEq β] (d : β) (k : Nat) : List β → Table β → Table β
  | [], t => t
  | v :: vs, t => Table.setList d (k + 1) vs (Table.set d k v t)

/-- The values at `n` rising keys. -/
def Table.getList {β : Type} (d : β) (k : Nat) : Nat → Table β → List β
  | 0, _ => []
  | n + 1, t => Table.get d k t :: Table.getList d (k + 1) n t

/-- The numbers 0 to n - 1 that a mask of lanes holds, ascending. -/
def lanesOf (m : LaneMask) : List Nat := (List.range 32).filter fun l => m.getLsbD l

/-- The mask of one lane. -/
def laneBit (l : Nat) : LaneMask := BitVec.ofNat 32 (2 ^ l)

/-- The mask of the lanes of a list. -/
def maskOf (ls : List Nat) : LaneMask := ls.foldl (fun m l => m ||| laneBit l) 0

/-- The number of one bits. -/
def popCount {n : Nat} (x : BitVec n) : Nat := (List.range n).countP fun i => x.getLsbD i

end Sys2Proof.Machine
end

