-- ==== Sys2Proof/Machine/State.lean ====
section
/-!
DEFINITION. Sys2Proof/Machine/State.lean: everything the manual gives one H9 package, as plain data (R200, R34, R61, R123, R175,
R184, R196, R264, R285, R328, R346, R352, R371 and the rules named at each field), and the package right after reset.
Program counters and return points are byte offsets from the code base of the gang's launch (R10, R245).
-/

namespace Sys2Proof.Machine

/-! ### One thread -/

/-- An entry of a link stack: return point, shift ÷ 8, and whether it is a trap frame (R53, R205, R244). -/
structure Link where
  off : Nat
  shift : Nat
  trap : Bool
  deriving DecidableEq, Repr

/-- What a live lane waits for (R207). JWAIT, rendezvous and class 6 participation are internal waits; the rest are
external. A lane whose wait is `retest` stands at a chain that has not issued and is tested again before every issue of its
gang; the others hold the offset at which they resume. -/
inductive Wait where
  | ready
  /-- JWAIT on a set (R62); resumes after the chain -/
  | jwait (set resume : Nat)
  /-- a gang rendezvous (R52) -/
  | rendezvous
  /-- class 6 participation on a set (R96) -/
  | cross (set : Nat)
  /-- WAITC, BAR.WAIT, ARWAIT, admission of a remote target (R110, R126): the chain has not issued -/
  | retest
  /-- a place in the owner queue of a bank (R144) -/
  | macq (bank : Nat)
  /-- an owner's drain in the order of its bank, behind the operations older than `before` and the gang's waiting drains of a lower turn
  (R148, R333) -/
  | drainOrder (bank before turn : Nat)
  /-- arrived at the superstep barrier of a group (R130) -/
  | sstep (group resume : Nat)
  /-- SLEEP until a time; the reason goes to a register (R130) -/
  | sleep (til reg resume : Nat)
  /-- a synchronous engine instruction in progress (R136) -/
  | engine (resume : Nat)
  deriving DecidableEq, Repr

/-- An open lookahead window of one lane (R26): when it was opened, by the word at which offset, under which window base, how many
instructions it still counts, the vector registers and predicates it will write, and whether a class 7 word opened it, with its
flags (R229). -/
structure Window where
  seq : Nat
  off : Nat
  base : Nat
  left : Nat
  seven : Bool
  vregs : List (Nat × Word)
  preds : List (Nat × Bool)
  flags : BitVec 5
  deriving DecidableEq, Repr

/-- One lane of a gang (R200). -/
structure Lane where
  live : Bool
  pc : Nat
  depth : Nat
  /-- window base (R204) and resident base (R205) -/
  wbase : Nat
  rbase : Nat
  /-- link stack, newest first, and how many of its entries are resident (R205) -/
  links : List Link
  resident : Nat
  /-- bytes of the spill area in use (R205) -/
  spilled : Nat
  /-- yield counter (R209) -/
  cnt : Nat
  /-- the gang's chain count when the lane last issued, and when it last issued YIELD (R60) -/
  lastIssue : Nat
  yieldAt : Nat
  /-- `v0`-`v7` (R204) -/
  globals : Table Word
  /-- logical registers behind `v8`-`v63` (R204) -/
  stack : Table Word
  /-- `p0`-`p95`; `p0` reads 1 whatever bit 0 holds (R22) -/
  preds : BitVec 96
  wait : Wait
  /-- open windows, oldest first (R26, R28) -/
  wins : List Window
  /-- region entry packet, and whether a non-idempotent instruction has issued since (R74, R249) -/
  region : Option Nat
  spoiled : Bool
  /-- window base at the region entry, by which its record names `v` registers (R250) -/
  regionBase : Nat
  /-- what SNUFFPC reports (R72) -/
  snuffPc : Word
  snuffDepth : Word
  deriving DecidableEq, Repr

/-- A lane that no gang has started. -/
def Lane.vacant : Lane :=
  { live := false, pc := 0, depth := 0, wbase := 0, rbase := 0, links := [], resident := 0, spilled := 0, cnt := 0,
    lastIssue := 0, yieldAt := 0, globals := [], stack := [], preds := 0, wait := .ready, wins := [], region := none,
    spoiled := false, regionBase := 0, snuffPc := 0xFFFFFFFF, snuffDepth := 0xFFFFFFFF }

/-! ### One gang -/

/-- A rejoin set (R61). -/
structure JSet where
  member : LaneMask
  waiting : LaneMask
  home : Nat
  snuffed : Bool
  freed : Bool
  deriving DecidableEq, Repr

/-- A rejoin set at gang start (R61). -/
def JSet.start : JSet := { member := 0, waiting := 0, home := 0, snuffed := false, freed := true }

/-- A tile handle: offset and descriptor; invalid until MTILE writes it (R145). -/
structure Tile where
  valid : Bool
  off : Word
  desc : Word
  deriving DecidableEq, Repr

/-- A group membership (R216, R217) with its Meridian step number (R130). -/
structure Membership where
  group : Nat
  live : Bool
  step : Nat
  deriving DecidableEq, Repr

/-- An open window of a class 9 word: results per gang, counted by every instruction of the gang (R26, R28). -/
structure SWindow where
  seq : Nat
  left : Nat
  sregs : List (Nat × Word)
  lanes : LaneMask
  deriving DecidableEq, Repr

/-- Where a gang is. -/
inductive Place where
  /-- created, not yet placed (R182) -/
  | unplaced
  /-- on a core (R203) -/
  | resident (core : Nat)
  /-- out of its issue slot, its window and banks still on the core (R248) -/
  | parked (core : Nat)
  /-- saved in the context's pool (R253) -/
  | saved
  /-- retired or killed (R58, R32) -/
  | gone
  deriving DecidableEq, Repr

/-- Why a gang is parked (R248). -/
inductive Park where
  /-- an SVC that waits for ring room: service number, lanes, offset of the SVC, and the words of its blocks as they stood at its
  issue (R67) -/
  | svcRoom (num : Nat) (lanes : LaneMask) (pc : Nat) (words : List Word)
  /-- an SVC whose record stands at a ring offset (R194) -/
  | svcReply (lanes : LaneMask) (at_ : Nat)
  /-- an ENQ.PARK that waits for room: status register, queue, the 64-byte image with its deadline (R76) -/
  | enq (reg queue : Nat) (image : List Byte)
  /-- missing translations: fault identifiers still to be served, and the lanes that issued (R131, R193) -/
  | page (faults : List Nat) (lanes : LaneMask)
  /-- the cause is served; the gang waits for room on its core (R248). `cause` is its STATE of R356. -/
  | served (cause : Nat)
  deriving DecidableEq, Repr

/-- A synchronous engine instruction that takes time (R136): a drain, whose rows are read as it finishes (R148, R336), or a pool
instruction or COHREC, whose effects stand and whose result goes to a register as it finishes (R164, R172). -/
inductive SyncKind where
  | mdrain (bank row0 count t : Nat) (clear : Bool)
  | result (reg : Nat) (value : Word)
  deriving DecidableEq, Repr

/-- A synchronous engine instruction in progress, with the lanes that wait at it; of a drain, the rows that the port has read (R336),
whether it stands in the order of its bank, as an owner's does (R333), and the cycle in which it became ready with its rank among those in
progress (R336). -/
structure SyncOp where
  kind : SyncKind
  lanes : LaneMask
  rows : Nat
  ordered : Bool
  ready : Nat
  rank : Nat
  deriving DecidableEq, Repr

/-- A failed operation that retired while its gang lives, until a WAITC raises it (R139, R263): engine class, cause, unit. -/
structure EngFail where
  cls : Nat
  cause : Nat
  unit : Nat
  deriving DecidableEq, Repr

/-- A snuff hold: its end time and whether a snuff waits for it, with the reason (R71). -/
structure Hold where
  til : Nat
  pending : Option Nat
  deriving DecidableEq, Repr

/-- One gang (R200). -/
structure Gang where
  launch : Nat
  /-- `%gang` -/
  num : Nat
  /-- the slot of a Lamplighter: privileged (R30) -/
  lamp : Bool
  place : Place
  /-- the core it is or was last on -/
  core : Nat
  role : Nat
  /-- stack depth D (R202) -/
  dstack : Nat
  lanes : Table Lane
  /-- `s0`-`s95` -/
  sregs : Table Word
  /-- `q0`-`q15`, byte k the scale of position k (R92) -/
  qregs : Table DWord
  sets : Table JSet
  tiles : Table Tile
  band : Nat
  expmix : Word
  fptrap : BitVec 5
  fpflag : BitVec 5
  swins : List SWindow
  members : List Membership
  wake : Bool
  hold : Option Hold
  wrap : Bool
  /-- a snuff with this reason that has not struck yet, and whether a hold delayed it: the image of an off-core gang is marked, or a service or a synchronous
  instruction finishes first (R141, R206, R256, R355) -/
  marked : Option (Nat × Bool)
  park : Option Park
  /-- a spill or fill service runs (R206) -/
  service : Bool
  /-- contents of owned banks and operand-buffer bytes under the tile handles while the gang is off-core (R253, R257) -/
  savedBanks : List (Nat × Table Word)
  /-- pending MRELs of those banks: bank, and the operations they wait for (R144, R253) -/
  savedReleases : List (Nat × Nat)
  savedOpbuf : List (Nat × List Byte)
  /-- the same of the partner banks of its twin jobs: operation, bank, words (R257, R340) -/
  savedPartners : List (Nat × Nat × Table Word)
  /-- 4 KiB pieces of the pool that its image takes while it is off-core (R253) -/
  image : Nat
  syncs : List SyncOp
  engfails : List EngFail
  /-- banks the owner queue has given to a waiting MACQ that has not issued yet (R144) -/
  granted : List Nat
  /-- pinned lines on which accesses of its next chain retry (R295, R304) -/
  retries : List Nat
  /-- chains issued, and windows opened -/
  chains : Nat
  windows : Nat
  /-- cycles in which it could have issued and did not, since its last issue (R364) -/
  waited : Nat
  /-- scratchpad window: bytes, size, its place in the core's scratchpad space, and whether it is freed (R109, R217, R276) -/
  scratch : Table Byte
  scratchSize : Nat
  scratchBase : Nat
  windowFreed : Bool
  /-- order of creation (R363) -/
  born : Nat
  deriving DecidableEq, Repr

/-- The value of an unlisted gang: no gang at all. -/
def Gang.absent : Gang :=
  { launch := 0, num := 0, lamp := false, place := .gone, core := 0, role := 3, dstack := 64, lanes := [], sregs := [],
    qregs := [], sets := [], tiles := [], band := 32, expmix := 0, fptrap := 0, fpflag := 0, swins := [], members := [],
    wake := false, hold := none, wrap := false, marked := none, park := none, service := false, savedBanks := [], savedReleases := [],
    savedOpbuf := [], savedPartners := [], image := 0, syncs := [], engfails := [], granted := [], retries := [],
    chains := 0, windows := 0, waited := 0, scratch := [], scratchSize := 0, scratchBase := 0, windowFreed := true, born := 0 }

/-- The key of gang `num` of a launch in the table of gangs. -/
def gangKey (launch num : Nat) : Nat := launch * 16777216 + num

/-- The key of the Lamplighter slot of a core (R203). -/
def lampKey (core : Nat) : Nat := 2 ^ 60 + core

/-! ### One launch -/

/-- A liveness record, by the packet of its region entry (R38). -/
structure Region where
  packet : Nat
  v : BitVec 64
  s : BitVec 96
  p : BitVec 96
  j : BitVec 16
  q : BitVec 16
  banks : Bool
  deriving DecidableEq, Repr

/-- What admission reads from a code object (R37, R38, R40; log 12, DEDUCED). -/
structure Code where
  base : DWord
  /-- packets -/
  n : Nat
  /-- packet indices of the kind-1 entries -/
  entries : List Nat
  regions : List Region
  scratch : Nat
  /-- default stack bytes of roles 0-3 -/
  stackBytes : List Nat
  roles : Nat
  /-- declared groups and whether each is co-resident -/
  groups : List (Nat × Bool)
  deriving DecidableEq, Repr

/-- The fields of a launch packet (R178). -/
structure PacketFields where
  rscope : Nat
  prio : Nat
  flags : BitVec 16
  seed : Nat
  code : DWord
  snuffe : Nat
  budget : Nat
  deadline : Nat
  estimate : Nat
  stackBytes : List Nat
  karg : DWord
  signal : DWord
  vrec : DWord
  deriving DecidableEq, Repr

/-- An entry of a cause chain (R260). -/
structure Cause where
  code : Nat
  source : Nat
  trigger : Bool
  issuerGone : Bool
  detail : Nat
  gang : Nat
  pc : Nat
  unit : Nat
  addr : DWord
  eph : Nat
  deriving DecidableEq, Repr

/-- How far a launch is. -/
inductive Phase where
  | running
  /-- a fatal fault ends it; its dump waits or is being written (R258) -/
  | stopping
  /-- the deadline kill ends it (R358) -/
  | killed
  | done
  deriving DecidableEq, Repr

/-- A declared group of a launch (R216): whether it is co-resident and fixed, and its current Meridian step (R130). -/
structure GroupState where
  index : Nat
  coresident : Bool
  fixed : Bool
  step : Nat
  deriving DecidableEq, Repr

/-- One launch, from admission to completion. -/
structure Launch where
  phase : Phase
  ctx : Nat
  die : Nat
  queue : Nat
  /-- its packet's index in the queue (R176) -/
  index : Nat
  /-- order of its intake (R361) -/
  intake : Nat
  parent : Option Nat
  pkt : PacketFields
  code : Code
  /-- spawn-tree counter (R184) -/
  spawn : Nat
  nextGang : Nat
  lerr : Word
  lerrPc : Word
  lerrWd : Word
  lerrGang : Word
  /-- validity word and partial flag (R73) -/
  valid : DWord
  isPartial : Bool
  /-- item array, count and next item (R187) -/
  itemAddr : DWord
  itemCount : Nat
  itemNext : Nat
  groups : List GroupState
  /-- the reason of the snuff word, once in wrap-up (R353, R356) -/
  wrap : Option Nat
  timed : Bool
  faulted : Bool
  refusal : Nat
  /-- slack as last computed; none is infinite (R360) -/
  slack : Option Int
  causes : List Cause
  causesDropped : Bool
  /-- EPH at the fatal fault that ends it, and the gang that took it (R258, R259) -/
  fatalAt : Nat
  fatalBy : Option Nat
  /-- completion steps already done (R184) -/
  steps : Nat
  born : Nat
  deriving DecidableEq, Repr

/-- A packet image with no field set. -/
def PacketFields.zero : PacketFields :=
  { rscope := 0, prio := 0, flags := 0, seed := 0, code := 0, snuffe := 0, budget := 0, deadline := 0, estimate := 0,
    stackBytes := [0, 0, 0, 0], karg := 0, signal := 0, vrec := 0 }

/-- A code object with no packet. -/
def Code.zero : Code :=
  { base := 0, n := 0, entries := [], regions := [], scratch := 0, stackBytes := [0, 0, 0, 0], roles := 0, groups := [] }

/-- The value of an unlisted launch. -/
def Launch.absent : Launch :=
  { phase := .done, ctx := 0, die := 0, queue := 0, index := 0, intake := 0, parent := none, pkt := PacketFields.zero,
    code := Code.zero, spawn := 0, nextGang := 0, lerr := 0, lerrPc := 0, lerrWd := 0, lerrGang := 0, valid := 0,
    isPartial := false, itemAddr := 0, itemCount := 0, itemNext := 0, groups := [], wrap := none, timed := false,
    faulted := false, refusal := 0, slack := none, causes := [], causesDropped := false, fatalAt := 0, fatalBy := none, steps := 4, born := 0 }

/-- An entry of a die's pending-launch store: a launch packet or a signal marker (R177, R178). -/
structure Pending where
  die : Nat
  queue : Nat
  ctx : Nat
  index : Nat
  bytes : List Byte
  parent : Option Nat
  /-- order of intake (R361) -/
  intake : Nat
  /-- slack as last computed; none is infinite (R360) -/
  slack : Option Int
  /-- an address that admission needs and whose fault was denied (R40, R187) -/
  denied : Option DWord
  deriving DecidableEq, Repr

/-- A packet that ENQ wrote into a ring and that has not been taken yet (R185). -/
structure Enqueued where
  index : Nat
  parent : Nat
  deriving DecidableEq, Repr

/-- STATE of a queue (R175). -/
inductive QState where
  | off
  | active
  | stopped
  | broken
  deriving DecidableEq, Repr

/-- One entry of the queue table with its WAKE register (R175, R195). -/
structure Queue where
  ring : DWord
  slots : Nat
  ctx : Nat
  home : Nat
  feed : Bool
  vec : Nat
  state : QState
  reason : Nat
  ridx : Nat
  widx : Nat
  wake : Word
  enqueued : List Enqueued
  deriving DecidableEq, Repr

/-- A queue at reset (R175; log 4, DESIGN CHOICE). -/
def Queue.reset : Queue :=
  { ring := 0, slots := 0, ctx := 0, home := 0, feed := false, vec := 0, state := .off, reason := 0, ridx := 0, widx := 0,
    wake := 0, enqueued := [] }

/-! ### One context -/

/-- A binding of entry consistency (R123). -/
structure Binding where
  base : DWord
  length : Nat
  object : DWord
  deriving DecidableEq, Repr

/-- A record of the service ring: its offset and size; pad records are free at once (R194). -/
structure SvcRecord where
  at_ : Nat
  size : Nat
  gang : Option Nat
  deriving DecidableEq, Repr

/-- A fabric-coherent window of a context (R328). -/
structure CohWindow where
  base : DWord
  size : Word
  home : Word
  deriving DecidableEq, Repr

/-- A tentative or permanent block of the KV pool (R347): its index, and its tag while tentative. -/
structure Block where
  index : Nat
  tag : Option Nat
  deriving DecidableEq, Repr

/-- The KV block pool of a context (R346, R347). -/
structure Pool where
  base : DWord
  count : Nat
  bsz : Nat
  enabled : Bool
  /-- the free list, head first: runs of rising indices (first, length) -/
  free : List (Nat × Nat)
  /-- blocks that are not free, in grant order -/
  held : List Block
  deriving DecidableEq, Repr

/-- Pool registers at reset (log 4, DESIGN CHOICE). -/
def Pool.reset : Pool := { base := 0, count := 0, bsz := 0, enabled := false, free := [], held := [] }

/-- One context. -/
structure Ctx where
  srbase : DWord
  srsize : Nat
  shead : Nat
  sfree : Nat
  /-- next REQ (R194) -/
  req : Nat
  records : List SvcRecord
  sdoor : Word
  dumpbase : DWord
  dumpsize : Word
  suspend : Bool
  suspended : Bool
  noroom : Bool
  splbase : DWord
  splsize : Word
  /-- bytes of the pool's 4 KiB pieces in use (R205, R264), and those that a held dump keeps (R258) -/
  splused : Nat
  dumpSpill : Nat
  /-- the pieces of the spill areas: 32 × gang key + lane, and the piece, in the order of an area's bytes (R205, R264) -/
  areas : List (Nat × Nat)
  ctxtrap : Word
  trapent : Word
  dumphead : Word
  /-- launches whose dump waits for DUMPACK (R259) -/
  dumpWait : List Nat
  pinlim : Word
  ctxpin : Word
  rcline : DWord
  rcdata : DWord
  rcbusy : Bool
  rcstatus : BitVec 8
  ptroot : DWord
  tlbinv : DWord
  tlbbusy : Bool
  peertab : DWord
  peercnt : Word
  rgtab : DWord
  rgcnt : Word
  windows : Table CohWindow
  pool : Pool
  bindings : List Binding
  /-- FREDs issued per reduction group (R321) -/
  reductions : Table Nat
  deriving DecidableEq, Repr

/-- A write of the device into a context that a pin, or a line under way, holds up (R295): the core whose Lamplighter makes it, the address,
the bytes, and whether they are added to the bits that stand there. -/
structure CtxWrite where
  ctx : Nat
  core : Nat
  va : DWord
  bytes : List Byte
  orIn : Bool
  deriving DecidableEq, Repr

/-- A context at reset (R243, R296; log 4, DESIGN CHOICE). -/
def Ctx.reset : Ctx :=
  { srbase := 0, srsize := 0, shead := 0, sfree := 0, req := 0, records := [], sdoor := 0, dumpbase := 0, dumpsize := 0,
    suspend := false, suspended := false, noroom := false, splbase := 0, splsize := 0, splused := 0, dumpSpill := 0, areas := [], ctxtrap := 0xFFFFFFFF,
    trapent := 0xFFFFFFFF, dumphead := 0, dumpWait := [], pinlim := 50000, ctxpin := 50000, rcline := 0, rcdata := 0,
    rcbusy := false, rcstatus := 0, ptroot := 0, tlbinv := 0, tlbbusy := false, peertab := 0, peercnt := 0, rgtab := 0,
    rgcnt := 0, windows := [], pool := Pool.reset, bindings := [], reductions := [] }

/-! ### Cores, domes, dies -/

/-- The state of a Lamplighter slot (R69, R188, R191, R268). -/
inductive Slot where
  | stopped
  | running
  | halted
  | fenced
  deriving DecidableEq, Repr

/-- One core. -/
structure Core where
  /-- BROLE counts (R274) -/
  cache : Nat
  scr : Nat
  opb : Nat
  /-- banks retired by self-test (R265) -/
  retired : List Nat
  /-- banks under test (R265) -/
  testing : List Nat
  slot : Slot
  /-- operand buffer (R276) -/
  opbuf : Table Byte
  deriving DecidableEq, Repr

/-- A core at reset: BROLE 0x00040C10 (R274) (log 3, DESIGN CHOICE) (log 4, DESIGN CHOICE). -/
def Core.reset : Core :=
  { cache := 16, scr := 12, opb := 4, retired := [], testing := [], slot := .stopped, opbuf := [] }

/-- An accumulator bank (R144, R331): owner, owner queue (first in first), words by 32 × row + column, poisoned rows. -/
structure Bank where
  owner : Option Nat
  /-- held for a twin job of this operation (R153) -/
  heldFor : Option Nat
  queue : List Nat
  /-- an MREL that takes effect once the owner's operations on the bank older than this one have retired (R144) -/
  release : Option Nat
  /-- the launch whose gang or twin job gave the bank up as it left the machine: its gangs can still drain the bank until another gang takes
  it (R144, R153, R329; log 44, DEDUCED) -/
  left : Option Nat
  words : Table Word
  poisoned : List Nat
  deriving DecidableEq, Repr

/-- A bank at reset: +0 in every word, no owner (R331). -/
def Bank.reset : Bank := { owner := none, heldFor := none, queue := [], release := none, left := none, words := [],
                           poisoned := [] }

/-- One dome: L1 fusion (R277), banks, array rows retired (R265). -/
structure Dome where
  fused : Bool
  banks : Table Bank
  rowsRetired : List Nat
  deriving DecidableEq, Repr

/-- A dome at reset (log 4, DESIGN CHOICE). -/
def Dome.reset : Dome := { fused := false, banks := [], rowsRetired := [] }

/-- A Chronograph (R368, R369). -/
structure Chrono where
  en : Bool
  freeze : Bool
  qual : Nat
  src : Nat
  count : Nat
  least : Nat
  greatest : Nat
  latest : Nat
  bsel : Nat
  bins : Table Nat
  dropped : Nat
  deriving DecidableEq, Repr

/-- An empty Chronograph (R369; log 4, DESIGN CHOICE). -/
def Chrono.reset : Chrono :=
  { en := false, freeze := false, qual := 0, src := 0, count := 0, least := 0xFFFFFFFF, greatest := 0, latest := 0,
    bsel := 0, bins := [], dropped := 0 }

/-- The counters of ERRCNTs (R370). -/
structure ErrCount where
  corrected : Nat
  uncorrected : Nat
  transient : Nat
  lasting : Nat
  deriving DecidableEq, Repr

/-- Error counters at zero. -/
def ErrCount.zero : ErrCount := { corrected := 0, uncorrected := 0, transient := 0, lasting := 0 }

/-- A job that a Lamplighter may perform (R181). -/
inductive Job where
  | intake (queue : Nat)
  /-- of the packet with an intake number -/
  | admission (intake : Nat)
  /-- a batch of gangs: its first and its number (R181) -/
  | placement (gang count : Nat)
  | completion (launch : Nat)
  /-- a signal marker; it has no ticket of its own, and a fault names it (R178) -/
  | marker (queue : Nat)
  | service (gang : Nat)
  | reclaim (ctx : Nat)
  deriving DecidableEq, Repr

/-- A posted ticket; its agent and lease end once claimed, and whether a peer took it over when a lease lapsed (R181). -/
structure Ticket where
  num : Nat
  job : Job
  agent : Option Nat
  til : Nat
  taken : Bool
  deriving DecidableEq, Repr

/-- One die. -/
structure Die where
  nextTicket : Nat
  tickets : List Ticket
  chronos : Table Chrono
  errs : Table ErrCount
  errLast : DWord
  /-- stopped by a carve-out error (R267) -/
  fenced : Bool
  /-- structures under self-test, and regions moved to the reserve (R265) -/
  testing : List TestUnit
  regionsMoved : List Nat
  /-- the gang at the head of the placement list and since when (R362) -/
  headSince : Option (Nat × Nat)
  /-- when the slack of its launches was last computed by the timer (R360) -/
  slackAt : Nat
  /-- arithmetic clock lowered by the Chandler (R366) -/
  slowed : Bool
  deriving DecidableEq, Repr

/-- A die at reset (log 4, DESIGN CHOICE). -/
def Die.reset : Die :=
  { nextTicket := 0, tickets := [], chronos := [], errs := [], errLast := 0, fenced := false, testing := [],
    regionsMoved := [], headSince := none, slackAt := 0, slowed := false }

/-! ### Engine operations -/

/-- A copy endpoint: space code and value (R156). -/
structure Endpoint where
  space : Nat
  addr : DWord
  deriving DecidableEq, Repr

/-- A gather request as BKICK captures it (R159). -/
structure Gather where
  dst : Endpoint
  src : DWord
  idx : Endpoint
  rowBytes : Nat
  rows : Nat
  dstStride : Int
  srcStride : Nat
  arrive : Bool
  arr : DWord
  deriving DecidableEq, Repr

/-- A fabric route word (R167). -/
structure Route where
  arr : Bool
  scratch : Bool
  dom : Nat
  tc : Nat
  peer : Nat
  deriving DecidableEq, Repr

/-- A job card as the engine reads it (R150). -/
structure Card where
  levels : Nat
  atype : Nat
  btype : Nat
  zfirst : Bool
  banks : List Nat
  m : Nat
  kc : Nat
  stage : Nat
  abase : DWord
  bbase : DWord
  arow : Nat
  brow : Nat
  counts : List Nat
  astrides : List Int
  bstrides : List Int
  full : DWord
  empty : DWord
  asbase : DWord
  bsbase : DWord
  deriving DecidableEq, Repr

/-- An asynchronous operation with its captured operands (R138, R143, R155). -/
inductive OpKind where
  | bcopy (dst src : Endpoint) (length : Nat)
  | bcopy2d (dst src : Endpoint) (row rows : Nat) (dstStride srcStride : Int)
  | blist (list : DWord) (count : Nat) (arr : Option DWord)
  | bkick (g : Gather)
  /-- a BKICK whose request stands in a window that is not there yet (R142) -/
  | bkickAt (request : DWord)
  | fput (remote src : DWord) (length : Nat) (route : Route) (signal : Option DWord)
  | fget (dst remote : DWord) (length : Nat) (route : Route) (arr : DWord)
  | fatom (remote : DWord) (code : Nat) (a b : DWord) (route : Route) (result : DWord)
  | fred (dst src : DWord) (length group code : Nat) (signal : DWord) (number : Nat)
  | fresv (route : Route) (bytes : Nat) (result : DWord)
  | fbulk (src remote : DWord) (length : Nat) (route : Route) (signal : DWord)
  | lattn (list : DWord) (count : Nat) (arr : DWord)
  | mma (zero : Bool) (bank : Nat) (a b : Tile) (row0 : Nat)
  | mjob (card : DWord) (twin : Bool)
  | mfill (bank row0 : Nat) (add : Bool) (rows : List (List Word))
  | mzero (bank row0 count : Nat)
  deriving DecidableEq, Repr

/-- An entry of a LATTN list as the engine has read it, with its block addresses (R161, R342). -/
structure Entry where
  query : DWord
  blocks : List DWord
  len : Nat
  scale : Word
  toff : Nat
  kvt : Nat
  /-- the address of its block array -/
  array : DWord
  deriving DecidableEq, Repr

/-- A triple that a Lantern has computed: its unit, when its request was sent, its 528 bytes, and whether an uncorrectable error set
its ERR (R162, R163, R266, R344). -/
structure Triple where
  unit : Nat
  since : Nat
  bytes : List Byte
  touched : Bool
  /-- its stack has no working Lantern (R345) -/
  unserved : Bool
  deriving DecidableEq, Repr

/-- A request to a Lantern (R342, R344): operation and unit, the Lantern fixed as it was sent (32 × stack + number; none for a triple that
reads no block), the query, the block's physical address, when it was sent. -/
structure LanternRequest where
  op : Nat
  unit : Nat
  lantern : Option Nat
  query : List Byte
  pa : Nat
  since : Nat
  deriving DecidableEq, Repr

/-- Where an operation stands with its wick (R136, R366). -/
inductive WickState where
  | notNeeded
  | notAsked
  | waiting
  | granted
  deriving DecidableEq, Repr

/-- Where a fabric operation stands with its reservation request (R171, R318): none is open, one is open, or the peer refused it at
some time. -/
inductive ResvState where
  | idle
  | asked (bytes : Nat)
  | refused (at_ : Nat)
  deriving DecidableEq, Repr

/-- How an operation stands. -/
inductive OpStatus where
  | active
  /-- every unit is committed -/
  | finished
  | cancelled
  /-- failed with a cause of R139 at a unit -/
  | failed (cause unit : Nat)
  deriving DecidableEq, Repr

/-- A step of a job whose loads have completed (R337): its A and B rows stand in STAGE, its scale bytes in the load pipes. -/
structure JobLoad where
  step : Nat
  ascales : List (List Byte)
  bscales : List (List Byte)
  deriving DecidableEq, Repr

/-- A step of a job that has begun its bank writes: the passes written, the row groups of the present pass written, and the B rows that pass
has read (R331, R332, R334). -/
structure StepRun where
  step : Nat
  pass : Nat
  group : Nat
  brows : List (List Byte × List Byte)
  deriving DecidableEq, Repr

/-- An outstanding asynchronous operation (R136, R138). -/
structure Op where
  id : Nat
  gang : Nat
  launch : Nat
  cls : Nat
  kind : OpKind
  core : Nat
  /-- committed and speculative positions (R138) -/
  pc : Nat
  ps : Nat
  wick : WickState
  status : OpStatus
  /-- cancelled by CANCEL; it stops at the point of R140 -/
  cancelling : Bool
  /-- a fault of a unit that the companion has not served (R138) -/
  fault : Option Nat
  /-- a FAB operation's units sent, and those acknowledged or answered (R315, R318) -/
  sent : Nat
  acked : List Nat
  owed : List Nat
  /-- the signal or end packet is sent (R318) -/
  ended : Bool
  /-- the bytes a granted reservation still carries, and its end; how its request stands (R318) -/
  grant : Option (Nat × Nat)
  resv : ResvState
  /-- a job: its card once read, whether it has started, partner banks taken (R150-R153, R340) -/
  card : Option Card
  started : Bool
  /-- scratch references that the operation has met so far beside those of its kind and card: of BKICK's request, of list entries read
  (R217) -/
  named : List DWord
  partners : List Nat
  /-- steps loaded ahead (R337); within the unit at P_c, the passes written, the row groups of the present pass written, and the B rows that
  pass has read (R331, R332, R334) -/
  loads : List JobLoad
  pass : Nat
  group : Nat
  brows : List (List Byte × List Byte)
  /-- a twin job: the steps beyond P_c that the other array has begun (R337) -/
  ahead : List StepRun
  /-- a LATTN: whether its entries and block addresses have been read (R366), and they; triples computed but not committed (R344) -/
  prepared : Bool
  entries : List Entry
  triples : List Triple
  /-- a LATTN: the first unit whose triple no working Lantern could compute (R345) -/
  erred : Option Nat
  /-- a FAB operation: answers that came while it was stopped, with their ports (R253, R256) -/
  answers : List (Nat × Packet)
  /-- a copy whose source and destination overlap: its source bytes as they stood when it began (R160) -/
  olds : List Byte
  /-- stacks or domes whose power its wick reserves (R366) -/
  reserves : List (Nat × Nat)
  /-- the supersteps it was issued in: group and step (R130) -/
  steps : List (Nat × Nat)
  /-- the time-base cycle of its issue (R340) -/
  issuedAt : Nat
  deriving DecidableEq, Repr

/-! ### Memory, translation, pins -/

/-- What a poison mark stands on (R266): 8-byte words of HBM4E or companion memory, of a window, or rows of a bank. -/
inductive PoisonMark where
  | memory (word : Nat)
  | scratch (gang word : Nat)
  deriving DecidableEq, Repr

/-- A translation cache (R284): of a core, of a dome, or the last-level one of a die. -/
inductive TlbPlace where
  | core (n : Nat)
  | dome (n : Nat)
  | die (n : Nat)
  deriving DecidableEq, Repr

/-- A cached translation and where it is cached (R284). -/
structure TlbEntry where
  place : TlbPlace
  ctx : Nat
  va : Nat
  size : Nat
  pa : Nat
  w : Bool
  x : Bool
  deriving DecidableEq, Repr

/-- A 128-byte line with bytes a gang wrote that no wide release has performed (R294). -/
structure DirtyLine where
  line : Nat
  gang : Nat
  deriving DecidableEq, Repr

/-- A pinned line: the gang that holds it, the scope of its release (1 gang, 2 dome) and the end of its limit (R295). -/
structure Pin where
  line : Nat
  gang : Nat
  scope : Nat
  til : Nat
  deriving DecidableEq, Repr

/-! ### Fabric -/

/-- A packet the source keeps until it is acknowledged (R315). -/
structure Kept where
  /-- the die that issued it -/
  die : Nat
  packet : Packet
  op : Option Nat
  unit : Nat
  /-- when it first left (R368); nothing while it waits for a port or a key -/
  sentAt : Option Nat
  /-- an error response to an ordered packet of the reverse flow: its SEQ, acknowledged once this one has been (R168, R308) -/
  holds : Option Nat
  deriving DecidableEq, Repr

/-- The sending side of a flow (R313): the two packages and contexts, TC, DOM, the port it keeps, the next SEQ. -/
structure OutFlow where
  dst : Nat
  ctx : Nat
  sctx : Nat
  tc : Nat
  dom : Nat
  port : Option Nat
  next : Nat
  kept : List Kept
  /-- since when no working port reaches the destination (R315) -/
  lost : Option Nat
  deriving DecidableEq, Repr

/-- A packet at which a flow waits (R308): for a fault to be served, or, without one, for a pinned line or a line under way; the port it
came by. -/
structure Stall where
  fault : Option Nat
  port : Nat
  packet : Packet
  deriving DecidableEq, Repr

/-- The receiving side of a flow (R315): the next SEQ it expects, transfers whose end it has applied (R318), the packet at which it waits
(R308), and packets that came meanwhile, with their ports. -/
structure InFlow where
  src : Nat
  sctx : Nat
  ctx : Nat
  tc : Nat
  dom : Nat
  expected : Nat
  ended : List Nat
  /-- transfers of which a PUT was refused: their signals are refused too (R168) -/
  refused : List Nat
  stalled : Option Stall
  behind : List (Nat × Packet)
  deriving DecidableEq, Repr

/-- A reservation this package granted (R319). -/
structure Grant where
  id : Nat
  port : Nat
  src : Nat
  xfer : Nat
  bytes : Nat
  til : Nat
  deriving DecidableEq, Repr

/-- A reservation that a peer granted to a gang for its later FBULKs (R171): gang, the operation number of its FRESV, the peer's package
and context, bytes left, its end. -/
structure Reservation where
  gang : Nat
  after : Nat
  dst : Nat
  ctx : Nat
  bytes : Nat
  til : Nat
  deriving DecidableEq, Repr

/-- A node of a reduction tree that has not been combined yet (R321), with the members known to have contributed to it: rank, package and
context. -/
structure RedNode where
  ctx : Nat
  group : Nat
  number : Nat
  off : Nat
  level : Nat
  index : Nat
  code : Nat
  total : Nat
  data : List Byte
  members : List (Nat × Nat × Nat)
  deriving DecidableEq, Repr

/-- A reduction that failed at the switch (R322), with the ranks that have contributed. -/
structure FailedRed where
  ctx : Nat
  group : Nat
  number : Nat
  seen : List Nat
  deriving DecidableEq, Repr

/-- State of a line in the home directory (R324). -/
inductive DirState where
  | home
  | excl (p : Nat)
  | snoop (p : Nat)
  | lost (p : Nat)
  deriving DecidableEq, Repr

/-- A companion's access to bytes of one line: its address, its length, and the bytes of a store (R192, R324). -/
structure LinkAccess where
  pa : Nat
  len : Nat
  data : Option (List Byte)
  deriving DecidableEq, Repr

/-- A request at the home directory: its package and context, the home's context, the class and domain of its flow, and the access of a
companion that made it. -/
structure DirRequest where
  pkg : Nat
  ctx : Nat
  hctx : Nat
  tc : Nat
  dom : Nat
  line : DWord
  xfer : Nat
  link : Option LinkAccess
  deriving DecidableEq, Repr

/-- What an access does to a line when it is served after its gang was diverted (R134). -/
structure LateWrite where
  va : DWord
  bytes : List Byte
  /-- an atomic: its operation of R118, width in bytes and operands; the bytes are then not used -/
  atomic : Option (Nat × Nat × DWord × DWord)
  deriving DecidableEq, Repr

/-- A party of this package whose request the directory serves (R324): what its access does to the line, whether it has tried its
access since, and whether a snuff took it away from the access (R134). -/
structure Turn where
  req : Nat
  access : Option LateWrite
  used : Bool
  late : Bool
  deriving DecidableEq, Repr

/-- One line of the home directory, by its physical address (R323, R324): its state, the request that its remote owner made, the
requests that wait, when its snoop times out, and the parties of this package that are being served. -/
structure DirLine where
  state : DirState
  holder : Option DirRequest
  queue : List DirRequest
  timer : Nat
  turn : List Turn
  deriving DecidableEq, Repr

/-- The value of an unlisted line: home-owned. -/
def DirLine.home : DirLine := { state := .home, holder := none, queue := [], timer := 0, turn := [] }

/-- A request of this package for a line of a coherent window, waiting to be served (R323, R324). -/
structure CohWait where
  ctx : Nat
  line : DWord
  home : Nat
  die : Nat
  /-- who waits for the line (R324), and what the access will do to it: nothing where it reads -/
  planned : List (Nat × Option LateWrite)
  /-- the same for accesses whose gang was diverted: done when the line arrives (R134) -/
  late : List LateWrite
  /-- whether a write asked for it, and whether the request has reached the fabric or the own directory -/
  write : Bool
  sent : Bool
  deriving DecidableEq, Repr

/-- A line of a remote window that this package holds (R278, R323). -/
structure HeldLine where
  ctx : Nat
  line : DWord
  home : Nat
  die : Nat
  data : List Byte
  /-- the parties that asked for it and have not tried their accesses yet (R324) -/
  turn : List Turn
  deriving DecidableEq, Repr

/-- An error reply that waits for the party whose access sent the request (R270). -/
structure CohError where
  ctx : Nat
  line : DWord
  req : Nat
  deriving DecidableEq, Repr

/-- What waits at a port for a key, in order (R310, R327): a flit, or a change of the lane mask that follows its RESTRIPE. -/
inductive PortItem where
  | flit (payload : List Byte)
  | mask (m : BitVec 16)
  deriving DecidableEq, Repr

/-- One Yaltex port (R309, R326-R328). -/
structure Port where
  up : Bool
  downkey : Bool
  keyreq : Bool
  enable : Bool
  training : Bool
  mask : BitVec 16
  rxmask : BitVec 16
  txcnt : Nat
  rxcnt : Nat
  txkey : Nat
  rxkey : Nat
  txsalt : Nat
  rxsalt : Nat
  /-- staged keys and salts (YTXKEY, YRXKEY, YTXSALT, YRXSALT) and YKEYGO -/
  stagedTx : Nat
  stagedRx : Nat
  saltTx : Nat
  saltRx : Nat
  goTx : Bool
  goRx : Bool
  keyWait : Option Nat
  /-- flits kept for REPLAY, number and payload: under the present key and under the one before it (R326); what waits for a key (R327) -/
  kept : List (Nat × List Byte)
  keptOld : List (Nat × List Byte)
  pending : List PortItem
  credits : Table Nat
  /-- stream byte counter since the latest start or restripe (R309) -/
  stream : Nat
  deriving DecidableEq, Repr

/-- A port at reset: down (R328; log 4, DESIGN CHOICE). -/
def Port.reset : Port :=
  { up := false, downkey := false, keyreq := false, enable := false, training := false, mask := 0, rxmask := 0, txcnt := 0, rxcnt := 0,
    txkey := 0, rxkey := 0, txsalt := 0, rxsalt := 0, stagedTx := 0, stagedRx := 0, saltTx := 0, saltRx := 0,
    goTx := false, goRx := false, keyWait := none, kept := [], keptOld := [], pending := [], credits := [],
    stream := 0 }

/-- One direction of a die link (R305, R306): working modules, flits sent and received, the numbers of the flits on their way, flits kept
for replay. -/
structure DieLink where
  modules : List Nat
  txn : Nat
  rxn : Nat
  wire : List Nat
  kept : List (Nat × List Byte)
  deriving DecidableEq, Repr

/-- A die link at reset: nine modules (R305) (log 4, DESIGN CHOICE). -/
def DieLink.reset : DieLink :=
  { modules := [0, 1, 2, 3, 4, 5, 6, 7, 8], txn := 0, rxn := 0, wire := [], kept := [] }

/-- The fabric side of the package. -/
structure Fabric where
  pkgid : Word
  fabtmo : Word
  cohtmo : Word
  yrtab : DWord
  ports : Table Port
  links : Table DieLink
  outflows : List OutFlow
  inflows : List InFlow
  grants : List Grant
  nextGrant : Nat
  reservations : List Reservation
  nodes : List RedNode
  failedReds : List FailedRed
  dir : Table DirLine
  cohWaits : List CohWait
  held : List HeldLine
  cohErrors : List CohError
  deriving DecidableEq, Repr

/-- The fabric at reset (R325, R328; log 4, DESIGN CHOICE). -/
def Fabric.reset : Fabric :=
  { pkgid := 0xFFF, fabtmo := 40000, cohtmo := 40000, yrtab := 0, ports := [], links := [], outflows := [], inflows := [],
    grants := [], nextGrant := 0, reservations := [], nodes := [], failedReds := [], dir := [], cohWaits := [], held := [], cohErrors := [] }

/-! ### Package registers, time, power -/

/-- The time base (R349, R351): EPH, the fraction of a nanosecond in units of 1/(7 × 2^40), EPHADJ, by how much steps have moved EPH
since reset, and the cycles counted since reset. -/
structure Clock where
  eph : DWord
  frac : Nat
  adj : Word
  stepped : Int
  cycles : Nat
  deriving DecidableEq, Repr

/-- The PTP slave (R350, R352). -/
structure Ptp where
  cfg : Word
  lock : Bool
  /-- the first lock since reset has happened (R351) -/
  locked : Bool
  offset : Nat
  master : Option Nat
  /-- a two-step Sync that waits for its Follow_Up: sequence and arrival time -/
  sync : Option (Nat × Nat)
  /-- the last complete Sync: arrival and origin time -/
  last : Option (Nat × Nat)
  /-- a Delay_Req on its way: sequence and send time -/
  delayReq : Option (Nat × Nat)
  nextSeq : Nat
  /-- mean path delay last measured, ns -/
  path : Int
  syncAt : Nat
  deriving DecidableEq, Repr

/-- PTP at reset (R352; log 4, DESIGN CHOICE). -/
def Ptp.reset : Ptp :=
  { cfg := 0, lock := false, locked := false, offset := 0, master := none, sync := none, last := none, delayReq := none, nextSeq := 0,
    path := 0, syncAt := 0 }

/-- State of the boot ROM (R188). -/
inductive FwState where
  | waitImg
  | check
  | run
  | failed
  deriving DecidableEq, Repr

/-- A fault posted or to be posted (R193). -/
structure FaultRec where
  id : Nat
  ctx : Nat
  va : DWord
  kind : Nat
  src : Nat
  /-- the record stands in the fault queue -/
  posted : Bool
  /-- a gang's fault: the faulting instruction and its lowest lane not performed (R116, R131) -/
  pc : Nat
  lane : Nat
  /-- the operation, gang or Lamplighter job that waits for it -/
  op : Option Nat
  gang : Option Nat
  job : Option Job
  deriving DecidableEq, Repr

/-- Package registers of R190, R196, R282, R352 and R371, and the fault queue. -/
structure Pkg where
  carve : Word
  /-- CARVE has been written since reset (R5: WO1) -/
  carveSet : Bool
  fqbase : DWord
  fqsize : Nat
  fqhead : Word
  fqtail : Word
  fdone : DWord
  faults : List FaultRec
  nextFault : Nat
  mwake : Word
  fwbase : DWord
  fwlen : Word
  fwgo : Word
  fwstate : FwState
  fwcause : Nat
  meas : Table DWord
  lampctl : Word
  remapEn : Bool
  thresh : Nat
  /-- remap entries that differ from the identity, by stack × 32768 + region: group × 8192 + slot (R280) -/
  remap : Table Nat
  /-- a swap in progress on a stack: its two regions (R281) -/
  swaps : Table (Nat × Nat)
  /-- accesses that the memory controllers have counted in this Chandler period, by 32,768 × stack + region (R281) -/
  accesses : Table Nat
  prewait : Nat
  pwrcap : Word
  /-- retired Lanterns, by 32 × stack + number (R345) -/
  lanterns : List Nat
  deriving DecidableEq, Repr

/-- Package registers at reset (R188, R282, R352, R371; log 4, DESIGN CHOICE). -/
def Pkg.reset : Pkg :=
  { carve := 0, carveSet := false, fqbase := 0, fqsize := 0, fqhead := 0, fqtail := 0, fdone := 0, faults := [], nextFault := 0, mwake := 0,
    fwbase := 0, fwlen := 0, fwgo := 0, fwstate := .waitImg, fwcause := 0, meas := [], lampctl := 0, remapEn := false,
    thresh := 0, remap := [], swaps := [], accesses := [], prewait := 100, pwrcap := 2800, lanterns := [] }

/-- A wick request (R366): operation, reservation by domain in W, when it was made. -/
structure WickRequest where
  op : Nat
  watts : List (Nat × Nat)
  since : Nat
  deriving DecidableEq, Repr

/-- The Chandler (R365, R366, R371). -/
structure Chandler where
  /-- draw of the last period by domain, in W -/
  draw : List Nat
  /-- measured draw outside wicks of the last whole period -/
  nonWick : List Nat
  /-- budget by domain for this period, in W -/
  budget : List Nat
  /-- byte budget by stack, in 64-byte units -/
  bytes : List Nat
  periodStart : Nat
  queue : List WickRequest
  granted : List WickRequest
  /-- the cap in force (R371: PWRCAP takes effect at the next period) -/
  cap : Nat
  deriving DecidableEq, Repr

/-- The Chandler at reset (log 4, DESIGN CHOICE). -/
def Chandler.reset : Chandler :=
  { draw := List.replicate 12 0, nonWick := List.replicate 12 0, budget := List.replicate 12 0,
    bytes := List.replicate 8 0, periodStart := 0, queue := [], granted := [], cap := 2800 }

/-! ### The step's own data -/

/-- What the package sends out (log 40, DESIGN CHOICE). -/
inductive Output where
  /-- an interrupt vector of a queue, with the code of a wake-up (R175, R195) -/
  | vector (queue vec : Nat) (code : Option Word)
  /-- the vector of a context: service ring, dump (R194, R258) -/
  | ctxVector (ctx : Nat)
  /-- the vector of the management core (R195, R269) -/
  | mgmtVector (code : Word)
  /-- a fabric packet leaving by a port (R307) -/
  | packet (port : Nat) (p : Packet)
  /-- a flit under a counter value leaving by a port, and the lane of each byte (R309, R326) -/
  | flit (port count : Nat) (bytes : List Byte) (lanes : List Nat)
  /-- a link control flit: port and its code (R312) -/
  | control (port code arg : Nat)
  /-- a KEYREQ flit in clear text, and the lane of each byte (R327) -/
  | clearFlit (port : Nat) (bytes : List Byte) (lanes : List Nat)
  /-- a discarded packet with a reserved value in its header (R311) -/
  | headerError (port : Nat) (p : Packet)
  /-- a request to replay die-link flits from a number on (R306), and flits on a module of a die link (R305) -/
  | dieReplay (sender receiver number : Nat)
  | dieFlit (sender receiver number module : Nat) (bytes : List Byte)
  /-- a Delay_Req with its sequence number (R350) -/
  | delayReq (seq : Nat)
  /-- an error response of the companion link (R270) -/
  | linkError (line : Nat)
  /-- the bytes that a load of the companion reads at a physical address (R192) -/
  | loaded (pa : Nat) (bytes : List Byte)
  deriving DecidableEq, Repr

/-- One move of the package or of what surrounds it (log 1, DESIGN CHOICE) (log 40, DESIGN CHOICE). -/
inductive Move where
  /-- an event of the opcode table -/
  | event (i : Instr)
  /-- a gang issues its next chain, in a cycle in which no other gang of its core is eligible -/
  | gang (key : Nat)
  /-- a cycle of a core in which interlocks, full counters or busy pipes hold some gangs (R364) -/
  | cycle (core : Nat) (held : List Nat)
  /-- time-base cycles pass (R351) -/
  | tick (cycles : Nat)
  /-- the companion stores bytes at a physical address (R192) -/
  | store (pa : Nat) (bytes : List Byte)
  /-- a cycle of the array on an operation: one row group of its present pass (R331, R332, R334) -/
  | arrayCycle (op : Nat)
  /-- a cycle of the other array on a step of a twin job beyond P_c: one row group (R337) -/
  | aheadCycle (op : Nat)
  /-- the load pipes load a step of a job (R337) -/
  | jobLoad (op : Nat)
  /-- a cycle of the drain port on the oldest drain of a gang: one row (R336) -/
  | drainCycle (gang : Nat)
  /-- the companion loads bytes at a physical address (R192) -/
  | load (pa n : Nat)
  /-- the L1 of a core evicts a 128-byte line (R294) -/
  | evict (core line : Nat)
  /-- a die cache writes a held line of a remote window back (R278, R324) -/
  | writeBack (ctx : Nat) (line : DWord)
  /-- a read that missed the die cache of a die got its data from an HBM4E stack after some ns (R368) -/
  | hbmRead (die stack ns : Nat)
  /-- an access of a die cache reaches a region of a stack at its memory controller (R281) -/
  | hbmAccess (stack region : Nat)
  /-- the device looks again at the records of a context's service ring, where a pin or a line under way held it up (R194, R295) -/
  | records (ctx : Nat)
  deriving DecidableEq, Repr

/-- A synchronous trap whose delivery follows the chain: code, offset of the trapping instruction, y code, `v11`, `v12`
(R244, R245). -/
structure PendTrap where
  code : Nat
  pc : Nat
  y : Nat
  v11 : Word
  v12 : Word
  deriving DecidableEq, Repr

/-- What follows once every instruction of a chain has issued: a park, or a snuff that SNUFFREL let strike (R67, R71, R76). -/
inductive After where
  | park (p : Park)
  | divert (reason : Nat)
  deriving DecidableEq, Repr

/-- The chain that is issuing: which lanes of which gang, and where; the gang as it stood before the chain, from which every
instruction of the chain reads (R14); the instruction's word, literal and prefix; the flags the chain has raised (R82). -/
structure Issue where
  gang : Nat
  lanes : LaneMask
  /-- offset of the chain's first instruction, of the present instruction, and of the next instruction after the chain -/
  chainPc : Nat
  pc : Nat
  nextPc : Nat
  word : Word
  literal : Word
  pfx : Pfx
  src : Gang
  flags : BitVec 5
  /-- which words of the chain raised flags: their offsets, in order (R245) -/
  raised : List (Nat × BitVec 5)
  /-- instructions of the chain follow the present one -/
  more : Bool
  /-- a trap of an earlier instruction whose delivery follows the chain (R244) -/
  pend : Option PendTrap
  /-- a park or diversion that follows the chain -/
  after : Option After
  /-- the offset of the instruction of the chain that closes every window of the lanes (R27, R229) -/
  closing : Option Nat
  /-- class 7 flags that have entered FPFLAG while the chain issues, and those of its own words among them (R229) -/
  entered : BitVec 5
  kept : BitVec 5
  /-- a trap, park or kill has taken the lanes away: no further instruction of the chain issues (log 17, DEDUCED) -/
  diverted : Bool
  /-- lanes for which the chain cannot issue now, and the wait they enter; `ready` where the gang's issue slot stays with the
  chain until it can go (R207) -/
  hold : LaneMask
  holdWait : Wait
  /-- pinned lines on which accesses of the chain retry (R295) -/
  retries : List Nat
  deriving DecidableEq, Repr

/-- No chain is issuing. -/
def Issue.idle : Issue :=
  { gang := 0, lanes := 0, chainPc := 0, pc := 0, nextPc := 0, word := 0, literal := 0, pfx := Pfx.none,
    src := Gang.absent, flags := 0, raised := [], more := false, pend := none, after := none, closing := none, entered := 0, kept := 0, diverted := false, hold := 0, holdWait := .ready,
    retries := [] }

/-- The H9 package (log 5, DESIGN CHOICE). -/
structure State where
  clock : Clock
  /-- HBM4E and companion memory by physical address (R279) -/
  mem : Table Byte
  poison : List PoisonMark
  tlb : List TlbEntry
  dirty : List DirtyLine
  pins : List Pin
  gangs : Table Gang
  launches : Table Launch
  pendings : List Pending
  ctxs : Table Ctx
  queues : Table Queue
  cores : Table Core
  domes : Table Dome
  dies : Table Die
  ops : List Op
  /-- requests that the Lanterns have not finished, in the order in which they were sent (R344) -/
  lanternQueue : List LanternRequest
  nextOp : Nat
  nextLaunch : Nat
  nextBorn : Nat
  /-- packets taken in so far: the order of intake (R361) -/
  nextIntake : Nat
  pkg : Pkg
  fab : Fabric
  chandler : Chandler
  ptp : Ptp
  issue : Issue
  agenda : List Move
  out : List Output
  /-- writes of the device that are tried again, oldest first (R295) -/
  lateWrites : List CtxWrite
  /-- picks the next free value (log 5, DESIGN CHOICE) -/
  free : Nat
  deriving DecidableEq, Repr

/-- The package right after reset (log 4, DESIGN CHOICE). -/
def State.reset : State :=
  { clock := { eph := 0, frac := 0, adj := 0, stepped := 0, cycles := 0 }, mem := [], poison := [], tlb := [], dirty := [], pins := [], gangs := [],
    launches := [], pendings := [], ctxs := [], queues := [], cores := [], domes := [], dies := [], ops := [], lanternQueue := [], nextOp := 0,
    nextLaunch := 0, nextBorn := 0, nextIntake := 0, pkg := Pkg.reset, fab := Fabric.reset, chandler := Chandler.reset, ptp := Ptp.reset,
    issue := Issue.idle, agenda := [], out := [], lateWrites := [], free := 0 }

/-! ### Stops -/

/-- Why a run stops. The manual leaves no instruction of a gang without an effect, so no instruction word ends in a fault (log 39, DESIGN CHOICE). -/
inductive Fault where
  /-- Raised by MGMT_REGISTER_WRITE when the companion changes a register at a time at which a rule that binds it forbids the change
  (R175, R193, R264, R285, R328, R346); the manual gives such a write no effect. Safe: the model stops where the device may go
  on. -/
  | companionBroke (rule : Nat)
  deriving DecidableEq, Repr

/-- Why an instruction has no meaning. -/
inductive Refusal where
  /-- Raised by the arms of exec that have no meaning yet; none is left. Safe. -/
  | notModelled (mnemonic : String)
  deriving DecidableEq, Repr

end Sys2Proof.Machine
end

