-- ==== Sys2Proof/Machine/Access.lean ====
section
/-!
DEFINITION. Sys2Proof/Machine/Access.lean: reading and writing the parts of the state by name: gangs, lanes, registers, predicates,
sets, launches, contexts, queues, cores, domes, dies. Every register has its one reader and its one writer here.
-/

namespace Sys2Proof.Machine

/-! ### Tables of the state -/

def State.gangAt (s : State) (k : Nat) : Gang := Table.get Gang.absent k s.gangs
def State.setGang (s : State) (k : Nat) (g : Gang) : State := { s with gangs := Table.put k g s.gangs }
def State.updGang (s : State) (k : Nat) (f : Gang → Gang) : State := s.setGang k (f (s.gangAt k))

def State.launchAt (s : State) (k : Nat) : Launch := Table.get Launch.absent k s.launches
def State.setLaunch (s : State) (k : Nat) (l : Launch) : State := { s with launches := Table.put k l s.launches }
def State.updLaunch (s : State) (k : Nat) (f : Launch → Launch) : State := s.setLaunch k (f (s.launchAt k))

def State.ctxAt (s : State) (k : Nat) : Ctx := Table.get Ctx.reset k s.ctxs
def State.setCtx (s : State) (k : Nat) (c : Ctx) : State := { s with ctxs := Table.put k c s.ctxs }
def State.updCtx (s : State) (k : Nat) (f : Ctx → Ctx) : State := s.setCtx k (f (s.ctxAt k))

def State.queueAt (s : State) (k : Nat) : Queue := Table.get Queue.reset k s.queues
def State.setQueue (s : State) (k : Nat) (q : Queue) : State := { s with queues := Table.put k q s.queues }
def State.updQueue (s : State) (k : Nat) (f : Queue → Queue) : State := s.setQueue k (f (s.queueAt k))

def State.coreAt (s : State) (k : Nat) : Core := Table.get Core.reset k s.cores
def State.setCore (s : State) (k : Nat) (c : Core) : State := { s with cores := Table.put k c s.cores }
def State.updCore (s : State) (k : Nat) (f : Core → Core) : State := s.setCore k (f (s.coreAt k))

def State.domeAt (s : State) (k : Nat) : Dome := Table.get Dome.reset k s.domes
def State.setDome (s : State) (k : Nat) (d : Dome) : State := { s with domes := Table.put k d s.domes }

def State.dieAt (s : State) (k : Nat) : Die := Table.get Die.reset k s.dies
def State.setDie (s : State) (k : Nat) (d : Die) : State := { s with dies := Table.put k d s.dies }
def State.updDie (s : State) (k : Nat) (f : Die → Die) : State := s.setDie k (f (s.dieAt k))

def Dome.bank (d : Dome) (b : Nat) : Bank := Table.get Bank.reset b d.banks
def State.bankAt (s : State) (dome b : Nat) : Bank := (s.domeAt dome).bank b
def State.setBank (s : State) (dome b : Nat) (x : Bank) : State :=
  s.setDome dome { s.domeAt dome with banks := Table.put b x (s.domeAt dome).banks }
def State.updBank (s : State) (dome b : Nat) (f : Bank → Bank) : State := s.setBank dome b (f (s.bankAt dome b))

def Fabric.port (f : Fabric) (p : Nat) : Port := Table.get Port.reset p f.ports
def State.portAt (s : State) (p : Nat) : Port := s.fab.port p
def State.setPort (s : State) (p : Nat) (x : Port) : State :=
  { s with fab := { s.fab with ports := Table.put p x s.fab.ports } }

def State.emit (s : State) (o : Output) : State := { s with out := s.out ++ [o] }

/-- The core, dome and die numbering of R1. -/
def domeOf (core : Nat) : Nat := core / 4
def dieOfDome (dome : Nat) : Nat := dome / 12
def dieOf (core : Nat) : Nat := core / 48

/-- The core of the partner dome with the same position (R153): domes 2k and 2k + 1 are partners. -/
def partnerCore (core : Nat) : Nat := if domeOf core % 2 = 0 then core + 4 else core - 4

/-- The current time in ns (R349). -/
def State.now (s : State) : Nat := s.clock.eph.toNat

/-- Nanoseconds that the time base has counted since reset, steps of EPH apart: what a duration is measured in (R349, R365)
(log 20, DEDUCED). -/
def State.ran (s : State) : Nat := ((s.now : Int) - s.clock.stepped).toNat

/-! ### Lanes and registers -/

def Gang.lane (g : Gang) (l : Nat) : Lane := Table.get Lane.vacant l g.lanes
def Gang.setLane (g : Gang) (l : Nat) (x : Lane) : Gang := { g with lanes := Table.put l x g.lanes }
def Gang.updLane (g : Gang) (l : Nat) (f : Lane → Lane) : Gang := g.setLane l (f (g.lane l))

/-- Change every lane of a mask, in ascending order. -/
def Gang.updLanes (g : Gang) (m : LaneMask) (f : Nat → Lane → Lane) : Gang :=
  (lanesOf m).foldl (fun g l => g.updLane l (f l)) g

/-- The lanes that satisfy a test. -/
def Gang.lanesWhere (g : Gang) (p : Nat → Lane → Bool) : LaneMask :=
  maskOf ((List.range 32).filter fun l => p l (g.lane l))

/-- The live mask (R201). -/
def Gang.liveMask (g : Gang) : LaneMask := g.lanesWhere fun _ x => x.live

/-- `s`n (R18). -/
def Gang.sreg (g : Gang) (n : Nat) : Word := Table.get 0 n g.sregs
def Gang.setS (g : Gang) (n : Nat) (v : Word) : Gang := { g with sregs := Table.set 0 n v g.sregs }

/-- The pair `x`n = `s`(n+1):`s`n (R7's register table). -/
def Gang.pair (g : Gang) (n : Nat) : DWord := g.sreg (n + 1) ++ g.sreg n
def Gang.setPair (g : Gang) (n : Nat) (v : DWord) : Gang := (g.setS n (v.setWidth 32)).setS (n + 1) ((v >>> 32).setWidth 32)

/-- The logical register behind `v`(8 + j) when the window base is `base` (R204). -/
def vSlot (base n : Nat) : Nat := base + (n - 8)

/-- `v`n of a lane: a global or a window register (R204). -/
def Lane.vreg (x : Lane) (n : Nat) : Word :=
  if n < 8 then Table.get 0 n x.globals else Table.get 0 (vSlot x.wbase n) x.stack

/-- Write `v`n with the window at `base`. -/
def Lane.setVAt (x : Lane) (base n : Nat) (v : Word) : Lane :=
  if n < 8 then { x with globals := Table.set 0 n v x.globals }
  else { x with stack := Table.set 0 (vSlot base n) v x.stack }

def Lane.setV (x : Lane) (n : Nat) (v : Word) : Lane := x.setVAt x.wbase n v

/-- `p`n of a lane; `p0` reads 1 (R22). -/
def Lane.pred (x : Lane) (n : Nat) : Bool := n == 0 || x.preds.getLsbD n

/-- One bit of a predicate file set to a value. -/
def setBit {w : Nat} (x : BitVec w) (n : Nat) (b : Bool) : BitVec w :=
  if b then x ||| BitVec.ofNat w (2 ^ n) else x &&& ~~~(BitVec.ofNat w (2 ^ n))

/-- Write `p`n; a write to `p0` is discarded (R22). -/
def Lane.setPred (x : Lane) (n : Nat) (b : Bool) : Lane :=
  if n = 0 then x else { x with preds := setBit x.preds n b }

/-- `q`n (R92), and byte k of it. -/
def Gang.qreg (g : Gang) (n : Nat) : DWord := Table.get 0 n g.qregs
def Gang.setQ (g : Gang) (n : Nat) (v : DWord) : Gang := { g with qregs := Table.set 0 n v g.qregs }
def Gang.scale (g : Gang) (n k : Nat) : Byte := byteOf (g.qreg n) k
def putByte (x : DWord) (k : Nat) (b : Byte) : DWord :=
  (x &&& ~~~((0xFF : DWord) <<< (8 * k))) ||| (b.setWidth 64 <<< (8 * k))
def Gang.setScale (g : Gang) (n k : Nat) (b : Byte) : Gang := g.setQ n (putByte (g.qreg n) k b)

/-- Rejoin set `j`k (R61). -/
def Gang.jset (g : Gang) (k : Nat) : JSet := Table.get JSet.start k g.sets
def Gang.setJ (g : Gang) (k : Nat) (x : JSet) : Gang := { g with sets := Table.put k x g.sets }

/-- Tile handle `h`k (R145). -/
def Gang.tile (g : Gang) (k : Nat) : Tile := Table.get { valid := false, off := 0, desc := 0 } k g.tiles
def Gang.setTile (g : Gang) (k : Nat) (t : Tile) : Gang := { g with tiles := Table.put k t g.tiles }

/-- Whether a gang exists and is neither retired nor killed. -/
def Gang.alive (g : Gang) : Bool := g.place != .gone

/-- The launch of a gang. -/
def State.launchOf (s : State) (k : Nat) : Launch := s.launchAt (s.gangAt k).launch

/-- The context of a gang's launch. -/
def State.ctxNum (s : State) (k : Nat) : Nat := (s.launchOf k).ctx

/-- The code object a gang runs; a Lamplighter slot runs the firmware (R188, log 7, DESIGN CHOICE). -/
def State.codeOf (s : State) (g : Gang) : Code :=
  if g.lamp then { Code.zero with base := Config.restartEntry, n := Config.firmwarePackets } else (s.launchAt g.launch).code

/-! ### The chain that is issuing -/

/-- The gang of the chain, as it stands now. -/
def State.cur (s : State) : Gang := s.gangAt s.issue.gang
def State.setCur (s : State) (g : Gang) : State := s.setGang s.issue.gang g
def State.updCur (s : State) (f : Gang → Gang) : State := s.setCur (f s.cur)

/-- A lane of the chain's gang as the chain found it (R14). -/
def State.srcLane (s : State) (l : Nat) : Lane := s.issue.src.lane l

/-- Write `s`n of the chain's gang. -/
def State.writeS (s : State) (n : Nat) (v : Word) : State := s.updCur fun g => g.setS n v

/-- Write `x`n of the chain's gang. -/
def State.writePair (s : State) (n : Nat) (v : DWord) : State := s.updCur fun g => g.setPair n v

/-- Write `v`n of a lane of the chain's gang; the window is the one the chain found. -/
def State.writeV (s : State) (l n : Nat) (v : Word) : State :=
  s.updCur fun g => g.updLane l fun x => x.setVAt (s.srcLane l).wbase n v

/-- Write a predicate of a lane of the chain's gang. -/
def State.writeP (s : State) (l n : Nat) (b : Bool) : State :=
  s.updCur fun g => g.updLane l fun x => x.setPred n b

/-- Whether the guard of the chain's prefix passes in a lane (R25). -/
def State.guardOn (s : State) (l : Nat) : Bool :=
  let p := s.issue.pfx
  (s.srcLane l).pred p.g.toNat == (p.gn == 0)

/-- The active lanes of the present instruction: issuing lanes whose guard passes (R25). -/
def State.active (s : State) : List Nat := (lanesOf s.issue.lanes).filter s.guardOn

/-- The issuing lanes whose guard does not pass. -/
def State.inactive (s : State) : List Nat := (lanesOf s.issue.lanes).filter fun l => !s.guardOn l

end Sys2Proof.Machine
end

