-- ==== Sys2Proof/Machine/Space.lean ====
section
/-!
DEFINITION. Sys2Proof/Machine/Space.lean: the address spaces (R109 to R112): physical memory (R279), translation (R283, R284),
fabric-coherent windows (R323), pins (R295), poison (R266), the carve-out (R190), scratchpad windows (R110) and operand
buffers (R156). Multi-byte values are little-endian (R4).
-/

namespace Sys2Proof.Machine

/-! ### Physical memory -/

/-- Whether a physical address is memory (R279). -/
def physOk (pa : Nat) : Bool := decide (pa < 0x8000000000) || decide (0x400000000000 ≤ pa)

/-- What an unlisted byte of memory reads as (log 3, DESIGN CHOICE). -/
def memDefault : Byte := 0

/-- One byte of memory (log 3, DESIGN CHOICE). -/
def State.byteAt (s : State) (pa : Nat) : Byte := Table.get memDefault pa s.mem

/-- `n` bytes of memory. -/
def State.bytesAt (s : State) (pa n : Nat) : List Byte := Table.getList memDefault pa n s.mem

/-- Store bytes. -/
def State.putBytes (s : State) (pa : Nat) (bs : List Byte) : State := { s with mem := Table.setList memDefault pa bs s.mem }

/-- A little-endian number of `n` bytes. -/
def State.numAt (s : State) (pa n : Nat) : Nat := natLE (s.bytesAt pa n)

/-- The HBM4E stack of a physical address (R279), and its remap region there (R280). -/
def stackOf (pa : Nat) : Nat := pa / 2 ^ 36 % 8
def remapRegion (pa : Nat) : Nat := pa / 2 ^ 21 % 2 ^ 15

/-- Where a remap region stands: group × 8192 + slot (R280). -/
def State.remapOf (s : State) (stack region : Nat) : Nat :=
  match Table.find (stack * 32768 + region) s.pkg.remap with
  | some v => v
  | none => region

/-- The channel group of a physical address, and the channel of its line (R280). -/
def State.groupOf (s : State) (pa : Nat) : Nat := s.remapOf (stackOf pa) (remapRegion pa) / 8192
def State.channelOf (s : State) (pa : Nat) : Nat := 8 * s.groupOf pa + pa / 2 ^ 7 % 8

/-- Whether memory is in its one canonical form: addresses strictly rise and no byte equals what it would read as unlisted (log 3, DESIGN CHOICE). -/
abbrev Memory.wf (m : Table Byte) : Bool := Table.canonical memDefault m

/-! ### Translation (R283, R284) -/

/-- Whether bits 63:48 all equal bit 47 (R283). -/
def canonicalVa (va : DWord) : Bool := decide (va.toNat / 2 ^ 47 = 0) || decide (va.toNat / 2 ^ 47 = 2 ^ 17 - 1)

/-- How a walk ends. -/
inductive Walk where
  | ok (e : TlbEntry)
  | page
  | prot
  deriving DecidableEq, Repr

/-- The levels of a page table below the root down: lowest bit of the index, index bits, whether a leaf is allowed, whether a
table is (R283). -/
def walkLevels : List (Nat × Nat × Bool × Bool) :=
  [(39, 9, false, true), (27, 12, true, true), (21, 6, true, true), (16, 5, true, false)]

/-- One walk from a table on (R283); the entry's place is set as it is cached. -/
def walkFrom (s : State) (ctx va : Nat) : List (Nat × Nat × Bool × Bool) → Nat → Walk
  | [], _ => .prot
  | (lo, bits, leafOk, tableOk) :: rest, table =>
    let e := s.numAt (table + 8 * (va / 2 ^ lo % 2 ^ bits)) 8
    let addr := e / 4096 % 2 ^ 40 * 4096
    let leaf := e / 2 % 2 == 1
    if e % 2 = 0 then .page
    else if e / 16 % 256 ≠ 0 || e / 2 ^ 52 ≠ 0 then .prot
    else if leaf then
      if !leafOk then .prot
      else if !physOk (addr / 2 ^ lo * 2 ^ lo) then .prot
      else .ok { place := .die 0, ctx := ctx, va := va / 2 ^ lo * 2 ^ lo, size := 2 ^ lo, pa := addr / 2 ^ lo * 2 ^ lo,
                 w := e / 4 % 2 == 1, x := e / 8 % 2 == 1 }
    else if !tableOk then .prot
    else if !physOk addr then .prot
    else walkFrom s ctx va rest addr

/-- A walk of a context's page table for the low 48 bits of an address (R283). -/
def walk (s : State) (ctx va : Nat) : Walk :=
  let root := (s.ctxAt ctx).ptroot.toNat / 4096 * 4096
  if !physOk root then .prot else walkFrom s ctx va walkLevels root

/-- Whether a cached translation covers an address. -/
def TlbEntry.covers (e : TlbEntry) (ctx va : Nat) : Bool := e.ctx == ctx && decide (e.va ≤ va) && decide (va < e.va + e.size)

/-- Access kinds, numbered as KIND of R193. -/
inductive Kind where
  | read
  | write
  | atomic
  | fetch
  deriving DecidableEq, Repr

def Kind.code : Kind → Nat
  | .read => 0
  | .write => 1
  | .atomic => 2
  | .fetch => 3

/-- Whether an access writes. -/
def Kind.writes : Kind → Bool
  | .write | .atomic => true
  | .read | .fetch => false

/-- Whether a leaf's W and X bits allow the access (R283). -/
def TlbEntry.allows (e : TlbEntry) (k : Kind) : Bool :=
  match k with
  | .read => true
  | .write | .atomic => e.w
  | .fetch => e.x

/-- Why an access does not happen (R131): PAGE, PROT, MEMERR, MEMERR of an uncorrectable error (R266), or it waits for a pin or a
home directory. -/
inductive AccCause where
  | page
  | prot
  | memerr
  | poison
  | wait
  deriving DecidableEq, Repr

/-- Whether a cause is a fault of translation, after which lanes below the failing one keep their effects (R116, R131). -/
def AccCause.faults : AccCause → Bool
  | .page | .prot => true
  | _ => false

/-! ### Who accesses -/

/-- A party that accesses memory: its context, its gang if it acts for one, its core, whether it stands at that core and not only on its
die or package (R287), whether it is a Lamplighter slot, whether its accesses allocate no L1 line (R114), and the number by which its
requests for coherent lines are told apart. -/
structure Agent where
  ctx : Nat
  gang : Option Nat
  core : Nat
  atCore : Bool
  lamp : Bool
  nt : Bool
  req : Nat
  deriving DecidableEq, Repr

/-- The agent that a gang's own accesses act as. -/
def State.agentOf (s : State) (k : Nat) : Agent :=
  { ctx := s.ctxNum k, gang := some k, core := (s.gangAt k).core, atCore := true, lamp := (s.gangAt k).lamp, nt := false, req := k }

/-- The agent that an engine operation's units act as: at the issuing gang's core (R287). -/
def State.opAgent (s : State) (o : Op) : Agent :=
  { ctx := (s.launchAt o.launch).ctx, gang := none, core := o.core, atCore := true, lamp := false, nt := true, req := 2 ^ 61 + o.id }

/-- A Lamplighter acting in a context, whatever its core (R40, R177, R184). -/
def lampAgent (ctx : Nat) : Agent :=
  { ctx := ctx, gang := none, core := 0, atCore := false, lamp := true, nt := true, req := 2 ^ 62 }

/-- The Lamplighter that holds the ticket of a job, acting in a context at its core (R181, R287). -/
def State.lampFor (s : State) (ctx die : Nat) (j : Job) : Agent :=
  match (s.dieAt die).tickets.findSome? fun t => if t.job == j then t.agent else none with
  | some c => { lampAgent ctx with core := c, atCore := true }
  | none => { lampAgent ctx with core := 48 * die }

/-- A party at a package or a system, on a die: a gateway, a Lantern, a walker, the home of a window (R287). -/
def dieAgent (ctx die req : Nat) : Agent :=
  { ctx := ctx, gang := none, core := 48 * die, atCore := false, lamp := false, nt := true, req := req }

/-- Whether a pin's scope takes in an agent (R7, R295): its gang, or what stands at a core of its dome. -/
def pinAdmits (s : State) (p : Pin) (a : Agent) : Bool :=
  a.gang == some p.gang || (p.scope == 2 && a.atCore && domeOf a.core == domeOf (s.gangAt p.gang).core)

/-- Whether some pin holds the access (R295). -/
def pinned (s : State) (a : Agent) (pa : Nat) : Bool := s.pins.any fun p => p.line == pa / 128 && !pinAdmits s p a

/-! ### Cached translations (R284) -/

/-- The translation caches that an agent's access passes, its own core's first: an agent away from every core passes that of its die. -/
def Agent.tlbs (a : Agent) : List TlbPlace :=
  (if a.atCore then [.core a.core, .dome (domeOf a.core)] else []) ++ [.die (dieOf a.core)]

/-- How many translations a cache holds (R284). -/
def TlbPlace.size : TlbPlace → Nat
  | .core _ => 64
  | .dome _ => 1024
  | .die _ => 16384

/-- The cached translation that an access finds first. -/
def cached (s : State) (a : Agent) (va : Nat) : Option TlbEntry :=
  a.tlbs.findSome? fun p => s.tlb.find? fun e => e.place == p && e.covers a.ctx va

/-- The translation in force: a cached one, else a walk's (R284). -/
def lookup (s : State) (a : Agent) (va : Nat) : Walk :=
  match cached s a va with
  | some e => .ok e
  | none => walk s a.ctx va

/-- A physical address for an access, or why not (R283). -/
def translate (s : State) (a : Agent) (va : DWord) (k : Kind) : Except AccCause Nat :=
  if !canonicalVa va then .error .prot
  else
    let low := va.toNat % 2 ^ 48
    match lookup s a low with
    | .page => .error .page
    | .prot => .error .prot
    | .ok e => if e.allows k then .ok (e.pa + (low - e.va)) else .error .prot

/-- Put a translation into a cache: the newest stands first, and a full cache loses its oldest one (log 42, DESIGN CHOICE). -/
def cacheAt (tlb : List TlbEntry) (e : TlbEntry) (p : TlbPlace) : List TlbEntry :=
  let here := tlb.filter fun x => x.place == p
  let tlb := if here.length < p.size then tlb else
    match here.getLast? with
    | some old => tlb.erase old
    | none => tlb
  { e with place := p } :: tlb

/-- Cache the translation an access used in every cache that it passed without finding it (R284) (log 42, DESIGN CHOICE). -/
def State.noteTlb (s : State) (a : Agent) (va : DWord) : State :=
  let low := va.toNat % 2 ^ 48
  match lookup s a low with
  | .ok e =>
    let missed := a.tlbs.filter fun p => !(s.tlb.any fun x => x.place == p && x.covers a.ctx low)
    { s with tlb := missed.foldl (fun t p => cacheAt t e p) s.tlb }
  | _ => s

/-- Whether the carve-out closes an address to an agent (R190). -/
def carved (s : State) (a : Agent) (pa : Nat) : Bool :=
  let c := s.pkg.carve.toNat
  c % 2 == 1 && !a.lamp && decide (c / 2 ^ 19 * 2 ^ 26 ≤ pa) && decide (pa < (c / 2 ^ 19 + c / 2 ^ 11 % 256) * 2 ^ 26)

/-- Whether one of the 8-byte words that `n` bytes at an address touch is poisoned (R266). -/
def poisonedAt (s : State) (pa n : Nat) : Bool :=
  (List.range ((pa + n - 1) / 8 + 1 - pa / 8)).any fun i => s.poison.contains (.memory (pa / 8 + i))

/-! ### Fabric-coherent windows (R320, R323) -/

/-- A peer of a context's fabric window: its package and context, or nothing when it is unreachable (R320). -/
def peerOf (s : State) (ctx peer : Nat) : Option (Nat × Nat) :=
  let c := s.ctxAt ctx
  if c.peercnt.toNat ≤ peer || c.peertab == 0 then none
  else
    let e := s.numAt (c.peertab.toNat + 4 * peer) 4
    if e / 2 ^ 31 % 2 = 1 then some (e % 4096, e / 4096 % 64) else none

/-- The coherent window of a context that holds an address (R323, R328). -/
def windowAt (s : State) (ctx : Nat) (va : DWord) : Option CohWindow :=
  let low := va.toNat % 2 ^ 48
  ((s.ctxAt ctx).windows.map Prod.snd).find? fun w =>
    w.base.getLsbD 0 && decide (w.base.toNat % 2 ^ 48 / 2 ^ 21 * 2 ^ 21 ≤ low) &&
      decide (low < w.base.toNat % 2 ^ 48 / 2 ^ 21 * 2 ^ 21 + w.size.toNat % 65536 * 2 ^ 21)

/-- The 64-byte line of an address. -/
def lineOf (va : DWord) : DWord := va &&& ~~~(63 : DWord)

/-- A line that this package holds (R323). -/
def heldLine (s : State) (ctx : Nat) (va : DWord) : Option HeldLine :=
  s.fab.held.find? fun h => h.ctx == ctx && h.line == lineOf va

def State.dirAt (s : State) (line : Nat) : DirLine := Table.get DirLine.home line s.fab.dir
def State.setDir (s : State) (line : Nat) (d : DirLine) : State :=
  { s with fab := { s.fab with dir := Table.put line d s.fab.dir } }

/-- Where the byte of an access lies: in memory, in a home-owned line of a window, or in a line this package holds. -/
inductive Loc where
  | mem (pa : Nat)
  | home (pa : Nat)
  | held (ctx : Nat) (va : DWord)
  deriving DecidableEq, Repr

/-- Whether a line has lost its owner (R270). -/
def lostLine (s : State) (line : Nat) : Bool := match (s.dirAt line).state with | .lost _ => true | _ => false

/-- Why an access to poisoned words fails: a line that lost its owner is no uncorrectable error (R266, R270). -/
def poisonCause (s : State) (pa : Nat) : AccCause := if lostLine s (pa / 64) then .memerr else .poison

/-- The home of a window, as it translates lines for a party of this package in the context that the window's peer entry names (R323). -/
def Agent.home (a : Agent) (hctx : Nat) : Agent := dieAgent hctx (dieOf a.core) a.req

/-- Whether the directory lets an access of this package go on now: nobody else is being served (R324). -/
def DirLine.admits (d : DirLine) (req : Nat) : Bool := d.turn.isEmpty || d.turn.any fun t => t.req == req

/-- An access to a coherent window (R323, R324): served in memory when the home is this package and the line is home-owned,
in a held line when this package holds it; else it waits or gets its error reply. -/
def locateWindow (s : State) (a : Agent) (w : CohWindow) (va : DWord) (n : Nat) (k : Kind) : Except AccCause Loc :=
  match peerOf s a.ctx w.home.toNat with
  | none => .error .memerr
  | some (pkg, hctx) =>
    if s.fab.cohErrors.any fun e => e.ctx == a.ctx && e.line == lineOf va && e.req == a.req then .error .memerr
    else if pkg = s.fab.pkgid.toNat then
      match translate s (a.home hctx) va k with
      | .error .page => .error .wait
      | .error _ => .error .memerr
      | .ok pa =>
        if carved s a pa then .error .memerr
        else
          match (s.dirAt (pa / 64)).state with
          | .home =>
            if !(s.dirAt (pa / 64)).admits a.req then .error .wait
            else if poisonedAt s pa n then .error .poison
            else .ok (.home pa)
          | .lost _ => .error .memerr
          | _ => .error .wait
    else if (heldLine s a.ctx va).isSome then .ok (.held a.ctx va)
    else .error .wait

/-- Where an access to `n` bytes at a global address goes, or why it does not happen. -/
def locate (s : State) (a : Agent) (va : DWord) (n : Nat) (k : Kind) : Except AccCause Loc :=
  if !canonicalVa va then .error .prot
  else
    match windowAt s a.ctx va with
    | some w => locateWindow s a w va n k
    | none =>
      match translate s a va k with
      | .error c => .error c
      | .ok pa =>
        if carved s a pa then .error .memerr
        else if poisonedAt s pa n then .error (poisonCause s pa)
        else if pinned s a pa then .error .wait
        else .ok (.mem pa)

/-- The pinned line on which an access retries (R295). -/
def retryLine (s : State) (a : Agent) (va : DWord) (k : Kind) : List Nat :=
  if (windowAt s a.ctx va).isSome then []
  else
    match translate s a va k with
    | .ok pa => if pinned s a pa then [pa / 128] else []
    | .error _ => []

/-- The bytes at a place. -/
def readLoc (s : State) (l : Loc) (n : Nat) : List Byte :=
  match l with
  | .mem pa | .home pa => s.bytesAt pa n
  | .held ctx va =>
    match heldLine s ctx va with
    | some h => (h.data.drop (va.toNat % 64)).take n
    | none => List.replicate n 0

/-- Bytes laid over a list from an offset on. -/
def overlay : List Byte → Nat → List Byte → List Byte
  | [], _, _ => []
  | _ :: xs, 0, b :: bs => b :: overlay xs 0 bs
  | xs, 0, [] => xs
  | x :: xs, n + 1, bs => x :: overlay xs n bs

/-- Bytes written at a place. -/
def writeLoc (s : State) (l : Loc) (bs : List Byte) : State :=
  match l with
  | .mem pa | .home pa => s.putBytes pa bs
  | .held ctx va =>
    { s with fab := { s.fab with held := s.fab.held.map fun h =>
        if h.ctx == ctx && h.line == lineOf va then { h with data := overlay h.data (va.toNat % 64) bs } else h } }

/-- A gang's store leaves its line dirty until a wide release performs it (R294); window lines are never in an L1 (R323), and an NT
store allocates no line there (R277). -/
def State.markDirty (s : State) (a : Agent) (l : Loc) : State :=
  match a.gang, l with
  | some g, .mem pa =>
    if a.nt then s
    else if s.dirty.any fun d => d.line == pa / 128 && d.gang == g then s
    else { s with dirty := { line := pa / 128, gang := g } :: s.dirty }
  | _, _ => s

/-- Cache the translation of an address that was accessed: the party's, or, of a coherent window homed here, the home's (R284, R323) (log 42,
DESIGN CHOICE). -/
def State.noteVa (s : State) (a : Agent) (va : DWord) : State :=
  match windowAt s a.ctx va with
  | none => s.noteTlb a va
  | some w =>
    match peerOf s a.ctx w.home.toNat with
    | some (pkg, hctx) => if pkg = s.fab.pkgid.toNat then s.noteTlb (a.home hctx) va else s
    | none => s

/-- Read up to 16 naturally aligned bytes of global memory (R111, R112) (log 2, DEDUCED). -/
def readGlobal (s : State) (a : Agent) (va : DWord) (n : Nat) (k : Kind) : Except AccCause (List Byte) :=
  match locate s a va n k with
  | .error c => .error c
  | .ok l => .ok (readLoc s l n)

/-- Write up to 16 naturally aligned bytes of global memory (R111, R112) (log 2, DEDUCED). -/
def writeGlobal (s : State) (a : Agent) (va : DWord) (bs : List Byte) : Except AccCause State :=
  match locate s a va bs.length .write with
  | .error c => .error c
  | .ok l => .ok (((writeLoc s l bs).markDirty a l).noteVa a va)

/-- Read bytes of any length and alignment, byte by byte in ascending order, or the first address that fails and why. -/
def readRange (s : State) (a : Agent) (va : DWord) : Nat → Except (AccCause × DWord) (List Byte)
  | 0 => .ok []
  | n + 1 =>
    match readGlobal s a va 1 .read with
    | .error c => .error (c, va)
    | .ok b =>
      match readRange s a (va + 1) n with
      | .error e => .error e
      | .ok bs => .ok (b ++ bs)

/-- Write bytes of any length and alignment, byte by byte in ascending order; nothing is written when one byte fails. -/
def writeRange (s : State) (a : Agent) (va : DWord) : List Byte → Except (AccCause × DWord) State
  | [] => .ok s
  | b :: bs =>
    match writeGlobal s a va [b] with
    | .error c => .error (c, va)
    | .ok t => writeRange t a (va + 1) bs

/-- A party's request for a line (R324): the line joins the waiting requests once, and what the access will do to it is noted. -/
def State.askLine (s : State) (a : Agent) (va : DWord) (write : Bool) (w : Option LateWrite) : State :=
  match windowAt s a.ctx va with
  | none => s
  | some win =>
    let same := fun c : CohWait => c.ctx == a.ctx && c.line == lineOf va
    if s.fab.cohWaits.any same then
      let join := fun c : CohWait => if same c then { c with planned := c.planned ++ [(a.req, w)], write := c.write || write } else c
      { s with fab := { s.fab with cohWaits := s.fab.cohWaits.map join } }
    else
      { s with fab := { s.fab with cohWaits := s.fab.cohWaits ++
          [{ ctx := a.ctx, line := lineOf va, home := win.home.toNat, die := dieOf a.core, planned := [(a.req, w)],
             late := [], write := write, sent := false }] } }

/-- The Lamplighter that works for what belongs to a die: at the core of a slot that runs (R181, R287) (log 26, DEDUCED). -/
def State.lampOf (s : State) (ctx die : Nat) : Agent :=
  match (List.range 48).find? fun k => (s.coreAt (48 * die + k)).slot == .running with
  | some k => { lampAgent ctx with core := 48 * die + k, atCore := true }
  | none => { lampAgent ctx with core := 48 * die }

/-- The Lamplighter that serves the gangs of a core: that of its own slot, or another of the die while that does not run (R206, R268, R287)
(log 26, DEDUCED). -/
def State.lampNear (s : State) (ctx core : Nat) : Agent :=
  if (s.coreAt core).slot == .running then { lampAgent ctx with core := core, atCore := true } else s.lampOf ctx (dieOf core)

/-- The same for every page that some bytes lie on (log 42, DESIGN CHOICE). -/
def State.noteRange (s : State) (a : Agent) (va : DWord) (n : Nat) : State :=
  if n = 0 then s
  else (List.range ((va.toNat % 65536 + n - 1) / 65536 + 1)).foldl (fun s i => s.noteVa a (va + BitVec.ofNat 64 (65536 * i))) s

/-- The same for n rows. -/
def State.noteRows (s : State) (a : Agent) (n bytes : Nat) (row : Nat → DWord) : State :=
  (List.range n).foldl (fun s i => s.noteRange a (row i) bytes) s

/-! ### Scratchpad windows (R109, R110) -/

/-- What a scratch reference reaches (R110). -/
inductive ScrRef where
  | window (key : Nat)
  /-- the target exists but is not yet placed -/
  | absent
  /-- the target is off-core (R255) -/
  | offCore
  /-- GRPFAULT -/
  | groupFault
  deriving DecidableEq, Repr

/-- The gang's membership record of a group. -/
def Gang.membership (g : Gang) (group : Nat) : Option Membership := g.members.find? fun m => m.group == group

/-- Whether a gang is a live member of a group (R216, R217). -/
def Gang.inGroup (g : Gang) (group : Nat) : Bool :=
  match g.membership group with
  | some m => m.live
  | none => false

/-- Resolve the high word of a scratch reference for a gang (R110 steps 1 to 5, R217). -/
def resolveScratch (s : State) (key : Nat) (hi : Word) : ScrRef :=
  if hi = 0xFFFFFFFF then .window key
  else
    let g := s.gangAt key
    let group := hi.toNat / 2 ^ 24
    let m := hi.toNat % 2 ^ 24
    let tk := gangKey g.launch m
    let t := s.gangAt tk
    if !g.inGroup group || (s.launchAt g.launch).nextGang ≤ m then .groupFault
    else if (t.membership group).isNone then .groupFault
    else
      match t.place with
      | .unplaced => .absent
      | .gone => if t.windowFreed || dieOf t.core ≠ dieOf g.core then .groupFault else .window tk
      | .saved => .offCore
      | _ => if dieOf t.core ≠ dieOf g.core then .groupFault else .window tk

/-- Whether `n` bytes at an offset lie in a window (SPRANGE otherwise, R110). -/
def Gang.inWindow (g : Gang) (off n : Nat) : Bool := decide (off + n ≤ g.scratchSize)

/-- Whether one of the 8-byte words that `n` bytes of a window touch is poisoned (R266). -/
def scratchPoisoned (s : State) (key off n : Nat) : Bool :=
  (List.range ((off + n - 1) / 8 + 1 - off / 8)).any fun i => s.poison.contains (.scratch key (off / 8 + i))

/-- Bytes of a window. -/
def State.scratchBytes (s : State) (key off n : Nat) : List Byte := Table.getList 0 off n (s.gangAt key).scratch

/-- Bytes written into a window. -/
def State.putScratch (s : State) (key off : Nat) (bs : List Byte) : State :=
  s.updGang key fun g => { g with scratch := Table.setList 0 off bs g.scratch }

/-! ### Operand buffer (R156, R276) -/

/-- Bytes of the operand buffer that a core offers. -/
def Core.opbSize (c : Core) : Nat := c.opb * 131072

def State.opbufBytes (s : State) (core off n : Nat) : List Byte := Table.getList 0 off n (s.coreAt core).opbuf

def State.putOpbuf (s : State) (core off : Nat) (bs : List Byte) : State :=
  s.updCore core fun c => { c with opbuf := Table.setList 0 off bs c.opbuf }

/-! ### Pins and releases (R290, R294, R295) -/

/-- The pin limit of a context in ns (R296). -/
def pinLimit (s : State) (ctx : Nat) : Nat := max 1000 (min 10000000 (s.ctxAt ctx).pinlim.toNat)

/-- Whether two cores share one L1: they are one core, or cores of a fused dome (R277). -/
def State.oneL1 (s : State) (a b : Nat) : Bool := a == b || (domeOf a == domeOf b && (s.domeAt (domeOf a)).fused)

/-- The L1 of a core performs lines at system scope: no gang's bytes in them are dirty any more (R294). -/
def State.perform (s : State) (core : Nat) (lines : Nat → Bool) : State :=
  { s with dirty := s.dirty.filter fun d => !(lines d.line && s.oneL1 core (s.gangAt d.gang).core) }

/-- Every pin on a line ends, and each holder's L1 performs it (R295). -/
def State.endPins (s : State) (line : Nat) : State :=
  let holders := (s.pins.filter fun p => p.line == line).map Pin.gang
  holders.foldl (fun s k => s.perform (s.gangAt k).core (· == line)) { s with pins := s.pins.filter fun p => p.line != line }

/-- A release of a gang at a scope, over the lines it covers (R294): wide scopes perform the dirty lines and end the gang's pins on them,
gang and dome scope pin them (log 2, DEDUCED). -/
def State.release (s : State) (key scope : Nat) (covers : Nat → Bool) : State :=
  let mine := (s.dirty.filter fun d => d.gang == key && covers d.line).map DirtyLine.line
  if scope ≤ 2 then
    let fresh := mine.filter fun l => !(s.pins.any fun p => p.line == l && p.gang == key && p.scope == scope)
    { s with pins := s.pins ++ fresh.map fun l =>
        { line := l, gang := key, scope := scope, til := s.ran + pinLimit s (s.ctxNum key) } }
  else
    let held := ((s.pins.filter fun p => p.gang == key && covers p.line).map Pin.line).eraseDups
    held.foldl State.endPins (s.perform (s.gangAt key).core mine.contains)

/-- A release that covers every write of the gang (R290). -/
def State.releaseAll (s : State) (key scope : Nat) : State := s.release key scope fun _ => true

/-- Every dirty line of a gang is performed and its pins end: retirement, kill, pre-emption (R295, R302, R304) (log 2, DEDUCED). -/
def State.performAll (s : State) (key : Nat) : State := s.releaseAll key 5

/-- The L1 of a core gives up lines: dirty ones are performed at system scope, and pins on them end (R275, R294). -/
def State.evictLines (s : State) (core : Nat) (lines : Nat → Bool) : State :=
  let mine := s.pins.filter fun p => lines p.line && s.oneL1 core (s.gangAt p.gang).core
  ((mine.map Pin.line).eraseDups.foldl State.endPins s).perform core lines

end Sys2Proof.Machine
end

