-- ==== Sys2Proof/Machine/Dump.lean ====
section
/-!
DEFINITION. Sys2Proof/Machine/Dump.lean: the bytes of a dump (R259 to R261): header, cause entries, gang records.
-/

namespace Sys2Proof.Machine

/-- A tile's rows, K-steps and type, from its descriptor (R145). -/
def Tile.rows (t : Tile) : Nat := t.desc.toNat % 512
def Tile.type (t : Tile) : Nat := t.desc.toNat / 512 % 16
def Tile.ksteps (t : Tile) : Nat := t.desc.toNat / 8192 % 65536

/-- The banks a gang owns on its dome (R144). -/
def State.ownedBanks (s : State) (key : Nat) : List Nat :=
  (List.range 8).filter fun b => (s.bankAt (domeOf (s.gangAt key).core) b).owner == some key

/-- Outstanding operations of a gang in an engine class (R128). -/
def State.opsOf (s : State) (key cls : Nat) : List Op := s.ops.filter fun o => o.gang == key && o.cls == cls

/-- Bits 31:0 of the JMASK sel 1 word: home, snuffed, freed (R63). -/
def JSet.word (j : JSet) : Word :=
  BitVec.ofNat 32 (j.home % 256 + (if j.snuffed then 256 else 0) + (if j.freed then 512 else 0))

/-- The wait kind of a lane in records: 0 none, 1 JWAIT, 2 rendezvous, 3 cross-lane, 4 external (R214, R261). -/
def Wait.kind : Wait → Nat
  | .ready => 0
  | .jwait _ _ => 1
  | .rendezvous => 2
  | .cross _ => 3
  | _ => 4

/-- Whether a lane is restartable (R249). -/
def Lane.restartable (x : Lane) : Bool := x.region.isSome && !x.spoiled

/-- The pieces of a spill area, and where it begins; 0 where there is none (R205, R261). -/
def Ctx.area (c : Ctx) (owner : Nat) : List Nat := (c.areas.filter fun x => x.1 == owner).map Prod.snd
def Ctx.pieceAt (c : Ctx) (piece : Nat) : DWord := c.splbase + BitVec.ofNat 64 (4096 * piece)
def Ctx.areaAt (c : Ctx) (owner : Nat) : DWord := match c.area owner with | p :: _ => c.pieceAt p | [] => 0

/-- The 384 bytes of a lane, with the place of its spill area (R261) (log 36, DEDUCED). -/
def laneRecord (area : DWord) (x : Lane) : List Byte :=
  let status := (if x.live then 1 else 0) + (if x.restartable then 2 else 0) + x.wait.kind * 4
  bytesLE 4 x.pc ++ bytesLE 1 x.depth ++ bytesLE 1 status ++ bytesLE 2 0 ++ bytesLE 4 x.wbase ++ bytesLE 4 x.rbase ++
    bytesLE 4 (match x.region with | some p => p | none => 0xFFFFFFFF) ++ bytesLE 8 area.toNat ++
    bytesLE 4 x.links.length ++
    bytesLE 12 (x.preds ||| 1).toNat ++ bytesLE 84 0 ++
    (List.range 64).flatMap fun n => bytesLE 4 (x.vreg n).toNat

/-- The words of a bank, row by row (R261). -/
def bankBytes (words : Table Word) : List Byte := (List.range 8192).flatMap fun i => bytesLE 4 (Table.get 0 i words).toNat

/-- The banks of a gang with their words: those it owns on its dome, or those saved with it (R253, R261). -/
def State.gangBanks (s : State) (key : Nat) : List (Nat × Table Word) :=
  let g := s.gangAt key
  if g.place == .saved then g.savedBanks
  else (s.ownedBanks key).map fun b => (b, (s.bankAt (domeOf g.core) b).words)

/-- One gang record (R261); the owned banks at byte 16 are a mask, bit b for bank b (log 49, DESIGN CHOICE). `fatal` tells whether it took the fatal fault (log 36, DEDUCED). -/
def gangRecord (s : State) (key : Nat) (fatal : Bool) : List Byte :=
  let g := s.gangAt key
  let banks := s.gangBanks key
  let w := g.scratchSize
  let parked := match g.park with | some _ => 1 | none => 0
  let off := match g.place with | .saved => 4 | _ => 0
  let flags := parked + (if g.wrap then 2 else 0) + off + (if fatal then 8 else 0)
  let size := 13184 + 32768 * banks.length + w
  let groups := (List.range 4).flatMap fun i =>
    bytesLE 1 (match (g.members.filter Membership.live)[i]? with | some m => m.group | none => 0xFF)
  let counters := (List.range 4).flatMap fun c => bytesLE 2 (s.opsOf key c).length
  bytesLE 4 g.num ++ bytesLE 1 g.role ++ bytesLE 1 (g.dstack / 32) ++ bytesLE 1 g.band ++ bytesLE 1 flags ++
    bytesLE 4 g.liveMask.toNat ++ bytesLE 4 size ++ bytesLE 4 (maskOf (banks.map Prod.fst)).toNat ++ bytesLE 4 w ++
    bytesLE 4 g.expmix.toNat ++ bytesLE 4 g.fptrap.toNat ++ bytesLE 4 g.fpflag.toNat ++ counters ++ groups ++
    bytesLE 16 0 ++
    ((List.range 96).flatMap fun n => bytesLE 4 (g.sreg n).toNat) ++
    ((List.range 16).flatMap fun n => bytesLE 8 (g.qreg n).toNat) ++
    ((List.range 16).flatMap fun k =>
      let j := g.jset k
      bytesLE 4 j.member.toNat ++ bytesLE 4 j.waiting.toNat ++ bytesLE 4 j.word.toNat) ++
    ((List.range 16).flatMap fun k =>
      let t := g.tile k
      bytesLE 4 t.off.toNat ++ bytesLE 4 t.desc.toNat) ++
    ((List.range 32).flatMap fun l => laneRecord ((s.ctxAt (s.ctxNum key)).areaAt (32 * key + l)) (g.lane l)) ++
    (banks.flatMap fun b => bankBytes b.2) ++
    Table.getList 0 0 w g.scratch

/-- A cause entry (R260). -/
def causeBytes (c : Cause) : List Byte :=
  bytesLE 1 c.code ++ bytesLE 1 c.source ++ bytesLE 1 ((if c.trigger then 1 else 0) + (if c.issuerGone then 2 else 0)) ++
    bytesLE 1 c.detail ++ bytesLE 4 c.gang ++ bytesLE 4 c.pc ++ bytesLE 4 c.unit ++ bytesLE 8 c.addr.toNat ++ bytesLE 8 c.eph

/-- The gangs of a launch that still exist, in ascending number. -/
def State.gangsOf (s : State) (launch : Nat) : List Nat :=
  (s.gangs.filter fun kg => kg.2.launch == launch && !kg.2.lamp && kg.2.place != .gone).map Prod.fst

/-- Gang records that fit in the space left, and whether some are left out (R259): the first that does not fit ends the list
(log 49, DESIGN CHOICE). -/
def takeRecords : Nat → List (List Byte) → List (List Byte) × Bool
  | _, [] => ([], false)
  | room, r :: rs =>
    if r.length ≤ room then
      let (kept, cut) := takeRecords (room - r.length) rs
      (r :: kept, cut)
    else ([], true)

/-- The whole dump of a launch (R259) (log 36, DEDUCED). -/
def dumpBytes (s : State) (launch : Nat) : List Byte :=
  let l := s.launchAt launch
  let c := s.ctxAt l.ctx
  let causes := l.causes.take 16
  let room := 2 ^ min 30 c.dumpsize.toNat - (128 + 32 * causes.length)
  let (recs, cut) := takeRecords room ((s.gangsOf launch).map fun k => gangRecord s k (l.fatalBy == some k))
  let body := (causes.flatMap causeBytes) ++ recs.flatten
  let flags := (if cut then 1 else 0) + (if l.causesDropped then 2 else 0)
  bytesLE 4 0x504D5544 ++ bytesLE 2 1 ++ bytesLE 1 causes.length ++ bytesLE 1 flags ++ bytesLE 4 (128 + body.length) ++
    bytesLE 4 recs.length ++ bytesLE 8 l.fatalAt ++ bytesLE 8 l.code.base.toNat ++ bytesLE 8 l.pkt.karg.toNat ++
    bytesLE 8 l.pkt.signal.toNat ++ bytesLE 8 l.pkt.vrec.toNat ++ bytesLE 1 l.ctx ++ bytesLE 1 l.die ++
    bytesLE 2 l.queue ++ bytesLE 4 l.lerr.toNat ++ bytesLE 64 0 ++ body

end Sys2Proof.Machine
end

