-- ==== Sys2Proof/Machine/Flags.lean ====
section
/-!
DEFINITION. Sys2Proof/Machine/Flags.lean: the arithmetic flags (R82, R228, R229) and the lookahead windows that hold results and
flags back (R26 to R28).
-/

namespace Sys2Proof.Machine

/-! ### Flag bits, in the order of FPFLAG and FPTRAP (R228) -/

def flagInvalid : BitVec 5 := 1
def flagDivZero : BitVec 5 := 2
def flagOverflow : BitVec 5 := 4
def flagUnderflow : BitVec 5 := 8
def flagInexact : BitVec 5 := 16

/-- Flags that a word of the chain raises enter FPFLAG at issue, and count for the chain's arithmetic trap (R82, R229). -/
def State.raise (s : State) (f : BitVec 5) : State :=
  let t := s.updCur fun g => { g with fpflag := g.fpflag ||| f }
  { t with issue := { t.issue with flags := t.issue.flags ||| f, raised := t.issue.raised ++ [(t.issue.pc, f)] } }

/-- Class 7 flags have entered FPFLAG while the chain issues; `own` are those of the chain's own words (R229). -/
def State.noteEntered (s : State) (f own : BitVec 5) : State :=
  { s with issue := { s.issue with entered := s.issue.entered ||| f, kept := s.issue.kept ||| own } }

/-- Software clears sticky flags by writing 1; flags that the same chain raises come after (R228, R229). -/
def State.clearFlags (s : State) (w : Word) : State :=
  s.updCur fun g => { g with fpflag := (g.fpflag &&& ~~~(w.setWidth 5)) ||| s.issue.flags ||| s.issue.kept }

/-! ### Windows (R26) -/

/-- Commit the results of a window of a lane, under the window base that its word found. -/
def Lane.apply (x : Lane) (w : Window) : Lane :=
  let x := w.vregs.foldl (fun x nv => x.setVAt w.base nv.1 nv.2) x
  w.preds.foldl (fun x nb => x.setPred nb.1 nb.2) x

/-- Commit a class 9 window. -/
def Gang.applyS (g : Gang) (w : SWindow) : Gang := w.sregs.foldl (fun g nv => g.setS nv.1 nv.2) g

/-- Close the windows of a lane that satisfy a test, oldest first (R26). -/
def Lane.closeWhere (x : Lane) (p : Window → Bool) : Lane :=
  let y := (x.wins.filter p).foldl (fun y w => y.apply w) x
  { y with wins := x.wins.filter fun w => !p w }

/-- The flags that closing those windows of some lanes lets into FPFLAG (R229). -/
def Gang.flagsWhere (g : Gang) (m : LaneMask) (p : Window → Bool) : BitVec 5 :=
  (lanesOf m).foldl (fun f l => ((g.lane l).wins.filter p).foldl (fun f w => f ||| w.flags) f) 0

/-- Close windows of lanes and class 9 windows that satisfy tests; class 7 flags enter FPFLAG (R26, R229). -/
def Gang.closeWhere (g : Gang) (m : LaneMask) (p : Window → Bool) (q : SWindow → Bool) : Gang :=
  let f := g.flagsWhere m p
  let g := g.updLanes m fun _ x => x.closeWhere p
  let ws := g.swins.filter q
  let g := ws.foldl Gang.applyS g
  { g with swins := g.swins.filter (fun w => !q w), fpflag := g.fpflag ||| f }

/-- Close every open window of some lanes, class 9 windows that one of them issued included (R27, R28). -/
def Gang.closeAll (g : Gang) (m : LaneMask) : Gang :=
  g.closeWhere m (fun _ => true) fun w => w.lanes &&& m != 0

/-- Windows that have counted all their instructions close before the next instruction issues (R26) (log 11, DEDUCED). -/
def Gang.closeCounted (g : Gang) (m : LaneMask) : Gang :=
  g.closeWhere m (fun w => w.left == 0) fun w => w.left == 0

/-- Discard every open window (R32, R358) (log 11, DEDUCED). -/
def Gang.discardWindows (g : Gang) : Gang :=
  { g.updLanes g.liveMask (fun _ x => { x with wins := [] }) with swins := [] }

/-- One more instruction issues with some lanes: their open windows count it, and so does every class 9 window (R26). -/
def Gang.countInstr (g : Gang) (m : LaneMask) : Gang :=
  let g := g.updLanes m fun _ x => { x with wins := x.wins.map fun w => { w with left := w.left - 1 } }
  { g with swins := g.swins.map fun w => { w with left := w.left - 1 } }

/-- The number of open windows that count for a lane (R28). -/
def Gang.openCount (g : Gang) (l : Nat) : Nat :=
  (g.lane l).wins.length + (g.swins.filter fun w => w.lanes.getLsbD l).length

/-- The words of a lane's windows that raised flags, with their offsets, oldest first (R229, R245). -/
def Gang.raisedWhere (g : Gang) (m : LaneMask) (p : Window → Bool) : List (Nat × BitVec 5) :=
  (lanesOf m).flatMap fun l => ((g.lane l).wins.filter p).map fun w => (w.off, w.flags)

/-- The results of a class 7 or 8 word in one lane: with L = 0 and no trap to take at the commit they are committed at once,
which no later instruction can tell from a commit before it issues, since the rest of the chain reads what stood before the chain
(R14); else a window opens (R26, R27, R229). A chain whose lanes a trap has taken away commits at once. -/
def State.openWindow (s : State) (l look : Nat) (vs : List (Nat × Word)) (ps : List (Nat × Bool)) (f : BitVec 5) : State :=
  let seven := s.issue.word.toNat / 2 ^ 27 % 16 == 7
  let w : Window :=
    { seq := s.cur.windows, off := s.issue.pc, base := (s.srcLane l).wbase, left := look, seven := seven, vregs := vs, preds := ps,
      flags := f }
  if s.issue.diverted || (look == 0 && f &&& s.cur.fptrap == 0) then
    (s.updCur fun g => { g.updLane l (fun x => x.apply w) with fpflag := g.fpflag ||| f }).noteEntered f f
  else s.updCur fun g => g.updLane l fun x => { x with wins := x.wins ++ [w] }

/-- The window of an issuing lane that the guard does not pass: its vector registers keep what they hold, or become 0 with z = 1, its
predicates keep their bits; the lane has issued the word all the same (R26, R28) (log 11, DEDUCED). -/
def State.openIdle (s : State) (l look : Nat) (ns ps : List Nat) : State :=
  let x := { s.cur.lane l with wbase := (s.srcLane l).wbase }
  s.openWindow l look (ns.map fun n => (n, if s.issue.pfx.z = 1 then 0 else x.vreg n)) (ps.map fun n => (n, x.pred n)) 0

/-- The scalar results of a class 9 word (R26). -/
def State.openSWindow (s : State) (look : Nat) (vs : List (Nat × Word)) : State :=
  let w : SWindow := { seq := s.cur.windows, left := look, sregs := vs, lanes := s.issue.lanes }
  if s.issue.diverted || look == 0 then s.updCur fun g => g.applyS w
  else s.updCur fun g => { g with swins := g.swins ++ [w] }

end Sys2Proof.Machine
end

