-- ==== Sys2Proof/Machine/Ops.lean ====
section
/-!
DEFINITION. Sys2Proof/Machine/Ops.lean: the operations that instructions and events share: completion of rejoin sets, faults and
parks, owner queues, the end of a gang, fatal faults, illegal encodings, calls and returns, taking a trap, snuffs, and
the saving of a gang.
-/

namespace Sys2Proof.Machine

/-! ### The time base (R349, R351) -/

/-- ADJ as it acts: at most 2^29 either way. -/
def Clock.rate (c : Clock) : Int := max (-(2 ^ 29)) (min (2 ^ 29) c.adj.toInt)

/-- EPH after some cycles of the time-base clock; the fraction is in units of 1 / (7 × 2^40) ns (log 37, DESIGN CHOICE). -/
def Clock.advance (c : Clock) (cycles : Nat) : Clock :=
  let total := c.frac + (cycles * 4) * (2 ^ 40 + c.rate).toNat
  { c with eph := c.eph + BitVec.ofNat 64 (total / (7 * 2 ^ 40)), frac := total % (7 * 2 ^ 40), cycles := c.cycles + cycles }

/-! ### Rejoin sets (R57) -/

/-- The lanes that wait at a JWAIT on set k resume after their chains. -/
def Gang.releaseSet (g : Gang) (k : Nat) : Gang :=
  let j := g.jset k
  let g := g.updLanes j.waiting fun _ x =>
    match x.wait with
    | .jwait set resume => if set = k then { x with wait := .ready, pc := resume } else x
    | _ => x
  g.setJ k { g.jset k with waiting := 0 }

/-- The completion procedure of a set (R57). -/
def Gang.complete (g : Gang) (k : Nat) : Gang :=
  let j := g.jset k
  let lm := j.member &&& g.liveMask
  if lm != 0 && j.waiting &&& lm == lm then g.releaseSet k else g

/-- Completion of every set. -/
def Gang.completeAll (g : Gang) : Gang := (List.range 16).foldl Gang.complete g

/-- Completion of the sets whose member mask an operation has changed (R54, R57, R62). -/
def Gang.completeChanged (old g : Gang) : Gang :=
  (List.range 16).foldl (fun h k => if (old.jset k).member = (g.jset k).member then h else h.complete k) g

/-- A use of set k by a lane is orphaned (R61). -/
def Gang.orphaned (g : Gang) (k l : Nat) : Bool := (g.jset k).freed || decide ((g.lane l).depth < (g.jset k).home)

/-! ### Tickets and counters (R181, R184) -/

/-- The agents of a die that can take a ticket: running slots without one (R181, R267, R268). -/
def State.idleAgents (s : State) (die : Nat) : List Nat :=
  let d := s.dieAt die
  if d.fenced then []
  else ((List.range 48).map fun k => 48 * die + k).filter fun c =>
    (s.coreAt c).slot == .running && !d.tickets.any fun t => t.agent == some c

/-- The lease of a ticket, in ns (log 26, DEDUCED). -/
def leaseTime : Nat := 50000

/-- Whether an agent may take a ticket: the slot of a gang's core serves the gang, or another agent while that slot does not run (R206,
R268) (log 26, DEDUCED). -/
def State.serves (s : State) (agent : Nat) (t : Ticket) : Bool :=
  match t.job with
  | .service key => (s.gangAt key).core == agent || (s.coreAt (s.gangAt key).core).slot != .running
  | _ => true

/-- Tickets in ascending number, each unclaimed one taken by the first idle agent that may (R181) (log 26, DEDUCED). -/
def claimTickets (fit : Nat → Ticket → Bool) (til : Nat) : List Nat → List Ticket → List Ticket
  | _, [] => []
  | cs, t :: ts =>
    match if t.agent.isNone then cs.find? fun c => fit c t else none with
    | some c => { t with agent := some c, til := til } :: claimTickets fit til (cs.filter fun k => k != c) ts
    | none => t :: claimTickets fit til cs ts

/-- Idle agents of a die claim its lowest unclaimed tickets (R181). -/
def State.claim (s : State) (die : Nat) : State :=
  if (s.dieAt die).tickets.all fun t => t.agent.isSome then s
  else
    let agents := s.idleAgents die
    s.updDie die fun d => { d with tickets := claimTickets s.serves (s.ran + leaseTime) agents d.tickets }

/-- Post a ticket for a job of a die's Lamplighters (R181) (log 26, DEDUCED). -/
def State.post (s : State) (die : Nat) (j : Job) : State :=
  if (s.dieAt die).tickets.any fun t => t.job == j then s
  else
    (s.updDie die fun d =>
      { d with nextTicket := d.nextTicket + 1,
               tickets := d.tickets ++ [{ num := d.nextTicket, job := j, agent := none, til := 0, taken := false }] }).claim die

/-- Each step of a job renews the lease of its ticket (R181). -/
def State.renew (s : State) (die : Nat) (j : Job) : State :=
  s.updDie die fun d =>
    { d with tickets := d.tickets.map fun t => if t.job == j && t.agent.isSome then { t with til := s.ran + leaseTime } else t }

/-- Whether the Lamplighters of a die work: the die is not fenced and one of its slots runs (R181, R267). -/
def State.lampsOn (s : State) (die : Nat) : Bool :=
  !(s.dieAt die).fenced && (List.range 48).any fun k => (s.coreAt (48 * die + k)).slot == .running

/-- Whether an agent that runs holds the ticket of a job (R181). -/
def State.works (s : State) (die : Nat) (j : Job) : Bool :=
  !(s.dieAt die).fenced && (s.dieAt die).tickets.any fun t =>
    t.job == j && (match t.agent with | some c => (s.coreAt c).slot == .running | none => false)

/-- Take a job's ticket off the list once it is done. -/
def State.unpost (s : State) (die : Nat) (j : Job) : State :=
  if (s.dieAt die).tickets.any fun t => t.job == j then
    (s.updDie die fun d => { d with tickets := d.tickets.filter fun t => t.job != j }).claim die
  else s

/-- Placement tickets go once every gang of their batch has been placed (R181). -/
def State.dropPlaced (s : State) (die : Nat) : State :=
  let done := fun t : Ticket =>
    match t.job with
    | .placement first n => (List.range n).all fun i => (s.gangAt (first + i)).place != .unplaced
    | _ => false
  if (s.dieAt die).tickets.any done then
    (s.updDie die fun d => { d with tickets := d.tickets.filter fun t => !done t }).claim die
  else s

/-- Raise the spawn-tree counter (R184). -/
def State.spawnUp (s : State) (launch n : Nat) : State := s.updLaunch launch fun l => { l with spawn := l.spawn + n }

/-- Lower the spawn-tree counter; at 0 the completion ticket is posted (R184). -/
def State.spawnDown (s : State) (launch : Nat) : State :=
  let t := s.updLaunch launch fun l => { l with spawn := l.spawn - 1 }
  if (t.launchAt launch).spawn = 0 then t.post (t.launchAt launch).die (.completion launch) else t

/-! ### The fault queue (R193) -/

/-- Whether the fault queue has room for a record: once FQBASE and FQSIZE are both set (R193). -/
def State.faultRoom (s : State) : Bool :=
  s.pkg.fqbase != 0 && s.pkg.fqsize != 0 && decide ((s.pkg.fqhead - s.pkg.fqtail).toNat < 2 ^ s.pkg.fqsize)

/-- The 32 bytes of a fault record. -/
def faultBytes (f : FaultRec) : List Byte :=
  bytesLE 8 f.va.toNat ++ bytesLE 1 f.ctx ++ bytesLE 1 f.kind ++ bytesLE 1 f.src ++ bytesLE 1 0 ++ bytesLE 4 f.id ++ bytesLE 16 0

/-- Write a record and advance the head, while there is room and no pin holds the line (R193, R295). -/
def State.postFault (s : State) (f : FaultRec) : State :=
  let pa := s.pkg.fqbase.toNat + 32 * (s.pkg.fqhead.toNat % 2 ^ s.pkg.fqsize)
  if f.posted || !s.faultRoom || pinned s (dieAgent 0 0 (2 ^ 62)) pa then s
  else
    let t := s.putBytes pa (faultBytes f)
    { t with pkg := { t.pkg with
        fqhead := t.pkg.fqhead + 1,
        faults := t.pkg.faults.map fun x => if x.id = f.id then { x with posted := true } else x } }

/-- Post the records that wait for room or for a pin, in order. -/
def State.postFaults (s : State) : State := s.pkg.faults.foldl State.postFault s

/-- A new fault of a gang, an engine operation or another source; its identifier is the counter's value. -/
def State.newFault (s : State) (ctx : Nat) (va : DWord) (kind src : Nat) (op gang : Option Nat) (pc lane : Nat) : State :=
  let f : FaultRec := { id := s.pkg.nextFault, ctx := ctx, va := va, kind := kind, src := src, posted := false, pc := pc, lane := lane,
                        op := op, gang := gang, job := none }
  let t := { s with pkg := { s.pkg with faults := s.pkg.faults ++ [f], nextFault := (s.pkg.nextFault + 1) % 2 ^ 32 } }
  t.postFaults

/-- A new fault of a Lamplighter's job (R40, R184, R193); a job has one at a time. -/
def State.jobFault (s : State) (j : Job) (ctx : Nat) (va : DWord) (k : Kind) : State :=
  if s.pkg.faults.any fun f => f.job == some j then s
  else
    let f : FaultRec := { id := s.pkg.nextFault, ctx := ctx, va := va, kind := k.code, src := 5, posted := false, pc := 0, lane := 0,
                          op := none, gang := none, job := some j }
    let t := { s with pkg := { s.pkg with faults := s.pkg.faults ++ [f], nextFault := (s.pkg.nextFault + 1) % 2 ^ 32 } }
    t.postFaults

/-- Whether a job waits for a fault to be served. -/
def State.jobWaits (s : State) (j : Job) : Bool := s.pkg.faults.any fun f => f.job == some j

/-! ### Owner queues of banks (R144, R335) -/

/-- The owner-queue entry of a twin job's operation (R340). -/
def twinKey (op : Nat) : Nat := 2 ^ 61 + op

/-- Whether an entry of an owner queue can take the bank: its gang stands on a core. A pre-empted one keeps its place and is passed over
(R141, R335) (log 28, DEDUCED). -/
def State.takesBank (s : State) (h : Nat) : Bool :=
  if 2 ^ 61 ≤ h then
    match s.ops.find? fun o => o.id == h - 2 ^ 61 with
    | some o => (s.gangAt o.gang).place != .saved
    | none => true
  else (s.gangAt h).place != .saved

/-- A free bank goes to the first in its queue that can take it: a gang that waits at MACQ, or the issuer of a twin job. -/
def State.bankNext (s : State) (dome b : Nat) : State :=
  let k := s.bankAt dome b
  match k.owner, k.queue.find? s.takesBank with
  | none, some h =>
    let rest := k.queue.erase h
    if 2 ^ 61 ≤ h then
      match s.ops.find? fun o => o.id == h - 2 ^ 61 with
      | some o =>
        let s := s.setBank dome b { k with owner := some o.gang, heldFor := some o.id, queue := rest, left := none }
        { s with ops := s.ops.map fun x => if x.id = o.id then { x with partners := x.partners ++ [b] } else x }
      | none => s.setBank dome b { k with queue := rest }
    else
      let s := s.setBank dome b { k with owner := some h, queue := rest, left := none }
      s.updGang h fun g => { g with granted := b :: g.granted }
  | _, _ => s

/-- The owner gives a bank up; its contents stay (R144). -/
def State.freeBank (s : State) (dome b : Nat) : State :=
  (s.setBank dome b { s.bankAt dome b with owner := none, heldFor := none, release := none, left := none }).bankNext dome b

/-- A gang or a twin job that leaves the machine gives a bank up: its launch can still drain it until another gang takes it (R144, R153,
R329) (log 44, DEDUCED). -/
def State.leaveBank (s : State) (dome b : Nat) : State :=
  let k := s.bankAt dome b
  let launch := k.owner.map fun o => (s.gangAt o).launch
  (s.setBank dome b { k with owner := none, heldFor := none, release := none, left := launch }).bankNext dome b

/-- The banks an MTX operation works on: one bank, the banks of a job's card, or every bank of the dome while the card is
unread (R147). -/
def Op.banks (o : Op) : List Nat :=
  match o.kind with
  | .mma _ b _ _ _ => [b]
  | .mfill b _ _ _ => [b]
  | .mzero b _ _ => [b]
  | .mjob _ _ =>
    match o.card with
    | some c => c.banks
    | none => [0, 1, 2, 3, 4, 5, 6, 7]
  | _ => []

/-- Whether a synchronous instruction drains a bank in the bank's order (R333). -/
def SyncOp.drains (y : SyncOp) (b : Nat) : Bool :=
  y.ordered && (match y.kind with | .mdrain k _ _ _ _ => k == b | _ => false)

/-- The rank of the next synchronous instruction (R336). -/
def State.nextRank (s : State) : Nat := 1 + (s.gangs.flatMap fun kg => kg.2.syncs.map SyncOp.rank).foldl max 0

/-- A synchronous instruction of the issuing lanes as it begins. -/
def State.newSync (s : State) (k : SyncKind) (ordered : Bool) : SyncOp :=
  { kind := k, lanes := s.issue.lanes, rows := 0, ordered := ordered, ready := s.clock.cycles, rank := s.nextRank }

/-- The bank that a synchronous instruction drains. -/
def SyncOp.bank (y : SyncOp) : Option Nat := match y.kind with | .mdrain b _ _ _ _ => some b | .result _ _ => none

/-- Whether a drain comes before another at the port: ready earlier, then the lower bank, then the earlier issue (R336). -/
def SyncOp.first (y z : SyncOp) : Bool :=
  decide (y.ready < z.ready) || (y.ready == z.ready && (decide (y.bank.getD 0 < z.bank.getD 0) || (y.bank == z.bank && decide (y.rank < z.rank))))

/-- Whether a drain by an earlier owner of a bank still stands in its order: that of a gang other than the owner (R333). -/
def State.oldDrains (s : State) (owner dome b : Nat) : Bool :=
  s.gangs.any fun kg =>
    kg.1 != owner && (match kg.2.place with | .resident _ | .parked _ => true | _ => false) && domeOf kg.2.core == dome &&
      ((kg.2.syncs.any fun y => y.drains b) ||
        (lanesOf kg.2.liveMask).any fun l => match (kg.2.lane l).wait with | .drainOrder k _ _ => k == b | _ => false)

/-- Operations of a gang on a bank that stand before a place in its order. -/
def State.opsBefore (s : State) (key b place : Nat) : Bool :=
  s.ops.any fun o => o.gang == key && o.cls == 1 && decide (o.id < place) && o.banks.contains b

/-- Whether a gang has an outstanding MTX operation on a bank. -/
def State.bankBusy (s : State) (key b : Nat) : Bool := s.ops.any fun o => o.gang == key && o.cls == 1 && o.banks.contains b

/-- Release the banks of a gang that is gone, each once its MTX operations there have retired (R144). -/
def State.releaseBanks (s : State) (key : Nat) : State :=
  let dome := domeOf (s.gangAt key).core
  (s.ownedBanks key).foldl (fun s b => if s.bankBusy key b then s else s.leaveBank dome b) s

/-- A gang that leaves without executing its MACQ gives back banks that its wait was just given (R141, R144). -/
def State.dropGrants (s : State) (key : Nat) : State :=
  let dome := domeOf (s.gangAt key).core
  let s := (s.gangAt key).granted.foldl (fun s b => s.freeBank dome b) s
  s.updGang key fun g => { g with granted := [] }

/-- A gang leaves every owner queue of its dome. -/
def State.leaveQueues (s : State) (key : Nat) : State :=
  let dome := domeOf (s.gangAt key).core
  (List.range 8).foldl (fun s b => s.updBank dome b fun k => { k with queue := k.queue.filter fun h => h != key }) s

/-! ### The spill and save pool (R205, R206, R264) -/

/-- 4 KiB pieces that hold some bytes (R205, R264). -/
def pieces (n : Nat) : Nat := (n + 4095) / 4096

/-- Bytes of a context's pool (R264); 0 while it has none. -/
def Ctx.poolBytes (c : Ctx) : Nat := if c.splbase = 0 then 0 else 2 ^ min 36 c.splsize.toNat

/-- The pool space in use after some lanes change. -/
def spillDelta (old new : Gang) (m : LaneMask) : Int :=
  ((lanesOf m).map fun l => (pieces (new.lane l).spilled : Int) - pieces (old.lane l).spilled).foldl (· + ·) 0

/-- Take or give back pool pieces; nothing when the pool has too few (R206) (log 13, DEDUCED). -/
def State.takePieces (s : State) (ctx : Nat) (n : Int) : Option State :=
  let c := s.ctxAt ctx
  let used : Int := c.splused + 4096 * n
  if (c.poolBytes : Int) < used && 0 < n then none
  else some (s.setCtx ctx { c with splused := used.toNat })

/-- The spilled registers of a lane, ascending, then its spilled link entries, the oldest first (R205) (log 7, DESIGN CHOICE). -/
def Lane.spillImage (x : Lane) : List Byte :=
  ((List.range x.rbase).flatMap fun i => bytesLE 4 (Table.get 0 i x.stack).toNat) ++
    (x.links.drop x.resident).reverse.flatMap fun k =>
      bytesLE 4 k.off ++ bytesLE 1 k.shift ++ bytesLE 1 (if k.trap then 1 else 0) ++ bytesLE 2 0

/-- The pieces of a context's pool that no spill area holds (R205, R264). -/
def Ctx.freePieces (c : Ctx) : List Nat := (List.range (c.poolBytes / 4096)).filter fun i => !c.areas.any fun x => x.2 == i

/-- A spill area takes n more pieces, each some free one (R205) (log 7, DESIGN CHOICE). -/
def State.growArea (s : State) (ctx owner : Nat) : Nat → State
  | 0 => s
  | n + 1 =>
    let free := (s.ctxAt ctx).freePieces
    let piece := free.getD (Config.poolPiece s.free % max 1 free.length) 0
    (({ s with free := s.free + 1 } : State).updCtx ctx fun c => { c with areas := c.areas ++ [(owner, piece)] }).growArea ctx owner n

/-- A spill area has n pieces: it gives back those it no longer needs, or takes more (R205) (log 7, DESIGN CHOICE). -/
def State.fitArea (s : State) (ctx owner n : Nat) : State :=
  let c := s.ctxAt ctx
  let old := c.area owner
  if n < old.length then
    s.setCtx ctx { c with areas := c.areas.filter (fun x => x.1 != owner) ++ (old.take n).map fun p => (owner, p) }
  else s.growArea ctx owner (n - old.length)

/-- Spill areas go back to the pool. -/
def State.dropAreas (s : State) (ctx : Nat) (out : Nat → Bool) : State :=
  if (s.ctxAt ctx).areas.any fun x => out x.1 then s.updCtx ctx fun c => { c with areas := c.areas.filter fun x => !out x.1 } else s

/-! ### The end of a gang (R58, R217, R248) -/

/-- Scratch references that an operation has among its operands or has read (R217). -/
def Op.windowRefs (o : Op) : List DWord :=
  o.named ++
  match o.kind with
  | .bcopy d s _ => (if d.space = 1 then [d.addr] else []) ++ if s.space = 1 then [s.addr] else []
  | .bcopy2d d s _ _ _ _ => (if d.space = 1 then [d.addr] else []) ++ if s.space = 1 then [s.addr] else []
  | .blist _ _ (some a) => [a]
  | .bkick g => (if g.dst.space = 1 then [g.dst.addr] else []) ++ (if g.idx.space = 1 then [g.idx.addr] else []) ++
      if g.arrive then [g.arr] else []
  | .bkickAt a => [a]
  | .fget d _ _ r a => (if r.scratch then [d] else []) ++ if r.arr then [a] else []
  | .lattn _ _ a => [a]
  | .mjob _ _ =>
    match o.card with
    | some c => [c.full, c.empty]
    | none => []
  | _ => []

/-- Whether an operation will still read scratch references from memory: it keeps every window of its launch on its die (R217). -/
def Op.readsRefs (o : Op) : Bool :=
  match o.kind with
  | .blist _ n _ => o.status == .active && decide (o.pc < n)
  | .mjob _ _ => o.card.isNone
  | .bkickAt _ => true
  | _ => false

/-- Whether an outstanding operation names a gang's window (R217). -/
def State.windowNamed (s : State) (key : Nat) : Bool :=
  let g := s.gangAt key
  s.ops.any fun o =>
    o.launch == g.launch &&
      ((o.readsRefs && dieOf g.core == dieOf o.core) || o.windowRefs.any fun r =>
        let hi : Word := (r >>> 32).setWidth 32
        if hi = 0xFFFFFFFF then o.gang == key else gangKey g.launch (hi.toNat % 2 ^ 24) == key)

/-- Whether a group of a launch has a live member. -/
def State.groupLive (s : State) (launch group : Nat) : Bool :=
  s.gangs.any fun kg => kg.2.launch == launch && kg.2.alive && kg.2.inGroup group

/-- Free the windows of a launch's gangs that are gone and that nothing names any more (R217). -/
def State.freeWindows (s : State) (launch : Nat) : State :=
  { s with gangs := s.gangs.map fun kg =>
      let g := kg.2
      if g.launch == launch && !g.lamp && g.place == .gone && !g.windowFreed &&
          !(g.members.any fun m => s.groupLive launch m.group) && !s.windowNamed kg.1 then
        (kg.1, { g with windowFreed := true })
      else kg }

/-- The gangs that stand on a core: issuing or parked there, its Lamplighter slot apart. -/
def State.gangsOn (s : State) (core : Nat) : List Nat :=
  (s.gangs.filter fun kg => !kg.2.lamp && (kg.2.place == .resident core || kg.2.place == .parked core)).map Prod.fst

/-- A dome whose cores hold no gang any more is no longer fused (R277) (log 25, DEDUCED). -/
def State.unfuse (s : State) (core : Nat) : State :=
  let d := domeOf core
  if (s.domeAt d).fused && (List.range 4).all fun k => (s.gangsOn (4 * d + k)).isEmpty then
    s.setDome d { s.domeAt d with fused := false }
  else s

/-- The pool pieces that a gang holds: its lanes' spill areas and its image. -/
def Gang.poolPieces (g : Gang) : Nat := ((List.range 32).map fun l => pieces (g.lane l).spilled).foldl (· + ·) g.image

/-- Give pool pieces back. -/
def State.givePieces (s : State) (ctx n : Nat) : State := s.updCtx ctx fun c => { c with splused := c.splused - 4096 * n }

/-- A gang leaves the machine: retirement or kill. Its memberships become exited, its banks are released, its writes are
performed and its pins end, and it leaves the spawn-tree counter (R58, R144, R184, R217, R302). Its results in open windows
are lost; a caller that must commit them does so first (log 13, DEDUCED) (log 44, DEDUCED). -/
def State.gangExit (s : State) (key : Nat) : State :=
  let s := (s.performAll key).unpost (dieOf (s.gangAt key).core) (.service key)
  let s := s.leaveQueues key
  let s := s.givePieces (s.ctxNum key) (s.gangAt key).poolPieces
  let s := s.dropAreas (s.ctxNum key) fun o => o / 32 == key
  let s := s.updGang key fun g =>
    let g := g.discardWindows
    let g := g.updLanes (BitVec.allOnes 32) fun _ x => { x with live := false, wait := .ready, spilled := 0 }
    { g with image := 0, place := .gone, members := g.members.map (fun m => { m with live := false }), park := none, syncs := [],
             service := false, hold := none, marked := none, savedBanks := [], savedReleases := [], savedOpbuf := [],
             savedPartners := [], sets := (List.range 16).foldl (fun t k => Table.put k { g.jset k with member := 0, waiting := 0 } t) g.sets }
  let s := s.releaseBanks key
  let s := (s.freeWindows (s.gangAt key).launch).unfuse (s.gangAt key).core
  let s := { s with pkg := { s.pkg with faults := s.pkg.faults.filter fun f => f.gang != some key || f.src != 0 } }
  if (s.gangAt key).lamp then s
  else (s.dropPlaced (s.launchAt (s.gangAt key).launch).die).spawnDown (s.gangAt key).launch

/-- A party no longer waits for lines: it tries its accesses again, also to lines at which it is being served (log 27, DEDUCED). -/
def State.unplan (s : State) (req : Nat) : State :=
  let drop := fun c : CohWait => { c with planned := c.planned.filter fun p => p.1 != req }
  let tried := fun ts : List Turn => ts.map fun t => if t.req = req then { t with used := true } else t
  { s with fab := { s.fab with cohWaits := s.fab.cohWaits.map drop,
                               dir := s.fab.dir.map fun kd => (kd.1, { kd.2 with turn := tried kd.2.turn }),
                               held := s.fab.held.map fun h => { h with turn := tried h.turn } } }

/-! ### Causes and fatal faults (R242, R258 to R263) -/

/-- Record a cause entry; entries beyond 16 are dropped and that is noted (R259, R260). -/
def Launch.record (l : Launch) (c : Cause) : Launch :=
  if l.causes.length < 16 then { l with causes := l.causes ++ [c] } else { l with causesDropped := true }

/-- The launches descended from a launch, itself not included. `fuel` bounds the depth of the tree. -/
def ancestorIs (s : State) (launch : Nat) : Nat → Nat → Bool
  | 0, _ => false
  | fuel + 1, k =>
    match (s.launchAt k).parent with
    | none => false
    | some p => p == launch || ancestorIs s launch fuel p

def State.descendants (s : State) (launch : Nat) : List Nat :=
  ((s.launches.filter fun kl => kl.2.phase != .done).map Prod.fst).filter fun k =>
    k != launch && ancestorIs s launch (s.launches.length + 1) k

/-- The code objects' and gangs' stop of a set of launches: windows close and nothing issues any more (R258 step 1). -/
def State.stopGangs (s : State) (ls : List Nat) (discard : Bool) : State :=
  { s with gangs := s.gangs.map fun kg =>
      if ls.contains kg.2.launch && !kg.2.lamp && kg.2.alive then
        (kg.1, if discard then kg.2.discardWindows else kg.2.closeAll (BitVec.allOnes 32))
      else kg }

/-- A write of the device for a context, at virtual addresses that the companion keeps resident (log 33, DEDUCED): the state after it, and
whether it is over; one that meets a pin, or a line under way, is not (R295). Where the companion does not keep them resident nothing is
written. -/
def State.ctxWrite (s : State) (w : CtxWrite) : State × Bool :=
  let a := s.lampNear w.ctx w.core
  let held := fun (va : DWord) write => ((s.unplan a.req).askLine a va write none, false)
  match (if w.orIn then readRange s a w.va w.bytes.length else .ok (List.replicate w.bytes.length 0)) with
  | .error (.wait, va) => held va false
  | .error _ => (s, true)
  | .ok old =>
    match writeRange s a w.va ((w.bytes.zip old).map fun p => p.1 ||| p.2) with
    | .ok t => (t, true)
    | .error (.wait, va) => held va true
    | .error _ => (s, true)

/-- Writes that wait are tried in their order, up to the first that still has to wait (R295). -/
def State.retryWrites (s : State) : List CtxWrite → State
  | [] => { s with lateWrites := [] }
  | w :: ws =>
    let r := s.ctxWrite w
    if r.2 then r.1.retryWrites ws else { r.1 with lateWrites := w :: ws }

/-- Such a write, behind those that wait already (log 33, DEDUCED). -/
def State.ctxPut (s : State) (w : CtxWrite) : State := s.retryWrites (s.lateWrites ++ [w])

/-- SVC records of gangs that are stopped while parked become ABANDONED (R194). -/
def State.abandon (s : State) (key : Nat) : State :=
  match (s.gangAt key).park with
  | some (.svcReply _ off) =>
    let ctx := s.ctxNum key
    s.ctxPut { ctx := ctx, core := (s.gangAt key).core, va := (s.ctxAt ctx).srbase + BitVec.ofNat 64 (off + 6), bytes := [2], orIn := true }
  | _ => s

/-- Some bytes go into the pieces of a spill area, in their order (log 7, DESIGN CHOICE). -/
def State.putArea (s : State) (ctx core : Nat) : List Nat → List Byte → State
  | [], _ => s
  | p :: ps, bs =>
    if bs.isEmpty then s
    else
      (s.ctxPut { ctx := ctx, core := core, va := (s.ctxAt ctx).pieceAt p, bytes := bs.take 4096, orIn := false }).putArea ctx core ps
        (bs.drop 4096)

/-- A service leaves in the spill areas what the lanes have spilled, in the pieces that they need (R205) (log 7, DESIGN CHOICE). -/
def State.writeSpills (s : State) (key : Nat) : State :=
  let ctx := s.ctxNum key
  (lanesOf (s.gangAt key).liveMask).foldl (fun s l =>
    let x := (s.gangAt key).lane l
    let t := s.fitArea ctx (32 * key + l) (pieces x.spilled)
    t.putArea ctx (s.gangAt key).core ((t.ctxAt ctx).area (32 * key + l)) x.spillImage) s

/-- Whether the array has begun the unit at P_c or a step beyond it (R257, R334, R337). -/
def Op.midUnit (o : Op) : Bool := o.pass != 0 || o.group != 0 || !o.ahead.isEmpty

/-- Cancel an operation (R140, R367): one that waits for its wick retires without starting; a sent FATOM or FRESV goes on. -/
def Op.cancel (o : Op) : Op :=
  let sent := match o.kind with | .fatom _ _ _ _ _ _ | .fresv _ _ _ => decide (0 < o.sent) | _ => false
  if o.status != .active || sent then o
  else
    match o.wick with
    | .waiting | .notAsked => { o with status := .cancelled, wick := .notAsked, fault := none }
    | _ => { o with cancelling := true, fault := none }

/-- Whether an operation that is cancelled stands at the point of R140 and writes nothing any more: it is over, has not started, stands
between units, or has sent nothing. -/
def Op.stands (o : Op) : Bool :=
  o.status != .active || o.wick == .waiting || o.wick == .notAsked || (if o.cls = 3 then o.sent == 0 else !o.midUnit)

/-- Cancel every outstanding operation of some launches: those that stand at their points leave the machine, the others go on to them
(R140, R258 step 2, R358 step 3). Operations waiting for a wick leave the Chandler's queue, and reservations end (R366, R367). -/
def State.dropOps (s : State) (ls : List Nat) : State :=
  let out := fun o : Op => ls.contains o.launch && o.stands
  let gone := s.ops.filter out
  let ids := gone.map Op.id
  let rest := (s.ops.filter fun o => !out o).map fun o => if ls.contains o.launch then o.cancel else o
  let s := { s with ops := rest,
                    chandler := { s.chandler with queue := s.chandler.queue.filter (fun w => !ids.contains w.op),
                                                  granted := s.chandler.granted.filter fun w => !ids.contains w.op },
                    pkg := { s.pkg with faults := s.pkg.faults.filter fun f =>
                      match f.op with | some o => !ids.contains o | none => true } }
  gone.foldl (fun s o =>
    let dome := domeOf (partnerCore o.core)
    let s := (List.range 8).foldl (fun s b =>
      let s := s.updBank dome b fun k => { k with queue := k.queue.filter fun h => h != twinKey o.id }
      if (s.bankAt dome b).heldFor == some o.id then s.freeBank dome b else s) s
    (s.unplan (2 ^ 61 + o.id)).spawnDown o.launch) s

/-- Whether operations of some launches have still to come to their points. -/
def State.opsLeft (s : State) (ls : List Nat) : Bool := s.ops.any fun o => ls.contains o.launch

/-- Every gang of some launches leaves the machine. -/
def State.exitGangs (s : State) (ls : List Nat) : State :=
  (ls.flatMap s.gangsOf).foldl State.gangExit s

/-- Set bits of LERR. -/
def State.lerrOr (s : State) (launch : Nat) (bits : Word) : State :=
  s.updLaunch launch fun l => { l with lerr := l.lerr ||| bits }

/-- Launches of a list that stand in one phase go to another. -/
def State.setPhases (s : State) (ls : List Nat) (old new : Phase) : State :=
  { s with launches := s.launches.map fun kl => if ls.contains kl.1 && kl.2.phase == old then (kl.1, { kl.2 with phase := new }) else kl }

/-- Write the dump of a stopping launch and end it and its descendants, when the dump area is free (R258 steps 3 to 5,
R259). While it is not, or a pin holds a line of it, the launch keeps its resources (R295) (log 36, DEDUCED). A service under way is
finished first, so that the spill areas hold what the dump names (R205, R261). -/
def State.finishStop (s : State) (launch : Nat) : State :=
  let l := s.launchAt launch
  let c := s.ctxAt l.ctx
  let fam := launch :: s.descendants launch
  let finish := fun (s : State) =>
    (s.exitGangs fam).setPhases fam .stopping .running
  let keepPool := fun (s t : State) =>
    let held := (s.ctxAt l.ctx).splused - (t.ctxAt l.ctx).splused
    t.updCtx l.ctx fun c => { c with splused := c.splused + held, dumpSpill := held, areas := (s.ctxAt l.ctx).areas }
  if c.dumpbase = 0 then finish (s.lerrOr launch 0x80)
  else if c.dumphead ≠ 0 then
    if c.dumpWait.contains launch then s else s.updCtx l.ctx fun c => { c with dumpWait := c.dumpWait ++ [launch] }
  else
    let serving := (fam.flatMap s.gangsOf).filter fun k => (s.gangAt k).service
    let s := serving.foldl State.writeSpills s
    let bytes := dumpBytes s launch
    let a := s.lampOf l.ctx l.die
    match writeRange s a c.dumpbase bytes with
    | .error (.wait, va) => (s.unplan a.req).askLine a va true none
    | .error _ => finish (s.lerrOr launch 0x80)
    | .ok t =>
      let t := t.updCtx l.ctx fun c => { c with dumphead := BitVec.ofNat 32 bytes.length }
      let t := t.emit (.ctxVector l.ctx)
      keepPool t (finish t)

/-- A fatal fault of a launch (R258): its code, who took it and where. The dump follows once its operations have stopped. A further one in a
stopping launch only enters the cause chain. -/
def State.fatalLaunch (s : State) (launch code : Nat) (key : Option Nat) (c : Cause) : State :=
  let l := s.launchAt launch
  if l.phase ≠ .running then s.updLaunch launch fun l => l.record { c with trigger := false }
  else
    let fam := launch :: s.descendants launch
    let s := s.updLaunch launch fun l =>
      { l.record { c with trigger := true } with
          faulted := true, fatalAt := s.now, fatalBy := key, lerr := l.lerr ||| BitVec.ofNat 32 (code * 2 ^ 24 + 4) }
    let s := s.setPhases fam .running .stopping
    let s := (s.descendants launch).foldl (fun s d =>
      s.updLaunch d fun l => { l with faulted := true, lerr := l.lerr ||| 0x40 }) s
    let s := (fam.flatMap s.gangsOf).foldl State.abandon (s.stopGangs fam false)
    let s := s.dropOps fam
    if s.opsLeft fam then s else s.finishStop launch

/-- Launches that a fatal fault or the deadline ended and whose operations have stopped meanwhile: the dump is written, gangs leave (R258,
R358). -/
def State.settleStop (s : State) (launch : Nat) : State :=
  let l := s.launchAt launch
  let fam := launch :: s.descendants launch
  if l.phase == .stopping && l.lerr.getLsbD 2 && !(s.ctxAt l.ctx).dumpWait.contains launch then
    let s := s.dropOps fam
    if s.opsLeft fam then s else s.finishStop launch
  else if l.phase == .killed && s.gangs.any fun kg => kg.2.launch == launch && !kg.2.lamp && kg.2.alive then
    let s := s.dropOps [launch]
    if s.opsLeft [launch] then s else s.exitGangs [launch]
  else s

/-- The stops of launches go on. -/
def State.settleStops (s : State) : State := (s.launches.map Prod.fst).foldl State.settleStop s

/-- The code of a cause (R242). -/
def causeAlign : Nat := 1
def causeSpRange : Nat := 2
def causeGrpFault : Nat := 3
def causeMemErr : Nat := 4
def causePage : Nat := 5
def causeProt : Nat := 6
def causeEngArg : Nat := 7
def causeEngFail : Nat := 8
def causeTrap : Nat := 9
def causeBkpt : Nat := 10
def causeArith : Nat := 11
def causeJorphan : Nat := 12
def causeJcycle : Nat := 13
def causeIllegal : Nat := 14
def causeCallDepth : Nat := 16
def causeRetDepth : Nat := 17
def causeStackOvf : Nat := 18
def causeTrapDepth : Nat := 19
def causeNoTrapEnt : Nat := 20
def causeUncorr : Nat := 21
def causeDieFence : Nat := 22

/-- The issue context no longer runs its lanes: a trap, park or kill has taken them. -/
def State.divertIssue (s : State) (key : Nat) : State :=
  if s.issue.gang = key then { s with issue := { s.issue with diverted := true } } else s

/-- A Lamplighter slot stops: its agent is fenced (R268) (log 16, DEDUCED). -/
def State.fenceLamp (s : State) (key : Nat) : State :=
  let core := (s.gangAt key).core
  (s.updCore core fun c => { c with slot := .fenced }).divertIssue key

/-- A fatal fault taken by a gang at an offset (R242, R258). In a Lamplighter slot it fences the agent (log 16, DEDUCED). -/
def State.fatal (s : State) (key code pc lane : Nat) (addr : DWord) : State :=
  let g := s.gangAt key
  if g.lamp then s.fenceLamp key
  else
    let c : Cause := { code := code, source := 0, trigger := true, issuerGone := false, detail := 0, gang := g.num, pc := pc,
                       unit := lane, addr := addr, eph := s.now }
    (s.fatalLaunch g.launch code (some key) c).divertIssue key

/-! ### Illegal encodings (R32) -/

/-- The illegal-encoding outcome: the gang is killed and the launch's record is kept (R32, R34); in the Lamplighter slot the
agent is fenced (R268). `pc` is the offset of the failing word. -/
def State.killIllegal (s : State) (key case pc : Nat) (word : Word) : State :=
  let g := s.gangAt key
  if g.lamp then s.fenceLamp key
  else
    let s := s.updLaunch g.launch fun l =>
      let count := min 255 (l.lerr.toNat / 2 ^ 16 % 256 + 1)
      let first := !l.lerr.getLsbD 0
      let base : Word := l.lerr &&& 0xFF00FFFF ||| BitVec.ofNat 32 (count * 2 ^ 16) ||| 1
      let l := l.record { code := causeIllegal, source := 0, trigger := false, issuerGone := false, detail := case,
                          gang := g.num, pc := pc, unit := 0, addr := 0, eph := s.now }
      if first then
        { l with lerr := base ||| BitVec.ofNat 32 (case * 2 ^ 8), lerrPc := BitVec.ofNat 32 pc, lerrWd := word,
                 lerrGang := BitVec.ofNat 32 g.num, faulted := true }
      else { l with lerr := base, faulted := true }
    (s.gangExit key).divertIssue key

/-! ### Calls, returns and trap frames (R53, R54, R204, R205, R244) -/

/-- Where a lane goes on: after its wait where it waits at an instruction that has issued (R207). -/
def Lane.resumePc (x : Lane) : Nat :=
  match x.wait with
  | .jwait _ r | .sstep _ r | .sleep _ _ r | .engine r => r
  | _ => x.pc

/-- A lane goes on at an offset, at once or after its wait. -/
def Lane.goto (x : Lane) (t : Nat) : Lane :=
  match x.wait with
  | .jwait k _ => { x with wait := .jwait k t }
  | .sstep g _ => { x with wait := .sstep g t }
  | .sleep til r _ => { x with wait := .sleep til r t }
  | .engine _ => { x with wait := .engine t }
  | _ => { x with pc := t }

/-- A lane waits at the present instruction, which has issued; it goes on where it was to go. -/
def Lane.waitAt (x : Lane) (pc : Nat) (w : Nat → Wait) : Lane := { x with wait := w x.pc, pc := pc }

/-- Bytes that a call to a new window base spills (R205): stack registers below the new resident base, and the oldest eight
link entries when sixteen are resident. -/
def Lane.spillBytes (x : Lane) (d w : Nat) : Nat := 4 * (w + 56 - d - x.rbase) + (if x.resident = 16 then 64 else 0)

/-- Whether a call to a new window base takes the spill trap (R205). -/
def Lane.mustSpill (x : Lane) (d w : Nat) : Bool := decide (x.rbase + d < w + 56) || x.resident == 16

/-- Push a link entry and raise the window: the newly exposed registers become 0 (R53, R204, R205). -/
def Lane.push (x : Lane) (d : Nat) (k : Link) : Lane :=
  let w := x.wbase + 8 * k.shift
  let spill := x.mustSpill d w
  let exposed := Table.setList 0 (x.wbase + 56) (List.replicate (8 * k.shift) (0 : Word)) x.stack
  { x with links := k :: x.links, depth := x.depth + 1, wbase := w, stack := exposed,
           rbase := if spill then max x.rbase (w + 56 - d) else x.rbase,
           resident := (if x.resident = 16 then 8 else x.resident) + 1,
           spilled := x.spilled + (if spill then x.spillBytes d w else 0) }

/-- Whether a return takes a fill trap (R205). -/
def Lane.mustFill (x : Lane) (w : Nat) : Bool := x.resident == 0 || decide (w < x.rbase)

/-- Pop the newest link entry and lower the window (R54, R205). -/
def Lane.pop (x : Lane) (k : Link) : Lane :=
  let w := x.wbase - 8 * k.shift
  let filled := if x.resident = 0 then min 8 x.links.length else 0
  let back := 8 * filled + (if w < x.rbase then 4 * (x.rbase - w) else 0)
  { x with links := x.links.drop 1, depth := x.depth - 1, wbase := w,
           rbase := if w < x.rbase then w else x.rbase,
           resident := (if x.resident = 0 then filled else x.resident) - 1,
           spilled := x.spilled - back }

/-- A ticket for the service of a gang that stands on its core (R181, R206, R248). -/
def State.postService (s : State) (key : Nat) (yes : Bool) : State :=
  if yes && (s.gangAt key).place != .saved then s.post (dieOf (s.gangAt key).core) (.service key) else s

/-- The service of a gang is done, or goes on where the gang is restored. -/
def State.endService (s : State) (key : Nat) : State := s.unpost (dieOf (s.gangAt key).core) (.service key)

/-- Push an entry in every lane of a mask and send the lanes on; a spill without room is STACKOVF (R53, R205, R206, R244).
`go` sets what else changes in the lane. -/
def State.pushLanes (s : State) (key : Nat) (m : LaneMask) (link : Nat → Link) (go : Nat → Lane → Lane) : State :=
  let g := s.gangAt key
  let spills := (lanesOf m).any fun l => (g.lane l).mustSpill g.dstack ((g.lane l).wbase + 8 * (link l).shift)
  let g' := g.updLanes m fun l x => go l (x.push g.dstack (link l))
  match s.takePieces (s.ctxNum key) (spillDelta g g' m) with
  | none => s.fatal key causeStackOvf s.issue.pc ((lanesOf m).headD 0) 0
  | some t => (t.setGang key { g' with service := g'.service || spills }).postService key spills

/-! ### Taking a trap (R243 to R247) -/

/-- A trap record (R245). -/
structure TrapRec where
  v8 : Word
  v9 : Word
  v10 : Word
  v11 : Word
  v12 : Word
  v13 : Word
  v14 : Word
  v15 : Word
  deriving DecidableEq, Repr

/-- The record of a code with its resume offset and trapping offset; every other value is 0. -/
def TrapRec.of (code resume pc : Nat) : TrapRec :=
  { v8 := BitVec.ofNat 32 code, v9 := BitVec.ofNat 32 resume, v10 := BitVec.ofNat 32 pc, v11 := 0, v12 := 0, v13 := 0,
    v14 := 0, v15 := 0 }

/-- The trap entry that counts for a gang: a multiple of 12 below 12n (R243). -/
def trapEntry (s : State) (key : Nat) : Option Nat :=
  let t := (s.ctxAt (s.ctxNum key)).trapent.toNat
  let g := s.gangAt key
  if g.lamp then none
  else if t % 12 = 0 && decide (t < 12 * (s.codeOf g).n) then some t else none

/-- Write a trap record into `v8`-`v15` of a lane (R244). -/
def Lane.putRecord (x : Lane) (r : TrapRec) : Lane :=
  (((((((x.setV 8 r.v8).setV 9 r.v9).setV 10 r.v10).setV 11 r.v11).setV 12 r.v12).setV 13 r.v13).setV 14 r.v14).setV 15 r.v15

/-- Whether a snuff has to wait: for a service, for a synchronous instruction, or until the gang's image is restored (R141, R206,
R256). -/
def Gang.delaysSnuff (g : Gang) : Bool := g.service || !g.syncs.isEmpty || g.place == .saved

/-- Whether a snuff diverts a gang as its chain ends: one that SNUFFREL let strike, or one that marks the gang and that nothing delays. Its
diversion replaces the delivery of a trap (R71, R247). -/
def State.divertsAfter (s : State) (key : Nat) : Bool :=
  let g := s.gangAt key
  let released := match s.issue.after with | some (.divert _) => true | _ => false
  s.issue.gang == key && !g.wrap && !g.delaysSnuff && (released || g.marked.isSome)

/-- A trap whose delivery a diversion replaces: the lanes stand where they would resume, and no handler runs (R247) (log 17, DEDUCED). -/
def State.replaceTrap (s : State) (key : Nat) (m : LaneMask) (rec : Nat → TrapRec) : State :=
  (s.updGang key fun g => (g.closeAll m).updLanes m fun l x => { x with pc := (rec l).v9.toNat, wait := .ready }).divertIssue key

/-- DELIVER A SYNCHRONOUS TRAP to lanes of a gang: their windows close, each lane pushes a trap frame, finds its record in
`v8`-`v15` and goes on at the trap entry (R244, R245). Without a trap entry, or at depth 255, the fault is fatal. -/
def State.deliver (s : State) (key : Nat) (m : LaneMask) (rec : Nat → TrapRec) : State :=
  if s.divertsAfter key then s.replaceTrap key m rec
  else
  let s := s.updGang key fun g => g.closeAll m
  let g := s.gangAt key
  let first := (lanesOf m).headD 0
  let pc := (rec first).v10.toNat
  match trapEntry s key with
  | none => s.fatal key causeNoTrapEnt pc first 0
  | some entry =>
    match (lanesOf m).find? fun l => (g.lane l).depth == 255 with
    | some l => s.fatal key causeTrapDepth pc l 0
    | none =>
      (s.pushLanes key m (fun l => { off := (rec l).v9.toNat, shift := 7, trap := true }) fun l x =>
        { x.putRecord (rec l) with region := none, spoiled := false, pc := entry, wait := .ready }).divertIssue key

/-- The record of an arithmetic trap: the flags raised that FPTRAP enables (R245). -/
def arithRec (flags : BitVec 5) (resume pc : Nat) : TrapRec :=
  { TrapRec.of causeArith resume pc with v11 := flags.setWidth 32 }

/-- The offset of the first word that raised an enabled flag (R245). -/
def raisedAt (raised : List (Nat × BitVec 5)) (fptrap : BitVec 5) (other : Nat) : Nat :=
  ((raised.find? fun r => r.2 &&& fptrap != 0).map Prod.fst).getD other

/-- The record of a pending trap that resumes at an offset. -/
def PendTrap.record (p : PendTrap) (resume : Nat) : TrapRec :=
  { TrapRec.of (p.code + p.y * 2 ^ 16) resume p.pc with v11 := p.v11, v12 := p.v12 }

/-- Deliver what the chain's earlier instructions left to deliver: the pending trap, or the arithmetic trap of the flags the
chain has raised (R82, R244). The lanes resume at the offset `resume` gives (log 17, DEDUCED). -/
def State.deliverPending (s : State) (m : LaneMask) (resume : Nat → Nat) : State :=
  let key := s.issue.gang
  let f := s.issue.flags &&& s.cur.fptrap
  match s.issue.pend with
  | some p => s.deliver key m fun l => p.record (resume l)
  | none => if f = 0 then s else s.deliver key m fun l => arithRec f (resume l) (raisedAt s.issue.raised s.cur.fptrap s.issue.pc)

/-- A trap of the issuing lane group whose lanes resume at the present instruction (codes 1 to 4, 7, 10, 12). The rest of the
chain does not issue; of two traps of a chain the earlier one is delivered, and the lanes then resume here (log 17, DEDUCED). -/
def State.trapHere (s : State) (code : Nat) (more : Nat → TrapRec → TrapRec) : State :=
  let pc := s.issue.pc
  let m := s.issue.lanes
  if s.issue.pend.isSome || s.issue.flags &&& s.cur.fptrap != 0 then s.deliverPending m fun _ => pc
  else s.deliver s.issue.gang m fun l => more l (TrapRec.of code pc pc)

/-- A trap of the issuing lane group whose lanes resume after the chain (codes 8 and 9): delivered after the chain when
instructions of the chain follow (R66, R244) (log 17, DEDUCED). -/
def State.trapAfter (s : State) (p : PendTrap) : State :=
  if s.issue.pend.isSome || s.issue.flags &&& s.cur.fptrap != 0 then s
  else if s.issue.more then { s with issue := { s.issue with pend := some p } }
  else s.deliver s.issue.gang s.issue.lanes fun _ => p.record s.issue.nextPc

/-- A memory trap of the issuing lanes (codes 1 to 4): lowest failing lane, which lanes fail, the address (R245). -/
def State.trapMemory (s : State) (code : Nat) (failing : List Nat) (addr : DWord) : State :=
  let low := failing.headD 0
  s.trapHere code fun l r =>
    { r with v11 := BitVec.ofNat 32 (low + if failing.contains l then 256 else 0), v12 := addr.setWidth 32,
             v13 := (addr >>> 32).setWidth 32 }

/-- A trap that a gang-wide instruction raises for its whole lane group: every lane counts as failing (R245). -/
def State.trapGroup (s : State) (code : Nat) (addr : DWord) : State :=
  s.trapMemory code (lanesOf s.issue.lanes) addr

/-- Raise ENGARG: an operand of an engine instruction breaks a limit (R142). -/
def State.engArg (s : State) : State := s.trapGroup causeEngArg 0

/-- The chain cannot issue: the given lanes stand at it with a wait, or, with `ready`, the gang waits with it (R207). The step
takes every other effect of the chain back (log 27, DEDUCED). -/
def State.holdFor (s : State) (m : LaneMask) (w : Wait) : State :=
  { s with issue := { s.issue with hold := s.issue.hold ||| m, holdWait := w } }

/-! ### Events that close windows (R27, R229) -/

/-- The lanes of a mask that take an arithmetic trap when an event closes their windows: those with an open class 7 window, where one
of these holds a flag that FPTRAP enables (R229). -/
def Gang.armed (g : Gang) (m : LaneMask) : LaneMask :=
  if g.flagsWhere m Window.seven &&& g.fptrap == 0 then 0
  else m &&& g.lanesWhere fun _ x => x.wins.any Window.seven

/-- A park or a pre-emption closes every window of a gang and delivers the arithmetic trap of class 7 flags to the lanes whose windows
closed, each resuming where it stands (R27, R229) (log 11, DEDUCED). -/
def State.closeForEvent (s : State) (key : Nat) (stand : Nat → Nat) : State :=
  let g := s.gangAt key
  let hit := g.armed g.liveMask
  let f := g.flagsWhere hit (fun _ => true) &&& g.fptrap
  let at_ := raisedAt (g.raisedWhere hit Window.seven) g.fptrap 0
  let s := s.updGang key fun g => g.closeAll (BitVec.allOnes 32)
  if hit = 0 then s else s.deliver key hit fun l => arithRec f (stand l) at_

/-! ### Parking on a missing translation (R131, R248, R250) -/

/-- Whether a liveness record marks a stack register live: `v` registers are named as the window stood at the region entry (R250). -/
def Region.keepsSlot (r : Region) (base slot : Nat) : Bool :=
  decide (base ≤ slot) && decide (slot < base + 56) && r.v.getLsbD (slot - base + 8)

/-- A restartable lane as a save leaves it: back at its region entry with the items that the record marks live; its control and the
registers below its window stay (R133, R250). -/
def Lane.keepLive (x : Lane) (r : Region) : Lane :=
  { x with preds := x.preds &&& r.p, wait := .ready, pc := 12 * r.packet, globals := x.globals.filter fun kv => r.v.getLsbD kv.1,
           stack := x.stack.filter fun kv => decide (kv.1 < x.wbase) || r.keepsSlot x.regionBase kv.1 }

/-- The liveness record of a restartable lane's region entry (R38, R250) (log 13, DEDUCED). -/
def regionOf (c : Code) (x : Lane) : Option Region :=
  if x.restartable then
    match x.region with
    | some p => c.regions.find? fun r => r.packet == p
    | none => none
  else none

/-- Gang items after a save: kept when a lane was saved whole or a saved record marks them live; else they read 0, and a set
returns to its start state (R250). -/
def Gang.keepItems (g : Gang) (recs : List Region) (whole : Bool) : Gang :=
  if whole then g
  else
    let sl := recs.foldl (fun m r => m ||| r.s) 0
    let ql := recs.foldl (fun m r => m ||| r.q) 0
    let jl := recs.foldl (fun m r => m ||| r.j) 0
    { g with sregs := g.sregs.filter (fun kv => sl.getLsbD kv.1), qregs := g.qregs.filter (fun kv => ql.getLsbD kv.1),
             sets := g.sets.filter (fun kv => jl.getLsbD kv.1),
             savedBanks := if recs.any Region.banks then g.savedBanks else g.savedBanks.map fun kv => (kv.1, []) }

/-- Save a gang's lanes of a mask: restartable ones by their records, every other one whole (R250) (log 13, DEDUCED). -/
def Gang.save (g : Gang) (c : Code) (m : LaneMask) : Gang :=
  let recs := (lanesOf m).filterMap fun l => regionOf c (g.lane l)
  let whole := (lanesOf g.liveMask).any fun l => !m.getLsbD l || (regionOf c (g.lane l)).isNone
  (g.updLanes m fun _ x =>
    match regionOf c x with
    | some r => x.keepLive r
    | none => x).keepItems recs whole

/-- A park takes the gang off its issue slot; its windows have closed (R248) (log 13, DEDUCED). -/
def State.parkGang (s : State) (key : Nat) (p : Park) : State :=
  (s.updGang key fun g => { g with place := .parked g.core, park := some p }).divertIssue key

/-- The gang of the chain parks until a missing translation is served; `lane` is its lowest lane not performed (R116). Its issuing
lanes resume at the present instruction, or at
their region entries (R131, R133, R193, R248). A trap that an earlier instruction of the chain left is delivered instead; its
lanes resume here (log 17, DEDUCED). A Lamplighter slot is fenced (log 16, DEDUCED) (log 13, DEDUCED). -/
def State.parkPage (s : State) (byRegion : Bool) (lane : Nat) (va : DWord) (kind : Kind) : State :=
  let key := s.issue.gang
  let m := s.issue.lanes
  let pc := s.issue.pc
  if s.cur.lamp then s.fenceLamp key
  else if s.issue.pend.isSome || s.issue.flags &&& s.cur.fptrap != 0 then s.deliverPending m fun _ => pc
  else
    let s := s.updCur fun g => g.updLanes m fun _ x => { x with pc := pc, wait := .ready }
    let before := s.cur.armed m
    let s := s.closeForEvent key fun l => (s.cur.lane l).pc
    if s.cur.alive then
      let s := if byRegion then s.updCur fun g => g.save (s.codeOf g) (m &&& ~~~before) else s
      let id := s.pkg.nextFault
      (s.newFault (s.ctxNum key) va kind.code 0 none (some key) pc lane).parkGang key (.page [id] m)
    else s

/-- A party has taken an error reply (R270) (log 24, DEDUCED) (log 31, DEDUCED). -/
def State.eatError (s : State) (a : Agent) (va : DWord) : State :=
  let other := fun e : CohError => !(e.ctx == a.ctx && e.line == lineOf va && e.req == a.req)
  { s with fab := { s.fab with cohErrors := s.fab.cohErrors.filter other } }

/-- The agent of the chain's gang. -/
def State.agent (s : State) : Agent := s.agentOf s.issue.gang

/-- An uncorrectable error touches a launch (R260, R262, R266). -/
def State.touched (s : State) (launch gang pc unit : Nat) (addr : DWord) : State :=
  let c : Cause := { code := causeUncorr, source := 6, trigger := false, issuerGone := false, detail := 0, gang := gang, pc := pc,
                     unit := unit, addr := addr, eph := s.now }
  s.updLaunch launch fun l => { l.record c with lerr := l.lerr ||| 0x20 }

/-- The chain retries at pinned lines (R295). -/
def State.retryAt (s : State) (lines : List Nat) : State :=
  { s with issue := { s.issue with retries := s.issue.retries ++ lines } }

/-- An access of the chain's gang does not happen: park, fatal fault, trap, or the chain waits for a pin or a line (R131). -/
def State.failAccess (s : State) (c : AccCause) (failing : List Nat) (va : DWord) (k : Kind) (w : Option LateWrite) : State :=
  match c with
  | .page => s.parkPage true (failing.headD 0) va k
  | .prot => s.fatal s.issue.gang causeProt s.issue.pc (failing.headD 0) va
  | .memerr => (s.eatError s.agent va).trapMemory causeMemErr failing va
  | .poison => (s.touched s.cur.launch s.cur.num s.issue.pc (failing.headD 0) va).trapMemory causeMemErr failing va
  | .wait => ((s.askLine s.agent va k.writes w).retryAt (retryLine s s.agent va k)).holdFor s.issue.lanes .ready

/-- A fetch does not happen; a park at a missing page saves the lanes whole (R131, R248). -/
def State.failFetch (s : State) (c : AccCause) (failing : List Nat) (va : DWord) : State :=
  match c with
  | .page => s.parkPage false (failing.headD 0) va .fetch
  | c => s.failAccess c failing va .fetch none

/-! ### Fetch (R9) -/

/-- One word of a gang's code object (log 12, DEDUCED). -/
def fetchWord (s : State) (key off : Nat) : Except AccCause Word :=
  let a := s.agentOf key
  let va := (s.codeOf (s.gangAt key)).base + BitVec.ofNat 64 off
  match readGlobal s a va 4 .fetch with
  | .ok bs => .ok (BitVec.ofNat 32 (natLE bs))
  | .error c => .error c

/-- The packet of an offset (R9): three words, or why a page it touches cannot be read. -/
def fetchPacket (s : State) (key packet : Nat) : Except AccCause (List Word) :=
  match fetchWord s key (12 * packet), fetchWord s key (12 * packet + 4), fetchWord s key (12 * packet + 8) with
  | .ok a, .ok b, .ok c => .ok [a, b, c]
  | .error c, _, _ => .error c
  | _, .error c, _ => .error c
  | _, _, .error c => .error c

/-! ### Return from a trap (R246) -/

/-- Where a return to an offset from a trap frame leads, or nothing where it is case 10. -/
def trapResume (n : Nat) (ws : List Word) (off : Nat) : Option Nat :=
  if off % 4 ≠ 0 || 12 * n ≤ off then none
  else
    let p := off / 12
    match slotKind ws (off % 12 / 4) with
    | .inner => none
    | .first => some off
    | .pad =>
      let k := skipPads ws (off % 12 / 4)
      if k < 3 then some (12 * p + 4 * k) else if p + 1 < n then some (12 * (p + 1)) else none

/-- A lane leaves the sets whose home is its depth, as it returns (R54). -/
def Gang.leaveHome (g : Gang) (l depth : Nat) : Gang :=
  (List.range 16).foldl (fun g k =>
    let j := g.jset k
    if !j.freed && j.home == depth then
      g.setJ k { j with member := j.member &&& ~~~laneBit l, waiting := j.waiting &&& ~~~laneBit l }
    else g) g

/-- One lane returns: from a call to its return point, from a trap frame to where `resume` says that its `v9` leads (R54, R246). A trap
return counts for the yield counter and ends the region. -/
def Gang.returnLane (g : Gang) (resume : Nat → Nat) (l : Nat) : Gang :=
  let x := g.lane l
  match x.links with
  | [] => g
  | k :: _ =>
    let g := g.leaveHome l x.depth
    if k.trap then
      g.setLane l { (x.pop k).goto (resume l) with cnt := min 16 (x.cnt + 1), region := none, spoiled := false }
    else g.setLane l ((x.pop k).goto k.off)

/-- THE RETURN FROM CALLS AND TRAPS of some lanes (R54, R246): fills, returns, completion of the sets whose member mask changed. -/
def State.returnLanes (s : State) (key : Nat) (m : LaneMask) (resume : Nat → Nat) : State :=
  let g := s.gangAt key
  match (lanesOf m).find? fun l => (g.lane l).depth == 0 with
  | some l => s.fatal key causeRetDepth s.issue.pc l 0
  | none =>
    let fills := (lanesOf m).any fun l =>
      match (g.lane l).links with
      | [] => false
      | k :: _ => (g.lane l).mustFill ((g.lane l).wbase - 8 * k.shift)
    let g' := g.completeChanged ((lanesOf m).foldl (fun g l => g.returnLane resume l) g)
    match s.takePieces (s.ctxNum key) (spillDelta g g' m) with
    | none => s
    | some t => (t.setGang key { g' with service := g'.service || fills }).postService key fills

/-! ### Snuffs (R70, R355, R356) -/

/-- STATE of a lane's wait (R207, R356) (log 18, DEDUCED). -/
def Wait.snuffState : Wait → Nat
  | .ready => 0
  | .jwait _ _ | .rendezvous | .cross _ => 1
  | _ => 2

/-- STATE of the snuff word for a gang (R356; log 18, DEDUCED). -/
def Gang.snuffState (g : Gang) : Nat :=
  match g.place with
  | .unplaced => 7
  | .saved => 6
  | _ =>
    match g.park with
    | some (.svcRoom _ _ _ _) | some (.svcReply _ _) => 3
    | some (.enq _ _ _) => 4
    | some (.page _ _) => 5
    | some (.served c) => c
    | none =>
      let states := (lanesOf g.liveMask).map fun l => (g.lane l).wait.snuffState
      if states.contains 0 then 0 else if states.contains 1 then 1 else 2

/-- The snuff word (R356). -/
def snuffWord (held : Bool) (st reason : Nat) : Word :=
  BitVec.ofNat 32 ((if held then 2 ^ 16 else 0) + st * 2 ^ 8 + reason % 256)

/-- What a diversion does to a gang's own state (R70, R212, R356). -/
def Gang.divert (g : Gang) (entry : Nat) (word : Word) : Gang :=
  let g := g.closeAll (BitVec.allOnes 32)
  let g := g.updLanes g.liveMask fun _ x =>
    { x with snuffPc := BitVec.ofNat 32 x.pc, snuffDepth := BitVec.ofNat 32 x.depth, pc := entry, cnt := 0, wait := .ready,
             region := none, spoiled := false }
  let g := (List.range 16).foldl (fun g k => g.setJ k { g.jset k with waiting := 0, snuffed := true }) g
  { g.setS 95 word with wrap := true, hold := none, marked := none, retries := [] }

/-- Accesses of a gang that wait at a home directory stay queued and take effect there; their replies are discarded (R134). -/
def State.detachWaits (s : State) (key : Nat) : State :=
  let detach := fun c : CohWait =>
    { c with planned := c.planned.filter (fun p => p.1 != key),
             late := c.late ++ c.planned.filterMap fun p => if p.1 = key then p.2 else none }
  let leave := fun ts : List Turn => ts.map fun t => if t.req = key then { t with late := true } else t
  { s with fab := { s.fab with cohWaits := s.fab.cohWaits.map detach,
                               dir := s.fab.dir.map fun kd => (kd.1, { kd.2 with turn := leave kd.2.turn }),
                               held := s.fab.held.map fun h => { h with turn := leave h.turn },
                               cohErrors := s.fab.cohErrors.filter fun e => e.req != key } }

/-- A park ends by a snuff: an SVC record becomes ABANDONED, ENQ.PARK's status is 3, fault records no longer hold the gang, and it waits
for its place like any gang whose park is served (R70, R134, R194, R241, R248). -/
def State.endPark (s : State) (key : Nat) : State :=
  let s := s.abandon key
  let s := match (s.gangAt key).park with
    | some (.enq reg _ _) => s.updGang key fun g => g.setS reg 3
    | _ => s
  let drop := fun f : FaultRec => if f.src = 0 && f.gang == some key then { f with gang := none } else f
  let s := { s with pkg := { s.pkg with faults := s.pkg.faults.map drop } }
  match (s.gangAt key).park with
  | some _ => (s.updGang key fun g => { g with park := some (.served g.snuffState) }).postService key true
  | none => s

/-- THE DIVERSION of a gang into wrap-up (R70, R355, R356). -/
def State.divertNow (s : State) (key reason : Nat) (held : Bool) : State :=
  let g := s.gangAt key
  if g.wrap || !g.alive then s
  else
    let word := snuffWord held g.snuffState reason
    let s := (s.leaveQueues key).dropGrants key
    let s := s.detachWaits key
    let s := s.endPark key
    s.updGang key fun g => g.divert ((s.launchAt g.launch).pkt.snuffe) word

/-- A snuff that no hold delays diverts the gang, or marks it until it can. Pins on lines at which its access retries end at once, and
the gang is diverted once that access has been served (R295, R304) (log 18, DEDUCED). -/
def State.strike (s : State) (key reason : Nat) (held : Bool) : State :=
  if (s.gangAt key).delaysSnuff then s.updGang key fun g => { g with marked := some (reason, held) }
  else if (s.gangAt key).retries.isEmpty then s.divertNow key reason held
  else ((s.gangAt key).retries.foldl State.endPins s).updGang key fun g => { g with marked := some (reason, held) }

/-- A snuff strikes a gang: at once, when its hold ends, when its service or synchronous instruction has finished, or when
its image is restored (R70, R71, R141, R206, R256). -/
def State.snuff (s : State) (key reason : Nat) : State :=
  let g := s.gangAt key
  if g.wrap || !g.alive || g.marked.isSome then s
  else
    match g.hold with
    | some h =>
      if h.til ≤ s.now then (s.updGang key fun g => { g with hold := none }).strike key reason false
      else s.updGang key fun g => { g with hold := some { h with pending := some (h.pending.getD reason) } }
    | none => s.strike key reason false

/-- A marked snuff strikes once nothing delays it any more (log 18, DEDUCED). -/
def State.strikeMarked (s : State) (key : Nat) : State :=
  match (s.gangAt key).marked with
  | some (reason, held) => s.strike key reason held
  | none => s

/-- A hold ends, by time or by SNUFFREL: a snuff that waits for it strikes, with HELD set (R71, R356). -/
def State.endHold (s : State) (key : Nat) : State :=
  match (s.gangAt key).hold with
  | none => s
  | some h =>
    let s := s.updGang key fun g => { g with hold := none }
    match h.pending with
    | some reason => s.strike key reason true
    | none => s

/-! ### Pre-emption and restore (R253 to R257) -/

/-- Bytes of a tile in the operand buffer, scales included (R145). -/
def Tile.bytes (t : Tile) : Nat :=
  let steps := t.rows * t.ksteps
  steps * 192 + (if 3 ≤ t.type && t.type ≤ 6 then 6 * steps else if t.type = 7 then 12 * steps else 0)

/-- The gang's operand-buffer bytes under its tile handles. -/
def State.tileBytes (s : State) (key : Nat) : List (Nat × List Byte) :=
  let g := s.gangAt key
  g.tiles.filterMap fun kt =>
    if kt.2.valid then some (kt.2.off.toNat, s.opbufBytes g.core kt.2.off.toNat kt.2.bytes) else none

/-- Whether a gang stands on a core. -/
def Gang.onCore (g : Gang) : Bool := match g.place with | .resident _ | .parked _ => true | _ => false

/-- Whether a gang can be saved now: it stands on a core, no service or synchronous instruction delays it, and its operations stand at
boundaries (R206, R253, R257). -/
def State.canSave (s : State) (key : Nat) : Bool :=
  let g := s.gangAt key
  g.onCore && !g.service && g.syncs.isEmpty && !g.lamp && !s.ops.any fun o => o.gang == key && o.midUnit

/-- 4 KiB pieces that the image of a gang takes (R253). -/
def State.imagePieces (s : State) (key : Nat) : Nat :=
  let g := s.gangAt key
  pieces (Config.imageBytes g.dstack g.scratchSize (s.ownedBanks key).length).toNat

/-- Whether the pool has room for the image of a gang (R256). -/
def State.imageRoom (s : State) (key : Nat) : Bool := (s.takePieces (s.ctxNum key) (s.imagePieces key)).isSome

/-- The banks of the partner domes that a gang's twin jobs hold: operation, bank, words (R340). -/
def State.partnerBanks (s : State) (key : Nat) : List (Nat × Nat × Table Word) :=
  (s.ops.filter fun o => o.gang == key).flatMap fun o =>
    let dome := domeOf (partnerCore o.core)
    ((List.range 8).filter fun b => (s.bankAt dome b).heldFor == some o.id).map fun b => (o.id, b, (s.bankAt dome b).words)

/-- The partner banks of a gang's twin jobs go on to their queues; the jobs keep their places in those queues (R153, R253, R257). -/
def State.dropTwins (s : State) (key : Nat) : State :=
  (s.ops.filter fun o => o.gang == key && o.cls == 1).foldl (fun s o =>
    let dome := domeOf (partnerCore o.core)
    (List.range 8).foldl (fun s b =>
      if (s.bankAt dome b).heldFor == some o.id then s.freeBank dome b else s) s) s

/-- A gang and its twin jobs leave the owner queues of the domes they were on, as the gang is restored elsewhere. -/
def State.leaveOldQueues (s : State) (key core : Nat) : State :=
  let old := (s.gangAt key).core
  let mine := key :: ((s.ops.filter fun o => o.gang == key).map fun o => twinKey o.id)
  let leave := fun (s : State) dome =>
    (List.range 8).foldl (fun s b => s.updBank dome b fun k => { k with queue := k.queue.filter fun h => !mine.contains h }) s
  if domeOf old = domeOf core then s else leave (leave s (domeOf old)) (domeOf (partnerCore old))

/-- Operations of a gang go back to their committed positions: what a Lantern computed beyond them is not kept (R252); one that waits
for its wick is saved unstarted and leaves the queue (R253, R257, R367). -/
def State.stopOps (s : State) (key : Nat) : State :=
  let ids := (s.ops.filter fun o => o.gang == key && o.wick == .waiting).map Op.id
  let stop := fun o : Op =>
    if o.gang = key then { o with ps := o.pc, triples := [], loads := [], wick := if o.wick == .waiting then .notAsked else o.wick } else o
  { s with
    ops := s.ops.map stop,
    chandler := { s.chandler with queue := s.chandler.queue.filter fun w => !ids.contains w.op } }

/-- A drain that waits for the order of a bank keeps that wait while its gang owns the bank (R257); otherwise it is tried anew (log 28, DEDUCED). -/
def Lane.keepDrain (x : Lane) (owned : List Nat) : Lane :=
  match x.wait with
  | .drainOrder b _ _ => if owned.contains b then x else { x with wait := .retest }
  | _ => x

/-- Save a gang whose image has its room in the pool: banks with their pending releases, operand-buffer bytes, operations and waits
(R253). -/
def State.saveImage (s : State) (key : Nat) : State :=
  let dome := domeOf (s.gangAt key).core
  let owned := s.ownedBanks key
  let banks := owned.map fun b => (b, (s.bankAt dome b).words)
  let releases := owned.filterMap fun b => (s.bankAt dome b).release.map fun n => (b, n)
  let bufs := s.tileBytes key
  let n := s.imagePieces key
  let s := (s.endService key).stopOps key
  let s := s.updGang key fun g =>
    { g with savedBanks := banks, savedReleases := releases, savedOpbuf := bufs, savedPartners := s.partnerBanks key, image := n,
             retries := [] }
  let s := s.updGang key fun g => g.save (s.codeOf g) (g.lanesWhere fun _ x => x.live && x.wait == .ready)
  let s := s.updGang key fun g => g.updLanes (BitVec.allOnes 32) fun _ x => x.keepDrain owned
  let s := s.performAll key
  let s := s.updGang key fun g => { g with place := .saved }
  let s := s.dropTwins key
  (owned.foldl (fun s b => s.freeBank dome b) s).unfuse (s.gangAt key).core

/-- PRE-EMPTION: the gang leaves its core; what R253 lists is saved, its banks go to the next in their queues (R253, R255) (log 13, DEDUCED). -/
def State.saveGang (s : State) (key : Nat) : State :=
  let s := s.closeForEvent key fun l => ((s.gangAt key).lane l).pc
  if (s.gangAt key).alive then ((s.takePieces (s.ctxNum key) (s.imagePieces key)).getD s).saveImage key else s

/-- The wick of a matrix operation that goes to another die draws on that die's power (R365, R366); stacks and ports stay. -/
def WickRequest.moveTo (w : WickRequest) (old new : Nat) : WickRequest :=
  { w with watts := w.watts.map fun x => if x.1 = old then (new, x.2) else x }

/-- The power that a restored gang's operations draw moves with them. -/
def State.moveWicks (s : State) (key old new : Nat) : State :=
  let ids := (s.ops.filter fun o => o.gang == key && o.cls == 1).map Op.id
  let op := fun o : Op =>
    if ids.contains o.id then { o with reserves := o.reserves.map fun x => if x.1 = old then (new, x.2) else x } else o
  let wick := fun w : WickRequest => if ids.contains w.op then w.moveTo old new else w
  { s with ops := s.ops.map op, chandler := { s.chandler with granted := s.chandler.granted.map wick } }

/-- Waits at MACQ of a restored gang: it stands in the queue where it stood, or, on another dome, at the tail (R141, R335) (log 13, DEDUCED). -/
def State.rejoinQueues (s : State) (key dome : Nat) : State :=
  let g := s.gangAt key
  let waits := (lanesOf g.liveMask).filterMap fun l => match (g.lane l).wait with | .macq b => some b | _ => none
  waits.eraseDups.foldl (fun s b =>
    let join := fun k : Bank => if k.queue.contains key then k else { k with queue := k.queue ++ [key] }
    (s.updBank dome b join).bankNext dome b) s

/-- The end of a sleep in some lanes: the wake bit clears, the reason goes to the sleeps' registers (R130). -/
def Gang.endSleep (g : Gang) (m : LaneMask) (reason : Word) : Gang :=
  (lanesOf m).foldl (fun g l =>
    match (g.lane l).wait with
    | .sleep _ reg resume =>
      { (g.setS reg reason).updLane l (fun x => { x with wait := .ready, pc := resume }) with wake := false }
    | _ => g) g

/-- The lanes of a gang that sleep, and those of them whose time has come. -/
def Gang.sleepers (g : Gang) : LaneMask := g.lanesWhere fun _ x => match x.wait with | .sleep _ _ _ => x.live | _ => false
def Gang.sleptOut (g : Gang) (now : Nat) : LaneMask :=
  g.lanesWhere fun _ x => match x.wait with | .sleep til _ _ => x.live && decide (til ≤ now) | _ => false

/-- Whether a lane waits at the superstep of a group. -/
def Lane.atStep (x : Lane) (group : Nat) : Bool := match x.wait with | .sstep g _ => x.live && g == group | _ => false

/-- The step number of a gang in a group (R130). -/
def Gang.stepOf (g : Gang) (group : Nat) : Nat :=
  match g.members.find? fun m => m.live && m.group == group with | some m => m.step | none => 0

/-- A gang passes the superstep: its waiting lanes go on, its step number rises by 1 (R130). -/
def Gang.passStep (g : Gang) (group : Nat) : Gang :=
  let g := g.updLanes g.liveMask fun _ x =>
    match x.wait with
    | .sstep k resume => if k = group then { x with wait := .ready, pc := resume } else x
    | _ => x
  let up := fun m : Membership => if m.group = group then { m with step := m.step + 1 } else m
  { g with members := g.members.map up }

/-- The waits of a restored gang are tested again: sets, supersteps that its groups have passed meanwhile, sleeps (R57, R134, R254) (log 13, DEDUCED). -/
def Gang.retestWaits (g : Gang) (groups : List GroupState) (now : Nat) : Gang :=
  let g := (groups.filter fun x => g.inGroup x.index && decide (g.stepOf x.index < x.step)).foldl (fun g x => g.passStep x.index) g.completeAll
  let g := if g.wake then g.endSleep g.sleepers 1 else g
  g.endSleep (g.sleptOut now) 0

/-- RESTORE a saved gang onto a core: banks, operand-buffer bytes, operations; its waits are tested again (R134, R254, R257) (log 13, DEDUCED). -/
def State.loadGang (s : State) (key core : Nat) : State :=
  let g := s.gangAt key
  let dome := domeOf core
  let s := s.leaveOldQueues key core
  let s := g.savedBanks.foldl (fun s b =>
    s.updBank dome b.1 fun k => { k with owner := some key, left := none, words := b.2, release := (g.savedReleases.find? fun r => r.1 == b.1).map Prod.snd }) s
  let s := g.savedPartners.foldl (fun s b =>
    s.updBank (domeOf (partnerCore core)) b.2.1 fun k =>
      { k with owner := some key, heldFor := some b.1, left := none, words := b.2.2 }) s
  let s := g.savedOpbuf.foldl (fun s b => s.putOpbuf core b.1 b.2) s
  let move := fun o : Op => if o.gang = key then { o with core := core } else o
  let s := ({ s with ops := s.ops.map move } : State).moveWicks key (dieOf g.core) (dieOf core)
  let s := s.givePieces (s.ctxNum key) g.image
  let s := s.updGang key fun g =>
    { g.retestWaits (s.launchAt g.launch).groups s.now with
        image := 0, core := core, savedBanks := [], savedReleases := [], savedOpbuf := [], savedPartners := [], windowFreed := false,
        place := match g.park with | some (.served _) | none => .resident core | some _ => .parked core,
        park := match g.park with | some (.served _) => none | p => p }
  let s := (g.savedReleases.foldl (fun s r =>
    if s.opsBefore key r.1 r.2 then s else s.freeBank dome r.1) s).rejoinQueues key dome
  match (s.gangAt key).marked with
  | some (reason, held) =>
    let s := s.updGang key fun g => { g with place := .saved }
    let s := s.divertNow key reason held
    s.updGang key fun g => { g with place := .resident core, park := none }
  | none => s

end Sys2Proof.Machine
end

