-- ==== Sys2Proof/Machine/Launches.lean ====
section
/-!
DEFINITION. Sys2Proof/Machine/Launches.lean: what control instructions and Lamplighter events share: creating gangs (R75, R183,
R202, R216), service records (R194), enqueueing (R76, R185, R186), popping items (R187), the order of gangs (R363).
-/

namespace Sys2Proof.Machine

/-! ### Gangs -/

/-- Whether a code object declares a role; a roles field of 0 declares role 3 alone (R182). -/
def Code.declares (c : Code) (r : Nat) : Bool := if c.roles = 0 then r == 3 else c.roles / 2 ^ r % 2 == 1

/-- The seed gang's role (R182). -/
def Code.seedRole (c : Code) : Nat :=
  if c.declares 3 then 3 else if c.declares 0 then 0 else if c.declares 1 then 1 else 2

/-- The stack depth of a role in a launch (R202). -/
def Launch.stackDepth (l : Launch) (role : Nat) : Nat :=
  let r := if l.code.declares role then role else l.code.seedRole
  let b := l.pkt.stackBytes.getD r 0
  32 * (if b = 0 then l.code.stackBytes.getD r 0 else b)

/-- A gang at its start, not yet placed (R183). -/
def Launch.freshGang (l : Launch) (launch num role entry : Nat) (members : List Membership) (born : Nat) : Gang :=
  { Gang.absent with
    launch := launch, num := num, place := .unplaced, core := 0, role := role, dstack := l.stackDepth role,
    lanes := (List.range 32).map (fun k => (k, { Lane.vacant with live := true, pc := entry })),
    sregs := (Table.set (0 : Word) 1 ((l.pkt.karg >>> 32).setWidth 32) (Table.set 0 0 (l.pkt.karg.setWidth 32) [])),
    scratchSize := l.code.scratch, windowFreed := false, members := members, born := born }

/-- Create a gang; one created in a launch in wrap-up begins at the snuff entry (R75, R353, R356). -/
def State.createGang (s : State) (launch num role entry : Nat) (members : List Membership) : State :=
  let l := s.launchAt launch
  let key := gangKey launch num
  let s := s.setGang key (l.freshGang launch num role entry members s.nextBorn)
  let s := { s with nextBorn := s.nextBorn + 1 }
  match l.wrap with
  | some reason => s.divertNow key reason false
  | none => s

/-- Create gangs first, first + 1, … of one FAN. -/
def State.createGangs (s : State) (launch role entry : Nat) (members : List Membership) : Nat → Nat → State
  | _, 0 => s
  | first, n + 1 => (s.createGang launch first role entry members).createGangs launch role entry members (first + 1) n

/-- A membership of a group at its current Meridian step (R130, R216). -/
def Launch.join (l : Launch) (group : Nat) : Membership :=
  { group := group, live := true,
    step := match l.groups.find? fun g => g.index == group with | some g => g.step | none => 0 }

/-- The memberships that the gangs of a FAN start with: the first empty co-resident group, then inherited groups, at most four
(R216). -/
def fanMembers (l : Launch) (g : Gang) : List Membership :=
  let batch := ((l.groups.filter fun x => x.coresident && !x.fixed).map GroupState.index).take 1
  let own := (l.groups.filter fun x => !x.coresident && g.inGroup x.index).map GroupState.index
  ((batch ++ own).take 4).map l.join

/-- The batch of a FAN fixes the group it fills (R216). -/
def Launch.fixBatch (l : Launch) : Launch :=
  match l.groups.find? fun x => x.coresident && !x.fixed with
  | none => l
  | some b => { l with groups := l.groups.map fun x => if x.index = b.index then { x with fixed := true } else x }

/-! ### Service ring (R67, R194) -/

/-- Bytes of the service ring; 0 while there is none. -/
def Ctx.ringBytes (c : Ctx) : Nat := if c.srbase = 0 then 0 else 2 ^ min 24 c.srsize

/-- Bytes a pad takes before a record of `size` bytes. -/
def Ctx.padBytes (c : Ctx) (size : Nat) : Nat :=
  let pos := c.shead % max 1 c.ringBytes
  if c.ringBytes < pos + size then c.ringBytes - pos else 0

/-- Whether a record fits now. -/
def Ctx.recordFits (c : Ctx) (size : Nat) : Bool := decide (c.shead - c.sfree + c.padBytes size + size ≤ c.ringBytes)

/-- A pad record of n bytes (R194); LANES, GANG, PC, RSTAT and REQ of a pad are 0, and it counts no REQ (log 49, DESIGN CHOICE). -/
def padRecord (ctx n : Nat) : List Byte :=
  (bytesLE 4 n ++ bytesLE 2 0xFFFF ++ bytesLE 1 1 ++ bytesLE 1 ctx ++ bytesLE (n - 8) 0).take n

/-- A service record: header and one block per lane (R194). -/
def svcRecord (ctx : Nat) (c : Ctx) (gang num pc : Nat) (m : LaneMask) (words : List Word) : List Byte :=
  let lanes := lanesOf m
  bytesLE 4 (64 + 32 * lanes.length) ++ bytesLE 2 num ++ bytesLE 1 0 ++ bytesLE 1 ctx ++ bytesLE 4 m.toNat ++
    bytesLE 4 gang ++ bytesLE 4 pc ++ bytesLE 4 0 ++ bytesLE 8 c.req ++ bytesLE 32 0 ++
    words.flatMap fun w => bytesLE 4 w.toNat

/-- The address of an offset of the service ring (R194) (log 33, DEDUCED). -/
def Ctx.ringAddr (c : Ctx) (off : Nat) : DWord := c.srbase + BitVec.ofNat 64 off

/-- What a record and the pad before it put into the ring (R194), or the state in which they are tried again: where a pin or a line under
way holds them up (R295), or where the ring is not resident (log 33, DEDUCED). -/
def State.ringPut (s : State) (a : Agent) (pos pad start : Nat) (record : List Byte) : Except State State :=
  let c := s.ctxAt a.ctx
  let held := fun e : AccCause × DWord => match e with | (.wait, va) => (s.unplan a.req).askLine a va true none | _ => s
  match writeRange s a (c.ringAddr pos) (if pad = 0 then [] else padRecord a.ctx pad) with
  | .error e => .error (held e)
  | .ok t =>
    match writeRange t a (c.ringAddr start) record with
    | .error e => .error (held e)
    | .ok u => .ok u

/-- Write the record of a parked gang when the ring has room, with a release of the gang at system scope (R290); the gang then waits
for the reply (R67, R194). `words` are those of its blocks. -/
def State.svcWrite (s : State) (key num pc : Nat) (m : LaneMask) (words : List Word) : State :=
  let ctx := s.ctxNum key
  let c := s.ctxAt ctx
  let size := 64 + 32 * (lanesOf m).length
  let pad := c.padBytes size
  let pos := c.shead % max 1 c.ringBytes
  let start := (c.shead + pad) % max 1 c.ringBytes
  if !c.recordFits size then s
  else
    let t := s.releaseAll key 5
    match t.ringPut (s.lampNear ctx (s.gangAt key).core) pos pad start (svcRecord ctx c (s.gangAt key).num num pc m words) with
    | .error u => u
    | .ok s =>
      let padRec : List SvcRecord := if pad = 0 then [] else [{ at_ := pos, size := pad, gang := none }]
      let s := s.updCtx ctx fun c =>
        { c with shead := c.shead + pad + size, req := c.req + 1,
                 records := c.records ++ padRec ++ [{ at_ := start, size := size, gang := some key }] }
      let s := s.updGang key fun g => { g with park := some (.svcReply m start) }
      s.emit (.ctxVector ctx)

/-! ### Enqueueing (R76, R185, R186) -/

/-- Entries of a die's pending-launch store in use; an ENQ takes its entry when it writes its packet (R185). -/
def State.storeUsed (s : State) (die : Nat) : Nat :=
  (s.pendings.filter fun p => p.die == die).length +
    ((s.queues.map Prod.snd).filter fun q => q.home == die).foldl (fun n q => n + q.enqueued.length) 0

/-- Whether a queue is open to ENQ from a context (R185). -/
def Queue.openTo (q : Queue) (ctx : Nat) : Bool := q.feed && q.state == .active && q.ctx == ctx

/-- Whether a store entry and a ring slot are free (R185). -/
def State.enqRoom (s : State) (queue : Nat) : Bool :=
  let q := s.queueAt queue
  decide (s.storeUsed q.home < 4096) && decide (q.widx - q.ridx < 2 ^ q.slots)

/-- The child's deadline (R186). -/
def childDeadline (parent image : Nat) : Nat := if parent ≠ 0 && (image = 0 || parent < image) then parent else image

/-- The slot bytes of an image: VALID set, deadline by R186, the rest copied. -/
def slotImage (parent : Nat) (bs : List Byte) : List Byte :=
  let first := (bs.headD 0) ||| 1
  let d := childDeadline parent (natLE ((bs.drop 24).take 8))
  first :: ((bs.drop 1).take 23 ++ bytesLE 8 d ++ bs.drop 32)

/-- The address of the ring slot of an index. -/
def Queue.slotAddr (q : Queue) (i : Nat) : DWord := q.ring + BitVec.ofNat 64 (64 * (i % 2 ^ q.slots))

/-- The Lamplighter that writes a slot for an ENQ: one of the queue's home die; a line of a window that it needs is asked for under the number
of the party that waits for it (R185, R287, R324). -/
def State.slotAgent (s : State) (q : Queue) (req : Nat) : Agent := { s.lampOf q.ctx q.home with req := req }

/-- Write a slot image at the write index, raise WIDX, count the child in its parent (R184, R185) (log 23, DEDUCED). -/
def State.enqueue (s : State) (queue parent req : Nat) (bs : List Byte) : Except (AccCause × DWord) State :=
  let q := s.queueAt queue
  match writeRange s (s.slotAgent q req) (q.slotAddr q.widx) bs with
  | .error c => .error c
  | .ok t =>
    let t := t.setQueue queue { q with widx := q.widx + 1, enqueued := q.enqueued ++ [{ index := q.widx, parent := parent }] }
    .ok ((t.spawnUp parent 1).post q.home (.intake queue))

/-! ### Items (R187) -/

/-- Pop the next item of a launch for a gang: its 64 bits, or why it cannot be read. -/
def State.popItem (s : State) (key : Nat) : Except AccCause (DWord × State) :=
  let launch := (s.gangAt key).launch
  let l := s.launchAt launch
  let va := l.itemAddr + BitVec.ofNat 64 (8 * l.itemNext)
  match readGlobal s (s.agentOf key) va 8 .read with
  | .error c => .error c
  | .ok bs =>
    .ok (BitVec.ofNat 64 (natLE bs), (s.noteVa (s.agentOf key) va).updLaunch launch fun l => { l with itemNext := l.itemNext + 1 })

/-- Whether the item queue holds an item. -/
def Launch.hasItem (l : Launch) : Bool := decide (l.itemNext < l.itemCount)

/-! ### The order of gangs (R363) -/

/-- Whether a gang is in wrap-up, or is a marked image, which enters it as it is restored (R355, R362). -/
def Gang.wrapping (g : Gang) : Bool := g.wrap || (g.marked.isSome && g.place == .saved)

/-- PRIO as it acts (R178). -/
def PacketFields.cls (p : PacketFields) : Nat := min 7 p.prio

/-- Whether a snuff or a kill of a launch is due and not yet done; neither acts on a launch whose counter is 0 or that a fatal fault ended
(R258, R353, R358). -/
def State.actionDue (s : State) (l : Launch) : Bool :=
  l.phase == .running && l.pkt.deadline != 0 && l.spawn != 0 && l.lerr &&& 0x44 == 0 &&
    (decide (l.pkt.deadline ≤ s.now) || (l.wrap.isNone && decide (l.pkt.deadline - min l.pkt.budget l.pkt.deadline ≤ s.now)))

/-- Whether the Lamplighter slot of a core holds urgent work (R181, R363): the service of a park, a spill or a fill, a ticket taken over
from another agent, or, while its agent is free for it, a snuff or kill that is due on its die or the restore of a marked image (log 25, DEDUCED). -/
def State.urgent (s : State) (core : Nat) : Bool :=
  let die := dieOf core
  let mine := (s.dieAt die).tickets.filter fun t => t.agent == some core
  (mine.any fun t => t.taken || (match t.job with | .service _ => true | _ => false)) ||
    (mine.isEmpty &&
      (s.launches.any (fun kl => kl.2.die == die && s.actionDue kl.2) ||
        s.gangs.any fun kg => kg.2.marked.isSome && kg.2.place == .saved && (s.launchAt kg.2.launch).die == die))

/-- The rank of a gang: wrap-up first, then the slot with urgent work, then class, slack and creation; infinite slack comes last of its
class; the slot without urgent work stands in class 7 with slack 0 (log 25, DEDUCED). -/
def State.rank (s : State) (key : Nat) : List Int :=
  let g := s.gangAt key
  let p := (s.launchAt g.launch).pkt
  let first : Int := if g.wrapping then 0 else if g.lamp && s.urgent g.core then 1 else 2
  if g.lamp then [first, 0, 0, 0, g.born]
  else
    match (s.launchAt g.launch).slack with
    | some t => [first, 7 - (p.cls : Int), 0, t, g.born]
    | none => [first, 7 - (p.cls : Int), 1, 0, g.born]

/-- Whether one rank comes before another. -/
def rankBefore : List Int → List Int → Bool
  | x :: xs, y :: ys => if x < y then true else if y < x then false else rankBefore xs ys
  | _, _ => false

/-- Put a gang into a list by its rank. -/
def State.rankInsert (s : State) (key : Nat) : List Nat → List Nat
  | [] => [key]
  | k :: ks => if rankBefore (s.rank k) (s.rank key) then k :: s.rankInsert key ks else key :: k :: ks

/-- Gangs in the order of their ranks. -/
def State.ranked (s : State) (keys : List Nat) : List Nat := keys.foldl (fun ks k => s.rankInsert k ks) []

end Sys2Proof.Machine
end

