-- ==== Sys2Proof/Machine/Boot.lean ====
section
/-!
DEFINITION. Sys2Proof/Machine/Boot.lean: a program placed from outside, as a companion and the Lamplighters would leave it once a
launch of it is admitted and its seed gang placed (R175 to R183, log 14, DESIGN CHOICE): a page table of context 0 that maps the low 128 MiB to
themselves (R283), a code object there, launch 0, its seed gang on core 0.
-/

namespace Sys2Proof.Machine

/-- Where the page table's two tables and the code object stand. -/
def bootRoot : Nat := 0x10000
def bootTable : Nat := 0x11000
def bootCode : Nat := 0x20000

/-- The launch of a program of n packets. -/
def bootLaunch (n : Nat) : Launch :=
  { Launch.absent with
      phase := .running, code := { Code.zero with base := BitVec.ofNat 64 bootCode, n := n, entries := [0] }, spawn := 1,
      nextGang := 1, steps := 0 }

/-- The package with a program's words at the code object's packets, its seed gang about to issue the first one (log 14, DESIGN CHOICE). -/
def State.bootProgram (s : State) (words : List Word) : State :=
  let l := bootLaunch ((words.length + 2) / 3)
  let s := s.updCtx 0 fun c => { c with ptroot := BitVec.ofNat 64 bootRoot }
  let s := s.putBytes bootRoot (bytesLE 8 (bootTable + 1))
  let s := s.putBytes bootTable (bytesLE 8 15)
  let s := s.putBytes bootCode (words.flatMap fun w => bytesLE 4 w.toNat)
  let s := s.setLaunch 0 l
  s.setGang 0 { l.freshGang 0 0 3 0 [] 0 with place := .resident 0, core := 0 }

end Sys2Proof.Machine
end

