-- ==== Sys2Proof/Machine/Operands.lean ====
section
/-!
DEFINITION. Sys2Proof/Machine/Operands.lean: what operand codes read (R18 to R21, R23, R47, R80, R87). Every register source is read
as it stood before the chain issued (R14). Codes that are illegal in a field never reach a reader: the check of R31 comes first;
the readers give 0 for them.
-/

namespace Sys2Proof.Machine

/-- The inline constant of a code 96-111 (R19). -/
def inlineConst (c : Nat) : Word :=
  match c with
  | 96 => 0
  | 97 => 1
  | 98 => 2
  | 99 => 3
  | 100 => 4
  | 101 => 8
  | 102 => 16
  | 103 => 0xFFFFFFFF
  | 104 => 0xFFFFFFFE
  | 105 => 0x3F000000
  | 106 => 0x3F800000
  | 107 => 0x40000000
  | 108 => 0x40800000
  | 109 => 0xBF800000
  | 110 => 0xBF000000
  | 111 => 0x80000000
  | _ => 0

/-- One 16-bit element in both halves (R20). -/
def both (h : BitVec 16) : Word := h ++ h

/-- An inline constant of a packed 16-bit integer operation (R20). -/
def inlineInt16 (c : Nat) : Word := both ((inlineConst c).setWidth 16)

/-- An inline constant as a 16-bit floating-point element, BF16 or FP16 (R20). -/
def inlineFp16 (f16 : Bool) (c : Nat) : Word :=
  both (match c, f16 with
    | 97, false => 0x3F80
    | 98, false => 0x4000
    | 99, false => 0x4040
    | 100, false => 0x4080
    | 101, false => 0x4100
    | 102, false => 0x4180
    | 103, false => 0xBF80
    | 104, false => 0xC000
    | 105, false => 0x3F00
    | 106, false => 0x3F80
    | 107, false => 0x4000
    | 108, false => 0x4080
    | 109, false => 0xBF80
    | 110, false => 0xBF00
    | 97, true => 0x3C00
    | 98, true => 0x4000
    | 99, true => 0x4200
    | 100, true => 0x4400
    | 101, true => 0x4800
    | 102, true => 0x4C00
    | 103, true => 0xBC00
    | 104, true => 0xC000
    | 105, true => 0x3800
    | 106, true => 0x3C00
    | 107, true => 0x4000
    | 108, true => 0x4400
    | 109, true => 0xBC00
    | 110, true => 0xB800
    | 111, _ => 0x8000
    | _, _ => 0)

/-- The uniform specials (R21). -/
def State.uniform (s : State) (c : Nat) : Word :=
  match c with
  | 115 => BitVec.ofNat 32 s.issue.src.num
  | 116 => BitVec.ofNat 32 (domeOf s.issue.src.core)
  | 117 => BitVec.ofNat 32 s.issue.src.core
  | 118 => s.clock.eph.setWidth 32
  | 119 => (s.clock.eph >>> 32).setWidth 32
  | _ => 0

/-- A scalar operand (R18, R19, R21). -/
def State.scalar (s : State) (c : BitVec 7) : Word :=
  let n := c.toNat
  if n < 96 then s.issue.src.sreg n
  else if n < 112 then inlineConst n
  else if n = 127 then s.issue.literal
  else s.uniform n

/-- `x`n of a source field (R7, R14). -/
def State.pairAt (s : State) (n : Nat) : DWord := s.issue.src.pair n

/-- A 64-bit scalar source (R19, R21, R47). -/
def State.scalar64 (s : State) (c : BitVec 7) : DWord :=
  let n := c.toNat
  if n < 96 then s.pairAt n
  else if n < 105 then (inlineConst n).signExtend 64
  else if n < 112 then (inlineConst n).setWidth 64
  else if n = 127 then s.issue.literal.signExtend 64
  else if n = 118 then s.clock.eph
  else (s.uniform n).setWidth 64

/-- A vector operand of a lane whose inline constants `const` gives (R18, R21). -/
def State.vectorBy (s : State) (const : Nat → Word) (l : Nat) (c : BitVec 7) : Word :=
  let n := c.toNat
  if n < 64 then (s.srcLane l).vreg n
  else if n < 96 then s.issue.src.sreg (n - 64)
  else if n < 112 then const n
  else if n = 112 then BitVec.ofNat 32 l
  else if n = 113 then BitVec.ofNat 32 (l / s.issue.src.band)
  else if n = 114 then BitVec.ofNat 32 (l % s.issue.src.band)
  else if n = 120 then BitVec.ofNat 32 (s.srcLane l).depth
  else if n = 127 then s.issue.literal
  else s.uniform n

/-- A 32-bit vector operand. -/
def State.vector (s : State) (l : Nat) (c : BitVec 7) : Word := s.vectorBy inlineConst l c

/-- An operand of a class 4 operation, packed when h = 1 (R20, R80). -/
def State.vectorInt (s : State) (h : BitVec 1) (l : Nat) (c : BitVec 7) : Word :=
  s.vectorBy (if h = 1 then inlineInt16 else inlineConst) l c

/-- An operand of a class 5 operation: packed BF16 or FP16 when h = 1 (R20, R80). -/
def State.vectorFp (s : State) (h : BitVec 1) (l : Nat) (c : BitVec 7) : Word :=
  s.vectorBy (if h = 1 then inlineFp16 (s.issue.pfx.x.getLsbD 7) else inlineConst) l c

/-- The addend C: the old destination where o = 0, else the vector operand o (R87). -/
def State.addend (s : State) (const : Nat → Word) (l : Nat) (d : BitVec 6) : Word :=
  if s.issue.pfx.o = 0 then (s.srcLane l).vreg d.toNat else s.vectorBy const l s.issue.pfx.o

/-- A predicate of a lane as a source (R14, R22). -/
def State.predAt (s : State) (l n : Nat) : Bool := (s.srcLane l).pred n

/-- The two halves of a register, each through a function (R80). -/
def perHalf (f : BitVec 16 → BitVec 16 → BitVec 16) (a b : Word) : Word :=
  f (a.extractLsb' 16 16) (b.extractLsb' 16 16) ++ f (a.extractLsb' 0 16) (b.extractLsb' 0 16)

/-- The halves of three registers. -/
def perHalf3 (f : BitVec 16 → BitVec 16 → BitVec 16 → BitVec 16) (a b c : Word) : Word :=
  f (a.extractLsb' 16 16) (b.extractLsb' 16 16) (c.extractLsb' 16 16) ++
    f (a.extractLsb' 0 16) (b.extractLsb' 0 16) (c.extractLsb' 0 16)

/-- Write a vector destination: each active lane gets its value, an inactive one keeps its own or with z = 1 takes what `idle` gives (R25);
that is 0 but for a result that goes into one element of the register, whose other elements stay (R90, R93). -/
def State.writePart (s : State) (d : Nat) (f idle : Nat → Word) : State :=
  let t := s.active.foldl (fun t l => t.writeV l d (f l)) s
  if s.issue.pfx.z = 1 then s.inactive.foldl (fun t l => t.writeV l d (idle l)) t else t

/-- The same with 0 for inactive lanes with z = 1. -/
def State.writeLanes (s : State) (d : Nat) (f : Nat → Word) : State := s.writePart d f fun _ => 0

/-- The same for a predicate destination. -/
def State.writePreds (s : State) (p : Nat) (f : Nat → Bool) : State :=
  let t := s.active.foldl (fun t l => t.writeP l p (f l)) s
  if s.issue.pfx.z = 1 then s.inactive.foldl (fun t l => t.writeP l p false) t else t

/-- The predicate that d and h name (R22). -/
def predIndex (d : BitVec 6) (h : BitVec 1) : Nat := d.toNat * 2 + h.toNat

end Sys2Proof.Machine
end

