-- ==== Sys2Proof/Machine/Scalar.lean ====
section
/-!
DEFINITION. Sys2Proof/Machine/Scalar.lean: classes 0 and 1: scalar arithmetic (R46, R47), immediates (R48), system registers
(R35, R36, R228, R274, R277, R353, R369), device time.
-/

namespace Sys2Proof.Machine

/-- How a meaning answers: the next state. -/
abbrev Result := Host.Outcome State Fault Refusal

/-! ### Values -/

/-- Leading zero bits of a value of any width (R46, R84). -/
def clz {w : Nat} (x : BitVec w) : Nat :=
  ((List.range w).find? fun i => x.getLsbD (w - 1 - i)).getD w

/-- The bits of a value in reverse order. -/
def bitReverse (x : Word) : Word := BitVec.ofNat 32 ((List.range 32).foldl (fun n i => 2 * n + (x.getLsbD i).toNat) 0)

/-- A bit field: start in bits 4:0, width in bits 10:5; widths above 32 act as 32 (R46). -/
def bitField (a b : Word) : Word :=
  let start := b.toNat % 32
  let width := min 32 (b.toNat / 32 % 64)
  BitVec.ofNat 32 (a.toNat / 2 ^ start % 2 ^ width)

/-- Bits 63:32 of products (R46). -/
def mulHighU {w : Nat} (a b : BitVec w) : BitVec w := BitVec.ofNat w (a.toNat * b.toNat / 2 ^ w)
def mulHighS {w : Nat} (a b : BitVec w) : BitVec w := BitVec.ofInt w (a.toInt * b.toInt / 2 ^ w)

/-- Signed and unsigned minimum and maximum. -/
def minS {w : Nat} (a b : BitVec w) : BitVec w := if a.slt b then a else b
def maxS {w : Nat} (a b : BitVec w) : BitVec w := if a.slt b then b else a
def minU {w : Nat} (a b : BitVec w) : BitVec w := if a.ult b then a else b
def maxU {w : Nat} (a b : BitVec w) : BitVec w := if a.ult b then b else a

/-- 1 where a relation holds, else 0. -/
def boolWord (b : Bool) : Word := if b then 1 else 0

/-- A class 0 operation of two 32-bit sources (R46). -/
def State.scalar2 (s : State) (d a b : BitVec 7) (f : Word → Word → Word) : Result :=
  .next (s.writeS d.toNat (f (s.scalar a) (s.scalar b)))

/-- A class 0 operation of one source. -/
def State.scalar1 (s : State) (d a : BitVec 7) (f : Word → Word) : Result := .next (s.writeS d.toNat (f (s.scalar a)))

/-- A class 1 operation on D and the immediate (R48). -/
def State.immediate (s : State) (d : BitVec 7) (f : Word → Word) : Result :=
  .next (s.writeS d.toNat (f (s.issue.src.sreg d.toNat)))

/-! ### Class 0 (R46, R47) -/

def execSadd (d a b : BitVec 7) (s : State) : Result := s.scalar2 d a b fun x y => x + y
def execSsub (d a b : BitVec 7) (s : State) : Result := s.scalar2 d a b fun x y => x - y
def execSmul (d a b : BitVec 7) (s : State) : Result := s.scalar2 d a b fun x y => x * y
def execSmulhu (d a b : BitVec 7) (s : State) : Result := s.scalar2 d a b mulHighU
def execSmulhs (d a b : BitVec 7) (s : State) : Result := s.scalar2 d a b mulHighS
def execSand (d a b : BitVec 7) (s : State) : Result := s.scalar2 d a b fun x y => x &&& y
def execSor (d a b : BitVec 7) (s : State) : Result := s.scalar2 d a b fun x y => x ||| y
def execSxor (d a b : BitVec 7) (s : State) : Result := s.scalar2 d a b fun x y => x ^^^ y
def execSandn (d a b : BitVec 7) (s : State) : Result := s.scalar2 d a b fun x y => x &&& ~~~y
def execSshl (d a b : BitVec 7) (s : State) : Result := s.scalar2 d a b fun x y => x <<< (y.toNat % 32)
def execSshr (d a b : BitVec 7) (s : State) : Result := s.scalar2 d a b fun x y => x >>> (y.toNat % 32)
def execSsra (d a b : BitVec 7) (s : State) : Result := s.scalar2 d a b fun x y => x.sshiftRight (y.toNat % 32)
def execSmin (d a b : BitVec 7) (s : State) : Result := s.scalar2 d a b minS
def execSmax (d a b : BitVec 7) (s : State) : Result := s.scalar2 d a b maxS
def execSminu (d a b : BitVec 7) (s : State) : Result := s.scalar2 d a b minU
def execSmaxu (d a b : BitVec 7) (s : State) : Result := s.scalar2 d a b maxU
def execScmpeq (d a b : BitVec 7) (s : State) : Result := s.scalar2 d a b fun x y => boolWord (x == y)
def execScmplt (d a b : BitVec 7) (s : State) : Result := s.scalar2 d a b fun x y => boolWord (x.slt y)
def execScmpltu (d a b : BitVec 7) (s : State) : Result := s.scalar2 d a b fun x y => boolWord (x.ult y)
def execSmov (d a : BitVec 7) (s : State) : Result := s.scalar1 d a fun x => x
def execSclz (d a : BitVec 7) (s : State) : Result := s.scalar1 d a fun x => BitVec.ofNat 32 (clz x)
def execSpop (d a : BitVec 7) (s : State) : Result := s.scalar1 d a fun x => BitVec.ofNat 32 (popCount x)
def execSbrev (d a : BitVec 7) (s : State) : Result := s.scalar1 d a bitReverse
def execSbfe (d a b : BitVec 7) (s : State) : Result := s.scalar2 d a b bitField
def execSadd64 (d a b : BitVec 7) (s : State) : Result := .next (s.writePair d.toNat (s.scalar64 a + s.scalar64 b))
def execSsub64 (d a b : BitVec 7) (s : State) : Result := .next (s.writePair d.toNat (s.scalar64 a - s.scalar64 b))

/-- `x`d := A64 + (B << k) (R47). -/
def State.slea (s : State) (d a b : BitVec 7) (k : Nat) : Result :=
  .next (s.writePair d.toNat (s.scalar64 a + (s.scalar b).setWidth 64 <<< k))

def execSlea64_1 (d a b : BitVec 7) (s : State) : Result := s.slea d a b 1
def execSlea64_2 (d a b : BitVec 7) (s : State) : Result := s.slea d a b 2
def execSlea64_3 (d a b : BitVec 7) (s : State) : Result := s.slea d a b 3
def execSlea64_4 (d a b : BitVec 7) (s : State) : Result := s.slea d a b 4

/-! ### Class 1 (R48) -/

def execSmovi (d : BitVec 7) (i : BitVec 14) (s : State) : Result := s.immediate d fun _ => i.signExtend 32
def execSaddi (d : BitVec 7) (i : BitVec 14) (s : State) : Result := s.immediate d fun x => x + i.signExtend 32
def execSandi (d : BitVec 7) (i : BitVec 14) (s : State) : Result := s.immediate d fun x => x &&& i.setWidth 32
def execSori (d : BitVec 7) (i : BitVec 14) (s : State) : Result := s.immediate d fun x => x ||| i.setWidth 32
def execSxori (d : BitVec 7) (i : BitVec 14) (s : State) : Result := s.immediate d fun x => x ^^^ i.setWidth 32
def execSshli (d : BitVec 7) (n : BitVec 5) (s : State) : Result := s.immediate d fun x => x <<< n.toNat
def execSshri (d : BitVec 7) (n : BitVec 5) (s : State) : Result := s.immediate d fun x => x >>> n.toNat
def execSsrai (d : BitVec 7) (n : BitVec 5) (s : State) : Result := s.immediate d fun x => x.sshiftRight n.toNat
def execScmpeqi (d : BitVec 7) (i : BitVec 14) (s : State) : Result := s.immediate d fun x => boolWord (x == i.signExtend 32)
def execScmplti (d : BitVec 7) (i : BitVec 14) (s : State) : Result := s.immediate d fun x => boolWord (x.slt (i.signExtend 32))
def execSadd64i (d : BitVec 7) (i : BitVec 14) (s : State) : Result :=
  .next (s.writePair d.toNat (s.pairAt d.toNat + i.signExtend 64))
def execStime (d : BitVec 7) (s : State) : Result := .next (s.writePair d.toNat s.clock.eph)

/-! ### Chronographs (R368, R369) -/

/-- An empty Chronograph. -/
def Chrono.clear (c : Chrono) : Chrono :=
  { c with count := 0, least := 0xFFFFFFFF, greatest := 0, latest := 0, bins := [], dropped := 0 }

/-- A write of CHCFG: the fields, then CLR (R369). -/
def Chrono.config (c : Chrono) (w : Word) : Chrono :=
  let src := w.toNat % 256
  let c := { c with en := w.getLsbD 31, freeze := w.getLsbD 29, qual := w.toNat / 256 % 256, src := if src < 6 then src else 0 }
  if w.getLsbD 30 then c.clear else c

/-- CHCFG as it reads. -/
def Chrono.configWord (c : Chrono) : Word :=
  BitVec.ofNat 32 ((if c.en then 2 ^ 31 else 0) + (if c.freeze then 2 ^ 29 else 0) + c.qual * 256 + c.src)

/-- The register i of a Chronograph (R369). -/
def Chrono.read (c : Chrono) (i : Nat) : Word :=
  match i with
  | 0 => c.configWord
  | 1 => BitVec.ofNat 32 c.count
  | 2 => BitVec.ofNat 32 c.least
  | 3 => BitVec.ofNat 32 c.greatest
  | 4 => BitVec.ofNat 32 c.latest
  | 5 => BitVec.ofNat 32 c.bsel
  | 6 => BitVec.ofNat 32 (Table.get 0 c.bsel c.bins)
  | _ => BitVec.ofNat 32 c.dropped

/-- The bin of a sample (R368). -/
def chronoBin (v : Nat) : Nat := if v < 2 then 0 else min 31 v.log2

/-- One sample: taken with EN = 1 and FREEZE = 0, counted as dropped while frozen (R368, R369). -/
def Chrono.sample (c : Chrono) (v : Nat) : Chrono :=
  let top := 0xFFFFFFFF
  if !c.en then c
  else if c.freeze then { c with dropped := min top (c.dropped + 1) }
  else
    let b := chronoBin v
    { c with count := min top (c.count + 1), least := min c.least v, greatest := max c.greatest v, latest := v,
             bins := Table.put b (min top (Table.get 0 b c.bins + 1)) c.bins }

def Die.chrono (d : Die) (k : Nat) : Chrono := Table.get Chrono.reset k d.chronos
def Die.setChrono (d : Die) (k : Nat) (c : Chrono) : Die := { d with chronos := Table.put k c d.chronos }

/-- Record a sample of a source and a qualifier in every Chronograph of a die set to them (R368) (log 37, DESIGN CHOICE). -/
def State.record (s : State) (die src qual v : Nat) : State :=
  s.updDie die fun d => (List.range 32).foldl (fun d k =>
    let c := d.chrono k
    if c.src = src && c.qual = qual then d.setChrono k (c.sample v) else d) d

/-! ### System registers (R35, R36) -/

/-- BROLE as it reads (R274). -/
def Core.brole (c : Core) : Word :=
  BitVec.ofNat 32 (c.retired.length * 2 ^ 24 + c.opb * 2 ^ 16 + c.scr * 2 ^ 8 + c.cache)

/-- A write of BROLE: ignored unless the counts are nonzero and make up the working banks (R274). -/
def Core.setBrole (c : Core) (w : Word) : Core :=
  let cache := w.toNat % 64
  let scr := w.toNat / 2 ^ 8 % 64
  let opb := w.toNat / 2 ^ 16 % 64
  if cache = 0 || scr = 0 || opb = 0 || cache + scr + opb ≠ 32 - c.retired.length then c
  else { c with cache := cache, scr := scr, opb := opb }

/-- A launch's deadline and snuff time, 0 without a deadline (R353). -/
def Launch.deadline (l : Launch) : Nat := l.pkt.deadline
def Launch.snuffAt (l : Launch) : Nat := l.pkt.deadline - min l.pkt.budget l.pkt.deadline

/-- `SSYSR`: the value of a system register for a gang (R35). -/
def sysRead (s : State) (key n : Nat) : Word :=
  let g := s.gangAt key
  let l := s.launchAt g.launch
  let c := s.ctxAt l.ctx
  match n with
  | 0x000 => s.clock.eph.setWidth 32
  | 0x001 => (s.clock.eph >>> 32).setWidth 32
  | 0x002 => s.clock.adj
  | 0x010 => BitVec.ofNat 32 g.band
  | 0x011 => BitVec.ofNat 32 g.dstack
  | 0x012 => g.expmix
  | 0x013 => g.fptrap.setWidth 32
  | 0x014 => g.fpflag.setWidth 32
  | 0x015 => BitVec.ofNat 32 g.role
  | 0x020 => (s.coreAt g.core).brole
  | 0x021 => boolWord (s.domeAt (domeOf g.core)).fused
  | 0x030 => l.lerr
  | 0x031 => l.lerrPc
  | 0x032 => l.lerrWd
  | 0x033 => l.lerrGang
  | 0x040 => BitVec.ofNat 32 l.deadline
  | 0x041 => BitVec.ofNat 32 (l.deadline / 2 ^ 32)
  | 0x042 => BitVec.ofNat 32 l.snuffAt
  | 0x043 => BitVec.ofNat 32 (l.snuffAt / 2 ^ 32)
  | 0x050 => c.pinlim
  | 0x051 => s.fab.cohtmo
  | 0x052 => c.trapent
  | 0x060 => s.pkg.carve
  | _ =>
    if 0x100 ≤ n && n < 0x200 then ((s.dieAt (dieOf g.core)).chrono ((n - 0x100) / 8)).read ((n - 0x100) % 8) else 0

/-- Whether a write needs the Lamplighter slot: RWL and WO1 registers (R30, R36). -/
def sysPrivileged (n : Nat) : Bool :=
  [0x002, 0x020, 0x050, 0x051, 0x052, 0x060].contains n || (decide (0x100 ≤ n) && decide (n < 0x200) && n % 8 == 0)

/-- A write of CARVE: once after reset (R5, R190) (log 33, DEDUCED). -/
def Pkg.setCarve (p : Pkg) (w : Word) : Pkg := if p.carveSet then p else { p with carve := w &&& 0xFFFFF801, carveSet := true }

/-- `SSYSW`: the effect of a write by a gang (R35, R36). Read-only registers keep their value. -/
def sysWrite (s : State) (key n : Nat) (w : Word) : State :=
  let g := s.gangAt key
  let ctx := (s.launchAt g.launch).ctx
  match n with
  | 0x002 => { s with clock := { s.clock with adj := w } }
  | 0x012 => s.setGang key { g with expmix := w &&& 0xF }
  | 0x013 => s.setGang key { g with fptrap := w.setWidth 5 }
  | 0x014 => s.clearFlags w
  | 0x020 =>
    let c := (s.coreAt g.core).setBrole w
    if c = s.coreAt g.core then s else (s.evictLines g.core fun _ => true).setCore g.core c
  | 0x050 => s.updCtx ctx fun c => { c with pinlim := w }
  | 0x051 => { s with fab := { s.fab with cohtmo := w } }
  | 0x052 => s.updCtx ctx fun c => { c with trapent := w }
  | 0x060 => { s with pkg := s.pkg.setCarve w }
  | _ =>
    if 0x100 ≤ n && n < 0x200 then
      s.updDie (dieOf g.core) fun d =>
        let k := (n - 0x100) / 8
        match (n - 0x100) % 8 with
        | 0 => d.setChrono k ((d.chrono k).config w)
        | 5 => d.setChrono k { d.chrono k with bsel := w.toNat % 32 }
        | _ => d
    else s

/-- The gang of the chain takes the illegal-encoding outcome at the present word (R32). -/
def State.illegalHere (s : State) (case : Nat) : State := s.killIllegal s.issue.gang case s.issue.pc s.issue.word

/-- The gang as a chain reads its system registers: as it stood before the chain, with the class 7 flags that have committed since (R14,
R229). -/
def State.sysGang (s : State) : Gang := { s.issue.src with fpflag := s.issue.src.fpflag ||| s.issue.entered }

def execSsysr (d : BitVec 7) (r : BitVec 14) (s : State) : Result :=
  .next (s.writeS d.toNat (sysRead (s.setCur s.sysGang) s.issue.gang r.toNat))

def execSsysw (d : BitVec 7) (r : BitVec 14) (s : State) : Result :=
  if sysPrivileged r.toNat && !s.cur.lamp then .next (s.illegalHere 9)
  else .next (sysWrite s s.issue.gang r.toNat (s.issue.src.sreg d.toNat))

end Sys2Proof.Machine
end

