-- ==== Sys2Proof/Machine/Control.lean ====
section
/-!
DEFINITION. Sys2Proof/Machine/Control.lean: classes 2 and 3: branches, calls, returns (R50 to R60), rejoin sets (R61 to R65), traps,
service calls and signals (R66 to R69), deadline instructions (R70 to R74), creating work (R75, R76). The step has moved the
issuing lanes past the chain before its instructions act (R10, R14).
-/

namespace Sys2Proof.Machine

/-! ### Shared operations -/

/-- The windows of the issuing lanes close with this instruction: those open now at once, and those that later words of the chain open
once the chain has issued, before the lanes are redirected (R14, R27) (log 11, DEDUCED). -/
def State.closeHere (s : State) : State :=
  let t := s.updCur fun g => g.closeAll s.issue.lanes
  { t with issue := { t.issue with closing := some s.issue.pc } }

/-- Lanes go to a target; a backward branch raises their yield counters (R50, R209). -/
def State.jump (s : State) (lanes : List Nat) (target : Nat) (backward : Bool) : State :=
  if lanes.isEmpty then s
  else s.closeHere.updCur fun g => lanes.foldl (fun g l =>
    g.updLane l fun x => { x.goto target with cnt := if backward then min 16 (x.cnt + 1) else x.cnt }) g

/-- Packets of the code object of the chain's gang. -/
def State.packets (s : State) : Nat := (s.codeOf s.cur).n

/-- The offset a relative branch leads to; nothing outside the code object (R17, R33 case 10). -/
def State.relTarget (s : State) (f : BitVec 15) : Option Nat :=
  let k : Int := (s.issue.pc / 12 : Nat) + f.toInt
  if 0 ≤ k && k < s.packets then some (12 * k.toNat) else none

/-- The offset of a byte address; nothing where it is no slot 0 of the code object (R53, R55). -/
def State.absTarget (s : State) (addr : DWord) : Option Nat :=
  let off := (addr - (s.codeOf s.cur).base).toNat
  if off % 12 = 0 && decide (off < 12 * s.packets) then some off else none

/-- A relative branch taken by some issuing lanes (R50). -/
def State.branch (s : State) (f : BitVec 15) (taken : Nat → Bool) : Result :=
  match s.relTarget f with
  | none => .next (s.illegalHere 10)
  | some t => .next (s.jump ((lanesOf s.issue.lanes).filter taken) t (decide (f.toInt ≤ 0)))

/-- A gang rendezvous: the lanes wait until every live lane issues the instruction with them (R52, R79). -/
def State.rendezvous (s : State) (k : State → Result) : Result :=
  if s.issue.lanes = s.issue.src.liveMask then k s else .next (s.holdFor s.issue.lanes .rendezvous)

/-- Whether the lanes of a lane's band satisfy a test on predicate c: some of them, or all (R51, R215). -/
def State.bandTest (s : State) (all : Bool) (c : BitVec 7) (l : Nat) : Bool :=
  let w := s.issue.src.band
  let peers := (lanesOf s.issue.lanes).filter fun m => m / w == l / w
  if all then peers.all fun m => s.predAt m c.toNat else peers.any fun m => s.predAt m c.toNat

/-- Whether a register branch of class 2 is taken by a lane (R51, R56). -/
def State.zeroTest (s : State) (c : BitVec 7) : Bool := s.scalar c == 0

/-- A call with a shift in units of 8 to an offset (R53). -/
def State.callTo (s : State) (shift target : Nat) : State :=
  let m := s.issue.lanes
  match (lanesOf m).find? fun l => (s.srcLane l).depth == 255 with
  | some l => s.fatal s.issue.gang causeCallDepth s.issue.pc l 0
  | none =>
    let s := s.closeHere
    s.pushLanes s.issue.gang m (fun _ => { off := 12 * (s.issue.pc / 12 + 1), shift := shift, trap := false })
      fun _ x => x.goto target

/-- Where the trap-frame offsets of the returning lanes lead: the first lane whose offset is case 10 or whose packet cannot be
read, or nothing (R246). -/
inductive ReturnCheck where
  | fine
  | bad
  | fail (c : AccCause) (lane : Nat) (off : Nat)
  deriving DecidableEq, Repr

/-- The offset that a lane with a trap frame on top returns to: `v9` as it stood before the chain (R14, R246). -/
def State.trapOff (s : State) (l : Nat) : Option Nat :=
  let x := s.srcLane l
  match x.links with
  | k :: _ => if k.trap then some (x.vreg 9).toNat else none
  | [] => none

/-- Where an offset leads for the chain's gang. -/
def State.resumeOf (s : State) (off : Nat) : Option Nat :=
  match fetchPacket s s.issue.gang (off / 12) with
  | .ok ws => trapResume s.packets ws off
  | .error _ => none

/-- Check one returning lane. -/
def State.checkReturn (s : State) (l : Nat) : ReturnCheck :=
  match s.trapOff l with
  | none => .fine
  | some off =>
    if off % 4 ≠ 0 || 12 * s.packets ≤ off then .bad
    else
      match fetchPacket s s.issue.gang (off / 12) with
      | .error c => .fail c l (off / 12 * 12)
      | .ok ws => if (trapResume s.packets ws off).isSome then .fine else .bad

/-! ### Class 2 -/

def execBr (f : BitVec 15) (s : State) : Result := s.branch f fun _ => true
def execBrsz (c : BitVec 7) (f : BitVec 15) (s : State) : Result := s.branch f fun _ => s.zeroTest c
def execBrsnz (c : BitVec 7) (f : BitVec 15) (s : State) : Result := s.branch f fun _ => !s.zeroTest c
def execBrp (c : BitVec 7) (f : BitVec 15) (s : State) : Result := s.branch f fun l => s.predAt l c.toNat
def execBrnp (c : BitVec 7) (f : BitVec 15) (s : State) : Result := s.branch f fun l => !s.predAt l c.toNat
def execBrany (c : BitVec 7) (f : BitVec 15) (s : State) : Result := s.rendezvous fun s => s.branch f (s.bandTest false c)
def execBrall (c : BitVec 7) (f : BitVec 15) (s : State) : Result := s.rendezvous fun s => s.branch f (s.bandTest true c)

def execCall (c : BitVec 7) (f : BitVec 15) (s : State) : Result :=
  match s.relTarget f with
  | none => .next (s.illegalHere 10)
  | some t => .next (s.callTo c.toNat t)

def execCalli (c : BitVec 7) (h : BitVec 3) (s : State) : Result :=
  match s.absTarget (s.pairAt c.toNat) with
  | none => .next (s.illegalHere 10)
  | some t => .next (s.callTo h.toNat t)

/-- RET (R54); from a trap frame it is the return from the trap (R246). -/
def execRet (s : State) : Result :=
  let t := s.closeHere
  let lanes := lanesOf s.issue.lanes
  match lanes.map s.checkReturn |>.find? fun c => c != .fine with
  | some .bad => .next (s.illegalHere 10)
  | some (.fail c l off) => .next (s.failFetch c [l] ((s.codeOf s.cur).base + BitVec.ofNat 64 off))
  | _ => .next (t.returnLanes s.issue.gang s.issue.lanes fun l => let off := (s.srcLane l |>.vreg 9).toNat; (s.resumeOf off).getD off)

def execBri (c : BitVec 7) (s : State) : Result :=
  match s.absTarget (s.pairAt c.toNat) with
  | none => .next (s.illegalHere 10)
  | some t => .next (s.jump (lanesOf s.issue.lanes) t (decide (t / 12 ≤ s.issue.pc / 12)))

def execLoopd (c : BitVec 7) (f : BitVec 15) (s : State) : Result :=
  let n := s.issue.src.sreg c.toNat - 1
  if (s.relTarget f).isNone then .next (s.illegalHere 10)
  else (s.writeS c.toNat n).branch f fun _ => n != 0

/-- Completion of every set where the live mask is no longer what it was (R57). -/
def Gang.completeLive (old : LaneMask) (g : Gang) : Gang := if g.liveMask = old then g else g.completeAll

/-- Lanes become vacant (R58). -/
def Gang.vacate (g : Gang) (m : LaneMask) : Gang :=
  let g := g.updLanes m fun _ x => { x with live := false, wait := .ready }
  let g := (List.range 16).foldl (fun g k =>
    g.setJ k { g.jset k with member := (g.jset k).member &&& ~~~m, waiting := (g.jset k).waiting &&& ~~~m }) g
  g.completeAll

/-- A gang without a live lane retires (R58, R201). -/
def State.retireEmpty (s : State) (key : Nat) : State :=
  if (s.gangAt key).alive && (s.gangAt key).liveMask == 0 then s.gangExit key else s

/-- END (R58): the gang retires with its last live lane, once the chain has issued. -/
def execEnd (s : State) : Result :=
  let s := s.closeHere
  let s := s.updCur fun g => g.vacate s.issue.lanes
  .next (if s.issue.more then s else s.retireEmpty s.issue.gang)

/-- A refilled lane (R59). -/
def Lane.refill (x : Lane) (item : DWord) (entry : Nat) : Lane :=
  let g := Table.set (0 : Word) 1 ((item >>> 32).setWidth 32) (Table.set (0 : Word) 0 (item.setWidth 32) x.globals)
  { Lane.vacant with live := true, pc := entry, globals := g }

/-- A non-idempotent instruction has taken effect in the issuing lanes (R132, R249). -/
def State.spoil (s : State) : State :=
  s.updCur fun g => g.updLanes s.issue.lanes fun _ x => { x with spoiled := true }

/-- REFILL's pops, lane by lane; an item that cannot be read stops it after the pops made (R59, R78, R187). -/
def State.refillLanes (s : State) (c entry : Nat) : List Nat → Except (AccCause × State) State
  | [] => .ok s
  | l :: ls =>
    if !(s.launchOf s.issue.gang).hasItem then .ok s
    else
      match s.popItem s.issue.gang with
      | .error e => .error (e, s)
      | .ok (item, t) =>
        let t := t.givePieces (t.ctxNum t.issue.gang) (pieces (t.cur.lane l).spilled)
        let t := t.dropAreas (t.ctxNum t.issue.gang) fun o => o == 32 * t.issue.gang + l
        (t.updCur fun g =>
          (g.setLane l ((g.lane l).refill item entry)).setJ c
            { g.jset c with member := (g.jset c).member ||| laneBit l }).refillLanes c entry ls

def execRefill (c : BitVec 7) (f : BitVec 15) (s : State) : Result :=
  match s.relTarget f with
  | none => .next (s.illegalHere 10)
  | some t =>
    let k := c.toNat % 16
    let j := s.cur.jset k
    if j.freed || j.home ≠ 0 then .next (s.trapHere causeJorphan fun _ r => r)
    else if s.cur.wrap || !(s.launchOf s.issue.gang).hasItem then
      .next (s.spoil.jump (lanesOf s.issue.lanes) t (decide (f.toInt ≤ 0)))
    else
      let s := s.spoil
      let vacant := (List.range 32).filter fun l => !(s.cur.lane l).live
      match s.refillLanes k (12 * (s.issue.pc / 12 + 1)) vacant with
      | .ok t => .next (t.updCur (Gang.completeLive s.cur.liveMask))
      | .error (.page, t) =>
        let l := t.launchOf t.issue.gang
        .next ((t.updCur (Gang.completeLive s.cur.liveMask)).parkPage false 0 (l.itemAddr + BitVec.ofNat 64 (8 * l.itemNext)) .read)
      | .error (e, t) =>
        let l := t.launchOf t.issue.gang
        .next ((t.updCur (Gang.completeLive s.cur.liveMask)).failAccess e (lanesOf t.issue.lanes)
          (l.itemAddr + BitVec.ofNat 64 (8 * l.itemNext)) .read none)

/-- YIELD (R60): the lane group stands back while another ready one has not issued since. -/
def execYield (s : State) : Result :=
  .next (s.updCur fun g => g.updLanes s.issue.lanes fun _ x => { x with yieldAt := g.chains + 1 })

/-! ### Rejoin sets (R61 to R64) -/

/-- Run an operation on set k unless its use is orphaned for some issuing lane (R61). -/
def State.unlessOrphan (s : State) (k : Nat) (f : State → State) : Result :=
  if (lanesOf s.issue.lanes).any fun l => s.cur.orphaned k l then .next (s.trapHere causeJorphan fun _ r => r)
  else .next (f s)

/-- The lowest depth among lanes. -/
def Gang.lowestDepth (g : Gang) (m : LaneMask) : Nat := (lanesOf m).foldl (fun d l => min d (g.lane l).depth) 255

def execJnew (j : BitVec 4) (s : State) : Result :=
  let k := j.toNat
  .next (s.updCur fun g =>
    let g := g.releaseSet k
    (g.setJ k { member := s.issue.lanes, waiting := 0, home := g.lowestDepth s.issue.lanes, snuffed := false,
                freed := false }).complete k)

def execJenter (j : BitVec 4) (s : State) : Result :=
  let k := j.toNat
  s.unlessOrphan k fun s => s.updCur fun g =>
    g.completeChanged (g.setJ k { g.jset k with member := (g.jset k).member ||| s.issue.lanes })

def execJquit (j : BitVec 4) (s : State) : Result :=
  let k := j.toNat
  if (s.cur.jset k).freed then .next s
  else .next (s.updCur fun g =>
    g.completeChanged (g.setJ k { g.jset k with member := (g.jset k).member &&& ~~~s.issue.lanes }))

/-- JWAIT (R62): members of a set that no snuff has released wait; the others continue. -/
def execJwait (j : BitVec 4) (s : State) : Result :=
  let k := j.toNat
  s.unlessOrphan k fun s =>
    let s := s.closeHere
    s.updCur fun g =>
      let js := g.jset k
      let stay := if js.snuffed then 0 else s.issue.lanes &&& js.member
      if stay = 0 then g
      else
        let g := g.updLanes stay fun _ x => { x with wait := .jwait k x.pc, pc := s.issue.pc }
        (g.setJ k { js with waiting := js.waiting ||| stay }).complete k

def execJfree (j : BitVec 4) (s : State) : Result :=
  .next (s.updCur fun g => (g.releaseSet j.toNat).setJ j.toNat JSet.start)

def execJmask (j : BitVec 4) (x : BitVec 7) (y : BitVec 10) (s : State) : Result :=
  let js := s.cur.jset j.toNat
  .next (s.writeS x.toNat (if y = 0 then js.member else js.word))

def execJwmask (j : BitVec 4) (x : BitVec 7) (s : State) : Result :=
  .next (s.writeS x.toNat (s.cur.jset j.toNat).waiting)

/-- A field of a set as JSETM writes it (R64). -/
def JSet.stage (js : JSet) (sel : Nat) (w : Word) : JSet :=
  match sel with
  | 0 => { js with member := w }
  | 1 => { js with waiting := w }
  | _ => { js with home := w.toNat % 256, snuffed := w.getLsbD 8, freed := w.getLsbD 9 }

def execJsetm (j : BitVec 4) (x : BitVec 7) (y : BitVec 10) (s : State) : Result :=
  if !s.cur.lamp then .next (s.illegalHere 9)
  else .next (s.updCur fun g => g.setJ j.toNat ((g.jset j.toNat).stage y.toNat (s.scalar x)))

def execBand (y : BitVec 10) (s : State) : Result :=
  s.rendezvous fun s => .next (s.updCur fun g => { g with band := 2 ^ min 5 y.toNat })

/-! ### Traps, service calls and signals (R66 to R69) -/

def execTrap (y : BitVec 10) (s : State) : Result :=
  .next (s.trapAfter { code := causeTrap, pc := s.issue.pc, y := y.toNat, v11 := 0, v12 := 0 })

def execBkpt (y : BitVec 10) (s : State) : Result :=
  .next (s.trapHere causeBkpt fun _ r => { r with v8 := r.v8 ||| BitVec.ofNat 32 (y.toNat * 2 ^ 16) })

/-- Carry out a park that follows the chain: SVC writes its record, ENQ.PARK waits for room (R67, R76, R248). Lanes stand after
the chain. -/
def State.finishPark (s : State) (p : Park) : State :=
  let key := s.issue.gang
  let s := s.closeForEvent key fun l => (s.cur.lane l).pc
  if !s.cur.alive then s
  else
    match p with
    | .svcRoom num lanes pc words => (s.parkGang key p).svcWrite key num pc lanes words
    | _ => s.parkGang key p

/-- A park once the chain has issued. -/
def State.parkAfter (s : State) (p : Park) : State :=
  if s.issue.more then { s with issue := { s.issue with after := some (.park p) } } else s.finishPark p

/-- The issuing lanes' regions end: they resume from a park of SVC or ENQ.PARK (R249). -/
def State.endRegions (s : State) : State :=
  s.updCur fun g => g.updLanes s.issue.lanes fun _ x => { x with region := none, spoiled := false }

/-- The words of an SVC's blocks: `v0`-`v7` of the issuing lanes as they stood before the chain, once the windows have closed (R14,
R67). -/
def State.svcWords (s : State) : List Word :=
  let g := s.issue.src.closeAll (BitVec.allOnes 32)
  (lanesOf s.issue.lanes).flatMap fun l => (List.range 8).map fun n => (g.lane l).vreg n

def execSvc (y : BitVec 10) (s : State) : Result :=
  let words := s.svcWords
  let s := s.endRegions
  let s := s.updCur fun g => g.updLanes s.issue.lanes fun _ x => { x with pc := s.issue.nextPc }
  .next (s.parkAfter (.svcRoom y.toNat s.issue.lanes s.issue.pc words))

/-- SOFTINT (R68, R195): the queues that it reaches are those whose CTX is the gang's context; a queue that was never set up shows CTX 0
(log 49, DESIGN CHOICE). -/
def execSoftint (x : BitVec 7) (y : BitVec 10) (s : State) : Result :=
  let t := (s.scalar x).toNat
  let code : Word := y.setWidth 32
  let s := s.spoil
  if t < 1024 then
    let q := s.queueAt t
    if q.ctx = s.ctxNum s.issue.gang then
      .next ((s.setQueue t { q with wake := code }).emit (.vector t q.vec (some code)))
    else .next s
  else if t = 0x7FF then .next ({ s with pkg := { s.pkg with mwake := code } }.emit (.mgmtVector code))
  else .next s

/-- HALT (R69): the slot stops issuing, and what its chain still holds does not issue (log 48, DESIGN CHOICE). -/
def execHalt (s : State) : Result :=
  if !s.cur.lamp then .next (s.illegalHere 9)
  else .next ((s.updCore s.cur.core fun c => { c with slot := .halted }).divertIssue s.issue.gang)

/-! ### Deadline instructions (R70 to R74) -/

def execSnuffhold (x : BitVec 7) (s : State) : Result :=
  let n := min 20000 (s.scalar x).toNat
  let isOpen := match s.cur.hold with | some h => h.pending.isSome || decide (s.now < h.til) | none => false
  if s.cur.wrap || isOpen || n = 0 then .next s
  else .next (s.updCur fun g => { g with hold := some { til := s.now + n, pending := none } })

/-- SNUFFREL (R71): a snuff that the hold delayed strikes once the chain has issued. -/
def execSnuffrel (s : State) : Result :=
  match s.cur.hold with
  | none => .next s
  | some h =>
    match h.pending with
    | some reason => .next { s with issue := { s.issue with after := some (.divert reason) } }
    | none => .next (s.endHold s.issue.gang)

def execSnuffpc (x : BitVec 7) (y : BitVec 10) (s : State) : Result :=
  let f := fun l =>
    let w := s.srcLane l
    if !s.issue.src.wrap then 0xFFFFFFFF else if y = 0 then w.snuffPc else w.snuffDepth
  .next ((lanesOf s.issue.lanes).foldl (fun t l => t.writeV l x.toNat (f l)) s)

/-- The validity word after a VALID (R73). -/
def validWord (mode : Nat) (old : DWord) (w : Word) : DWord :=
  match mode % 4 with
  | 0 => old ||| w.setWidth 64
  | 1 => old ||| (w.setWidth 64 <<< 32)
  | 2 => old &&& ~~~(w.setWidth 64)
  | _ => old &&& ~~~(w.setWidth 64 <<< 32)

def execValid (x : BitVec 7) (y : BitVec 10) (s : State) : Result :=
  let s := s.spoil
  .next (s.updLaunch s.cur.launch fun l =>
    { l with valid := validWord y.toNat l.valid (s.scalar x), isPartial := l.isPartial || y.getLsbD 2 })

/-- REGION (R74): its index stands in bits 16:0 of the word (R39) (log 15, DESIGN CHOICE). -/
def execRegion (s : State) : Result :=
  if (s.codeOf s.cur).regions.length ≤ s.issue.word.toNat % 2 ^ 17 then .next (s.illegalHere 3)
  else .next (s.updCur fun g => g.updLanes s.issue.lanes fun _ x =>
    { x with region := some (s.issue.pc / 12), spoiled := false, regionBase := x.wbase })

/-! ### Creating work (R75, R76) -/

def execFan (x : BitVec 7) (y : BitVec 2) (s : State) : Result :=
  let n := x.toNat
  let launch := s.cur.launch
  let l := s.launchAt launch
  let count := (s.issue.src.sreg n).toNat
  let entry := (s.issue.src.sreg (n + 1)).toNat
  let s := s.spoil
  if s.cur.wrap || 65535 < count || 16777215 < l.nextGang + count then .next (s.writeS n 0xFFFFFFFF)
  else if !l.code.entries.contains entry then .next (s.writeS n 0xFFFFFFFE)
  else
    let first := l.nextGang
    let members := fanMembers l s.cur
    let s := s.writeS n (BitVec.ofNat 32 first)
    if count = 0 then .next s
    else
      let s := s.updLaunch launch fun l => { l.fixBatch with nextGang := first + count, spawn := l.spawn + count }
      let s := s.createGangs launch y.toNat (12 * entry) members first count
      .next (s.post l.die (.placement (gangKey launch first) count))

/-- An ENQ with an open queue and room: the image is read, written to the ring and counted (R76, R185, R186). -/
def State.enqNow (s : State) (queue n : Nat) (image : List Byte) : State :=
  match s.enqueue queue s.cur.launch s.issue.gang image with
  | .ok t => t.writeS n 0
  | .error (c, va) => s.failAccess c (lanesOf s.issue.lanes) va .write none

/-- The common part of ENQ.TRY and ENQ.PARK; `full` says what a full store or ring does with the image. -/
def State.enq (s : State) (x : BitVec 7) (y : BitVec 10) (full : State → List Byte → State) : Result :=
  let n := x.toNat
  let queue := y.toNat
  let va := s.pairAt n
  let key := s.issue.gang
  if s.cur.wrap then .next (s.spoil.writeS n 3)
  else if va.toNat % 64 ≠ 0 then .next (s.trapGroup causeAlign va)
  else
    let q := s.queueAt queue
    if !q.openTo (s.ctxNum key) then .next ((s.releaseAll key 4).spoil.writeS n 1)
    else
      match readRange s (s.agentOf key) va 64 with
      | .error (c, at') => .next (s.failAccess c (lanesOf s.issue.lanes) at' .read none)
      | .ok bs =>
        let s := s.noteRange (s.agentOf key) va 64
        let image := slotImage (s.launchAt s.cur.launch).pkt.deadline bs
        let t := (s.releaseAll key 4).spoil
        if t.enqRoom queue then .next (t.enqNow queue n image) else .next (full t image)

def execEnqTry (x : BitVec 7) (y : BitVec 10) (s : State) : Result := s.enq x y fun t _ => t.writeS x.toNat 2

def execEnqPark (x : BitVec 7) (y : BitVec 10) (s : State) : Result :=
  s.enq x y fun t image =>
    let t := t.endRegions
    (t.updCur fun g => g.updLanes t.issue.lanes fun _ l => { l with pc := t.issue.nextPc }).parkAfter
      (.enq x.toNat y.toNat image)

/-! ### Prefix (R25) -/

/-- A prefix word: it gives the next instruction of the chain its guard, rounding, fourth operand and auxiliary bits (log 15, DESIGN CHOICE). -/
def execPfx (s : State) : Result := .next { s with issue := { s.issue with pfx := pfxOf s.issue.word } }

end Sys2Proof.Machine
end

