-- ==== Sys2Proof/Machine/Numbers.lean ====
section
/-!
DEFINITION. Sys2Proof/Machine/Numbers.lean: floating-point formats, exact values, the one rounding, and what the arithmetic
families build on them (R222 to R227, R231, R234 to R237, R88 to R95, R101, R106 to R108). A value is ± mag × 2^exp with a natural
mag; every operation forms it exactly and rounds once.
-/

namespace Sys2Proof.Machine

/-! ### Formats (R222, R223) -/

/-- What an all-ones exponent means (R222). -/
inductive Special where
  /-- infinities and NaNs -/
  | ieee
  /-- no infinity; only the all-ones code is NaN (E4M3, OCP form) -/
  | ocp
  /-- every code is finite -/
  | finite
  deriving DecidableEq, Repr

/-- A format: exponent and fraction bits, bias, special codes. -/
structure Format where
  ebits : Nat
  fbits : Nat
  bias : Nat
  special : Special
  deriving DecidableEq, Repr

def fp32 : Format := ⟨8, 23, 127, .ieee⟩
def fp16 : Format := ⟨5, 10, 15, .ieee⟩
def bf16 : Format := ⟨8, 7, 127, .ieee⟩
def e4m3 : Format := ⟨4, 3, 7, .ocp⟩
def e4m3Ieee : Format := ⟨4, 3, 7, .ieee⟩
def e5m2 : Format := ⟨5, 2, 15, .ieee⟩
def e3m2 : Format := ⟨3, 2, 3, .finite⟩
def e2m3 : Format := ⟨2, 3, 1, .finite⟩
def e2m1 : Format := ⟨2, 1, 1, .finite⟩

/-- The sign bit's weight. -/
def Format.signBit (f : Format) : Nat := 2 ^ (f.ebits + f.fbits)

/-- The code of +∞ in a format that has it. -/
def Format.infCode (f : Format) : Nat := (2 ^ f.ebits - 1) * 2 ^ f.fbits

/-- The code of the largest finite value (R222). -/
def Format.maxCode (f : Format) : Nat :=
  match f.special with
  | .ieee => f.infCode - 1
  | .ocp => f.signBit - 2
  | .finite => f.signBit - 1

/-- The canonical quiet NaN of FP32, FP16, BF16 and the FP8 code 0x7F (R223). -/
def Format.nanCode (f : Format) : Nat :=
  if f.ebits + f.fbits = 7 then 0x7F else f.infCode + 2 ^ (f.fbits - 1)

/-- log₂ of the unit of the last place of subnormals. -/
def Format.minExp (f : Format) : Int := 1 - f.bias - f.fbits

/-- A value that an encoding holds. -/
inductive Num where
  | nan (signalling : Bool)
  | inf (neg : Bool)
  | fin (neg : Bool) (mag : Nat) (exp : Int)
  deriving DecidableEq, Repr

/-- The value of an encoding (R222, R223); the FP8 NaNs are quiet. -/
def Format.value (f : Format) (bits : Nat) : Num :=
  let neg := bits / f.signBit % 2 == 1
  let code := bits % f.signBit
  let e := code / 2 ^ f.fbits
  let m := code % 2 ^ f.fbits
  let finite : Num := if e = 0 then .fin neg m f.minExp else .fin neg (2 ^ f.fbits + m) (e - f.bias - f.fbits)
  match f.special with
  | .finite => finite
  | .ocp => if code = f.signBit - 1 then .nan false else finite
  | .ieee =>
    if e < 2 ^ f.ebits - 1 then finite
    else if m = 0 then .inf neg
    else .nan (f.ebits + f.fbits != 7 && m < 2 ^ (f.fbits - 1))

def Num.isNan : Num → Bool
  | .nan _ => true
  | _ => false

def Num.isInf : Num → Bool
  | .inf _ => true
  | _ => false

def Num.isSignalling : Num → Bool
  | .nan q => q
  | _ => false

/-- The invalid flag of a signalling operand. -/
def Num.snan (x : Num) : BitVec 5 := if x.isSignalling then flagInvalid else 0

def Num.isNeg : Num → Bool
  | .nan _ => false
  | .inf n => n
  | .fin n _ _ => n

def Num.isZero : Num → Bool
  | .fin _ m _ => m == 0
  | _ => false

/-- The negated value. -/
def Num.negate : Num → Num
  | .nan q => .nan q
  | .inf n => .inf (!n)
  | .fin n m e => .fin (!n) m e

/-- The value times a power of two. -/
def Num.shift (x : Num) (k : Int) : Num :=
  match x with
  | .fin n m e => .fin n m (e + k)
  | y => y

/-! ### The one rounding (R226, R227) -/

/-- Rounding codes (R25): 1 nearest even, 2 toward zero, 3 up, 4 down, 5 nearest away; 0 is the operation's default. -/
def modeOf (rm : BitVec 3) (default : Nat) : Nat := if rm = 0 then default else rm.toNat

/-- Whether a magnitude q + rem/2^k goes up to q + 1 (R226). -/
def roundUp (mode : Nat) (neg : Bool) (q rem half : Nat) : Bool :=
  match mode with
  | 2 => false
  | 3 => !neg && rem != 0
  | 4 => neg && rem != 0
  | 5 => rem != 0 && half ≤ rem
  | _ => half < rem || (rem == half && rem != 0 && q % 2 == 1)

/-- A magnitude mag × 2^exp in units of 2^unit: rounded, and whether that changed it. -/
def quantize (mode : Nat) (neg : Bool) (mag : Nat) (exp unit : Int) : Nat × Bool :=
  if unit ≤ exp then (mag * 2 ^ (exp - unit).toNat, false)
  else
    let k := (unit - exp).toNat
    let q := mag / 2 ^ k
    let rem := mag % 2 ^ k
    (if roundUp mode neg q rem (2 ^ (k - 1)) then q + 1 else q, rem != 0)

/-- What an overflow becomes (R227), as a code with its sign. -/
def Format.overflow (f : Format) (mode : Nat) (sat neg : Bool) : Nat :=
  let sign := if neg then f.signBit else 0
  let toMax := sat || f.special == .finite || mode == 2 || (mode == 3 && neg) || (mode == 4 && !neg)
  if toMax then sign + f.maxCode
  else if f.special == .ocp then f.nanCode
  else sign + f.infCode

/-- ROUND AN EXACT VALUE TO A FORMAT: the encoding and the flags overflow, underflow and inexact (R226, R227). -/
def Format.round (f : Format) (mode : Nat) (sat neg : Bool) (mag : Nat) (exp : Int) : Nat × BitVec 5 :=
  let sign := if neg then f.signBit else 0
  if mag = 0 then (sign, 0)
  else
    let e : Int := mag.log2 + exp
    let unit := max (e - f.fbits) f.minExp
    let r := quantize mode neg mag exp unit
    let code := (unit - f.minExp).toNat * 2 ^ f.fbits + r.1
    if f.maxCode < code then (f.overflow mode sat neg, flagOverflow ||| flagInexact)
    else
      let free := quantize mode neg mag exp (e - f.fbits)
      let tiny := decide (e < -(f.bias : Int)) || (decide (e = -(f.bias : Int)) && decide (free.1 < 2 ^ (f.fbits + 1)))
      (sign + code, if r.2 then flagInexact ||| (if tiny then flagUnderflow else 0) else 0)

/-- Encode a value: NaN and infinity as the format writes them, a finite value rounded. -/
def Format.encode (f : Format) (mode : Nat) (x : Num) : Nat × BitVec 5 :=
  match x with
  | .nan _ => (f.nanCode, 0)
  | .inf n => ((if n then f.signBit else 0) + f.infCode, 0)
  | .fin n m e => f.round mode false n m e

/-! ### Exact sums and products (R88) -/

/-- Whether 0 × ∞ (R88). -/
def zeroInf (a b : Num) : Bool := (a.isZero && b.isInf) || (a.isInf && b.isZero)

/-- The exact product; NaN for a NaN operand and for 0 × ∞. -/
def mulExact (a b : Num) : Num :=
  match a, b with
  | .nan p, .nan q => .nan (p || q)
  | .nan p, _ => .nan p
  | _, .nan q => .nan q
  | .inf m, y => if y.isZero then .nan false else .inf (m != y.isNeg)
  | x, .inf n => if x.isZero then .nan false else .inf (x.isNeg != n)
  | .fin m p e, .fin n q d => .fin (m != n) (p * q) (e + d)

/-- The signed integer that a finite value is in units of 2^unit, where unit is at most its exponent. -/
def Num.units (x : Num) (unit : Int) : Int :=
  match x with
  | .fin n m e => let v : Int := m * 2 ^ (e - unit).toNat; if n then -v else v
  | _ => 0

/-- The exponent of a finite value. -/
def Num.expOf : Num → Int
  | .fin _ _ e => e
  | _ => 0

/-- The exact sum of finite values; an exact zero takes the sign of R88. -/
def sumFinite (mode : Nat) (ts : List Num) : Num :=
  let unit := (ts.map Num.expOf).foldl min 0
  let v : Int := (ts.map fun t => t.units unit).foldl (· + ·) 0
  if v = 0 then
    let neg := if ts.all fun t => t.isZero && t.isNeg then true
      else if ts.all fun t => t.isZero && !t.isNeg then false
      else mode == 4
    .fin neg 0 0
  else .fin (decide (v < 0)) v.natAbs unit

/-- A sum of terms: NaN, infinities and ∞ − ∞ as R88 gives, with the invalid flag (log 22, DEDUCED). -/
def sumExact (mode : Nat) (ts : List Num) : Num × BitVec 5 :=
  let clash := (ts.any fun t => t.isInf && t.isNeg) && ts.any fun t => t.isInf && !t.isNeg
  let flags := ts.foldl (fun f t => f ||| t.snan) (if clash then flagInvalid else 0)
  if clash || ts.any Num.isNan then (.nan false, flags)
  else
    match ts.find? Num.isInf with
    | some i => (i, flags)
    | none => (sumFinite mode ts, flags)

/-- Encode a sum, its flags joined. -/
def Format.sum (f : Format) (mode : Nat) (ts : List Num) : Nat × BitVec 5 :=
  let s := sumExact mode ts
  let r := f.encode mode s.1
  (r.1, s.2 ||| r.2)

/-- A × B, and whether 0 × ∞ makes it invalid. -/
def Format.mul (f : Format) (mode : Nat) (a b : Num) : Nat × BitVec 5 :=
  let r := f.encode mode (mulExact a b)
  (r.1, r.2 ||| a.snan ||| b.snan ||| (if zeroInf a b then flagInvalid else 0))

/-- Σ aᵢ × bᵢ + c with one rounding; a product 0 × ∞ raises invalid whatever the addend is (R88). -/
def Format.fused (f : Format) (mode : Nat) (ps : List (Num × Num)) (c : Num) : Nat × BitVec 5 :=
  let r := f.sum mode (ps.map (fun p => mulExact p.1 p.2) ++ [c])
  (r.1, r.2 ||| (if ps.any fun p => zeroInf p.1 p.2 then flagInvalid else 0))

/-- A × 2^N, N clamped to ±400 (R88). -/
def Format.scale (f : Format) (mode : Nat) (bits : Nat) (n : Int) : Nat × BitVec 5 :=
  match f.value bits with
  | .nan q => (f.nanCode, (Num.nan q).snan)
  | .inf _ => (bits, 0)
  | .fin s m e => if m = 0 then (bits, 0) else f.round mode false s m (e + max (-400) (min 400 n))

/-! ### Comparisons (R89, R98) -/

/-- Whether one finite or infinite value is below another; ±0 are equal. -/
def Num.lt (a b : Num) : Bool :=
  match a, b with
  | .nan _, _ => false
  | _, .nan _ => false
  | .inf m, .inf n => m && !n
  | .inf m, _ => m
  | _, .inf n => !n
  | .fin _ _ e, .fin _ _ d => decide (a.units (min e d) < b.units (min e d))

/-- minimumNumber and maximumNumber of two encodings, −0 below +0 (R89). -/
def Format.minMax (f : Format) (largest : Bool) (x y : Nat) : Nat × BitVec 5 :=
  let a := f.value x
  let b := f.value y
  let flags := a.snan ||| b.snan
  if a.isNan && b.isNan then (f.nanCode, flags)
  else if a.isNan then (y, flags)
  else if b.isNan then (x, flags)
  else
    let below := a.lt b || (a.isZero && b.isZero && a.isNeg && !b.isNeg)
    (if below == largest then y else x, flags)

/-- Compares: the relation and the flags (R89). -/
def fpCompare (quiet : Bool) (rel : Num → Num → Bool) (x y : Word) : Bool × BitVec 5 :=
  let a := fp32.value x.toNat
  let b := fp32.value y.toNat
  let nan := a.isNan || b.isNan
  (rel a b, if quiet then a.snan ||| b.snan else if nan then flagInvalid else 0)

/-- The one-hot class mask (R89). -/
def Format.classMask (f : Format) (bits : Nat) : Nat :=
  match f.value bits with
  | .nan true => 2 ^ 8
  | .nan false => 2 ^ 9
  | .inf true => 1
  | .inf false => 2 ^ 7
  | .fin n m _ =>
    if m = 0 then (if n then 2 ^ 3 else 2 ^ 4)
    else if bits % f.signBit / 2 ^ f.fbits = 0 then (if n then 2 ^ 2 else 2 ^ 5)
    else (if n then 2 else 2 ^ 6)

/-- The unsigned key of a value in total order (R98). -/
def keyOf (type : Nat) (x : Word) : Nat :=
  match type with
  | 1 => (x ^^^ 0x80000000).toNat
  | 2 => (if x.getLsbD 31 then ~~~x else x ||| 0x80000000).toNat
  | _ => x.toNat

/-! ### Conversions (R90, R91) -/

/-- One element converted (R90) (log 22, DEDUCED). -/
def convert (src dst : Format) (mode : Nat) (sat : Bool) (bits : Nat) : Nat × BitVec 5 :=
  match src.value bits with
  | .nan q => (dst.nanCode, (Num.nan q).snan)
  | .inf n =>
    let sign := if n then dst.signBit else 0
    if sat then (sign + dst.maxCode, 0)
    else if dst.special == .ocp then (dst.nanCode, flagInvalid)
    else (sign + dst.infCode, 0)
  | .fin n m e => dst.round mode sat n m e

/-- FP32 to an integer between two bounds (R91) (log 22, DEDUCED). -/
def toInteger (mode : Nat) (lo hi : Int) (x : Word) : Int × BitVec 5 :=
  match fp32.value x.toNat with
  | .nan _ => (0, flagInvalid)
  | .inf n => (if n then lo else hi, flagInvalid)
  | .fin n m e =>
    let r := quantize mode n m e 0
    let v : Int := if n then -r.1 else r.1
    if v < lo then (lo, flagInvalid) else if hi < v then (hi, flagInvalid) else (v, if r.2 then flagInexact else 0)

/-- An integer to FP32 (R91). -/
def ofInteger (mode : Nat) (v : Int) : Nat × BitVec 5 := fp32.round mode false (decide (v < 0)) v.natAbs 0

/-- An integral value in its own format, without inexact (R91). -/
def Format.integral (f : Format) (mode : Nat) (bits : Nat) : Nat × BitVec 5 :=
  match f.value bits with
  | .nan q => (f.nanCode, (Num.nan q).snan)
  | .inf _ => (bits, 0)
  | .fin n m e =>
    if 0 ≤ e then (bits, 0)
    else (f.round mode false n (quantize mode n m e 0).1 0)

/-! ### MX elements (R92 to R95, R224) -/

/-- The format of an MX type (R92). -/
def mxFormat (t : Nat) : Format :=
  match t with
  | 0 => e4m3
  | 1 => e5m2
  | 2 => e3m2
  | 3 => e2m3
  | _ => e2m1

/-- The exponent of the largest normal element (R92). -/
def mxEmax (t : Nat) : Int :=
  match t with
  | 0 => 8
  | 1 => 15
  | 2 => 4
  | _ => 2

/-- Element k of an MX register (R92). -/
def mxElement (t k : Nat) (x : Word) : Nat :=
  if t = 4 then x.toNat / 2 ^ (4 * k) % 16 else x.toNat / 2 ^ (8 * k) % (if t < 2 then 256 else 64)

/-- Element k replaced; bits 7:6 of a 6-bit element's byte are written 0 (R92, R223). -/
def mxInsert (t k : Nat) (x : Word) (code : Nat) : Word :=
  let w := if t = 4 then 4 else 8
  let lo := x.toNat % 2 ^ (w * k)
  let hi := x.toNat / 2 ^ (w * (k + 1))
  BitVec.ofNat 32 (lo + code % 2 ^ w * 2 ^ (w * k) + hi * 2 ^ (w * (k + 1)))

/-- The value of an element in a block with a scale (R224). -/
def scaled (s : Byte) (x : Num) : Num := if s = 0xFF then .nan false else x.shift (s.toNat - 127)

/-- The element code that MX packing writes for NaN (R93, R223). -/
def mxNan (t : Nat) : Nat := if t = 0 then 0x7F else if t = 1 then 0x7E else 0

/-- A value ÷ 2^(s − 127) as an element: rounded, saturated (R93) (log 22, DEDUCED). An infinity that saturates raises no flag (log 47, DESIGN CHOICE). -/
def mxPack (t mode : Nat) (s : Byte) (x : Num) : Nat × BitVec 5 :=
  let f := mxFormat t
  if s = 0xFF then (0, 0)
  else
    match x with
    | .nan q => (mxNan t, if t < 2 then (Num.nan q).snan else flagInvalid)
    | .inf n => ((if n then f.signBit else 0) + f.maxCode, 0)
    | .fin n m e => f.round mode true n m (e - (s.toNat - 127))

/-- The scale byte that FMXSCL's rule gives for some values (R94). -/
def mxScale (t : Nat) (xs : List Num) : Byte :=
  if xs.any fun x => x.isNan || x.isInf then 0xFF
  else
    let logs := xs.filterMap fun x =>
      match x with
      | .fin _ m e => if m = 0 then none else some ((m.log2 : Int) + e)
      | _ => none
    match logs with
    | [] => 0
    | l :: ls => BitVec.ofInt 8 (max (-127) (min 127 (ls.foldl max l - mxEmax t)) + 127)

/-! ### FP32 steps (R101, R234, R235) -/

/-- FP32 operations rounded to nearest even, without flags: the steps of the fixed procedures. -/
def mul32 (a b : Word) : Word := BitVec.ofNat 32 (fp32.mul 1 (fp32.value a.toNat) (fp32.value b.toNat)).1
def add32 (a b : Word) : Word := BitVec.ofNat 32 (fp32.sum 1 [fp32.value a.toNat, fp32.value b.toNat]).1
def sub32 (a b : Word) : Word := BitVec.ofNat 32 (fp32.sum 1 [fp32.value a.toNat, (fp32.value b.toNat).negate]).1
def fma32 (a b c : Word) : Word :=
  BitVec.ofNat 32 (fp32.fused 1 [(fp32.value a.toNat, fp32.value b.toNat)] (fp32.value c.toNat)).1

/-- FP32 addition rounded by a mode, with flags (R101). -/
def addFlags (mode : Nat) (a b : Word) : Word × BitVec 5 :=
  let r := fp32.sum mode [fp32.value a.toNat, fp32.value b.toNat]
  (BitVec.ofNat 32 r.1, r.2)

/-- Maximum of two FP32 values in the order of R89, without flags. -/
def max32 (a b : Word) : Word := BitVec.ofNat 32 (fp32.minMax true a.toNat b.toNat).1

/-- n ÷ d × 2^e rounded to nearest even in FP32: the quotient to 64 more bits than n has, with a sticky bit below. -/
def ratio32 (neg : Bool) (n d : Nat) (e : Int) : Nat × BitVec 5 :=
  let k := 64 + d.log2
  let q := n * 2 ^ k / d
  fp32.round 1 false neg (2 * q + (if n * 2 ^ k % d = 0 then 0 else 1)) (e - k - 1)

/-- Bits of the integer square root below bit `fuel`. -/
def isqrtFrom (n : Nat) : Nat → Nat → Nat
  | 0, r => r
  | b + 1, r =>
    let t := r + 2 ^ b
    isqrtFrom n b (if t * t ≤ n then t else r)

/-- The integer square root. -/
def isqrt (n : Nat) : Nat := isqrtFrom n (n.log2 / 2 + 1) 0

/-- The integer nearest n ÷ d, ties to even. -/
def nearest (n d : Nat) : Nat :=
  let q := n / d
  let r := n % d
  if d < 2 * r || (2 * r = d && q % 2 = 1) then q + 1 else q

/-! ### The matrix array's sums (R231) -/

/-- One K-step: the accumulator and the products of the step's positions to the new accumulator (R231). -/
def kStep (acc : Word) (products : List Num) : Word :=
  let ts := fp32.value acc.toNat :: products
  if ts.any Num.isNan then 0x7FC00000
  else
    match ts.filter Num.isInf with
    | i :: is => if is.any fun j => j.isNeg != i.isNeg then 0x7FC00000 else BitVec.ofNat 32 (fp32.encode 1 i).1
    | [] =>
      let logs := ts.filterMap fun t =>
        match t with
        | .fin _ m e => if m = 0 then none else some ((m.log2 : Int) + e)
        | _ => none
      match logs with
      | [] => if ts.all Num.isNeg then 0x80000000 else 0
      | l :: ls =>
        let unit := ls.foldl max l - 85
        let w : Int := (ts.map fun (t : Num) =>
          match t with
          | .fin n m e => let q : Int := (quantize 2 n m e unit).1; if n then -q else q
          | _ => (0 : Int)).foldl (· + ·) 0
        BitVec.ofNat 32 (if w = 0 then 0 else (fp32.round 1 false (decide (w < 0)) w.natAbs unit).1)

/-! ### Tables and constants of class 7 (R108, R235, R236) -/

/-- T[i] = 2^(i/64) rounded to nearest even in FP32, i from −32 to 32 (R108). -/
def tableT : List Word :=
  [0x3F3504F3, 0x3F36FD92, 0x3F38FBAF, 0x3F3AFF5B, 0x3F3D08A4, 0x3F3F179A, 0x3F412C4D, 0x3F4346CD, 0x3F45672A, 0x3F478D75] ++
  [0x3F49B9BE, 0x3F4BEC15, 0x3F4E248C, 0x3F506334, 0x3F52A81E, 0x3F54F35B, 0x3F5744FD, 0x3F599D16, 0x3F5BFBB8, 0x3F5E60F5] ++
  [0x3F60CCDF, 0x3F633F89, 0x3F65B907, 0x3F68396A, 0x3F6AC0C7, 0x3F6D4F30, 0x3F6FE4BA, 0x3F728177, 0x3F75257D, 0x3F77D0DF] ++
  [0x3F7A83B3, 0x3F7D3E0C, 0x3F800000, 0x3F8164D2, 0x3F82CD87, 0x3F843A29, 0x3F85AAC3, 0x3F871F62, 0x3F88980F, 0x3F8A14D5] ++
  [0x3F8B95C2, 0x3F8D1ADF, 0x3F8EA43A, 0x3F9031DC, 0x3F91C3D3, 0x3F935A2B, 0x3F94F4F0, 0x3F96942D, 0x3F9837F0, 0x3F99E046] ++
  [0x3F9B8D3A, 0x3F9D3EDA, 0x3F9EF532, 0x3FA0B051, 0x3FA27043, 0x3FA43516, 0x3FA5FED7, 0x3FA7CD94, 0x3FA9A15B, 0x3FAB7A3A] ++
  [0x3FAD583F, 0x3FAF3B79, 0x3FB123F6, 0x3FB311C4, 0x3FB504F3]

/-- LT[i] = log₂(i/64) rounded to nearest even in FP32, i from 45 to 91 (R235). -/
def tableLT : List Word :=
  [0xBF0215EA, 0xBEF3EFB0, 0xBEE40CEE, 0xBED47FCC, 0xBEC544C0, 0xBEB6587B, 0xBEA7B7DE, 0xBE995FF7, 0xBE8B4E03, 0xBE7AFEC5] ++
  [0xBE5FE33D, 0xBE4544C0, 0xBE2B1EE1, 0xBE116D6E, 0xBDF058D7, 0xBDBEB025, 0xBD8DD995, 0xBD3B9CA6, 0xBCBA1F74, 0x00000000] ++
  [0x3CB73CB4, 0x3D35D69C, 0x3D8759C5, 0x3DB31FB8, 0x3DDE4212, 0x3E0462C4, 0x3E19574F, 0x3E2E00D2, 0x3E42615F, 0x3E567AF1] ++
  [0x3E6A4F72, 0x3E7DE0B6, 0x3E88983F, 0x3E92203D, 0x3E9B8926, 0x3EA4D3C2, 0x3EAE00D2, 0x3EB7110E, 0x3EC0052B, 0x3EC8DDD4] ++
  [0x3ED19BB0, 0x3EDA3F60, 0x3EE2C97D, 0x3EEB3A9F, 0x3EF39355, 0x3EFBD42B, 0x3F01FED4]

/-- R[i] = 64/i rounded to nearest even in FP32 (R235). -/
def recip64 (i : Nat) : Word := BitVec.ofNat 32 (ratio32 false 64 i 0).1

/-- π/2 rounded to nearest at 192 significant bits, in units of 2^−191 (R236). -/
def halfPi : Nat := 0xC90FDAA22168C234C4C6628B80DC1CD129024E088A67CC74

end Sys2Proof.Machine
end

