-- ==== Sys2Proof/Machine/Vector.lean ====
section
/-!
DEFINITION. Sys2Proof/Machine/Vector.lean: class 4: integer, logic and predicate instructions of each active lane (R79, R80, R84 to
R87).
-/

namespace Sys2Proof.Machine

/-! ### Elements of any width (R84) -/

/-- Whole register or two halves (R80). -/
def lanewise (h : BitVec 1) (f : Word → Word → Word) (f16 : BitVec 16 → BitVec 16 → BitVec 16) (a b : Word) : Word :=
  if h = 1 then perHalf f16 a b else f a b

/-- A sum or difference, exact, narrowed by the saturation code of auxiliary bits 1:0 (R84). -/
def saturate {w : Nat} (mode : Nat) (signed unsigned : Int) : BitVec w :=
  match mode with
  | 1 => BitVec.ofInt w (max (-(2 ^ (w - 1))) (min (2 ^ (w - 1) - 1) signed))
  | 2 => BitVec.ofInt w (max 0 (min (2 ^ w - 1) unsigned))
  | _ => BitVec.ofInt w unsigned

def addSat {w : Nat} (mode : Nat) (a b : BitVec w) : BitVec w := saturate mode (a.toInt + b.toInt) (a.toNat + b.toNat)
def subSat {w : Nat} (mode : Nat) (a b : BitVec w) : BitVec w := saturate mode (a.toInt - b.toInt) (a.toNat - b.toNat)

/-- The exact difference of signed values, unsigned (R84). -/
def absDiff {w : Nat} (a b : BitVec w) : BitVec w := BitVec.ofNat w (a.toInt - b.toInt).natAbs

/-- Shifts by the low log₂ width bits of the count. -/
def shiftLeft {w : Nat} (a b : BitVec w) : BitVec w := a <<< (b.toNat % w)
def shiftRight {w : Nat} (a b : BitVec w) : BitVec w := a >>> (b.toNat % w)
def shiftArith {w : Nat} (a b : BitVec w) : BitVec w := a.sshiftRight (b.toNat % w)

/-- A class 4 operation of two operands (R84). -/
def State.vec2 (s : State) (d : BitVec 6) (a b : BitVec 7) (h : BitVec 1) (f : Word → Word → Word)
    (f16 : BitVec 16 → BitVec 16 → BitVec 16) : Result :=
  .next (s.writeLanes d.toNat fun l => lanewise h f f16 (s.vectorInt h l a) (s.vectorInt h l b))

/-- A class 4 operation of one operand. -/
def State.vec1 (s : State) (d : BitVec 6) (a : BitVec 7) (h : BitVec 1) (f : Word → Word) (f16 : BitVec 16 → BitVec 16) : Result :=
  .next (s.writeLanes d.toNat fun l =>
    let x := s.vectorInt h l a
    lanewise h (fun x _ => f x) (fun x _ => f16 x) x x)

/-- The saturation code of VADD and VSUB. -/
def State.satMode (s : State) : Nat := s.issue.pfx.x.toNat % 4

/-! ### Arithmetic, logic and moves (R84) -/

def execVadd (d : BitVec 6) (a b : BitVec 7) (h : BitVec 1) (s : State) : Result :=
  s.vec2 d a b h (addSat s.satMode) (addSat s.satMode)
def execVsub (d : BitVec 6) (a b : BitVec 7) (h : BitVec 1) (s : State) : Result :=
  s.vec2 d a b h (subSat s.satMode) (subSat s.satMode)
def execVmullo (d : BitVec 6) (a b : BitVec 7) (h : BitVec 1) (s : State) : Result :=
  s.vec2 d a b h (fun x y => x * y) (fun x y => x * y)
def execVmulhu (d : BitVec 6) (a b : BitVec 7) (h : BitVec 1) (s : State) : Result := s.vec2 d a b h mulHighU mulHighU
def execVmulhs (d : BitVec 6) (a b : BitVec 7) (h : BitVec 1) (s : State) : Result := s.vec2 d a b h mulHighS mulHighS

def execVmad (d : BitVec 6) (a b : BitVec 7) (h : BitVec 1) (s : State) : Result :=
  .next (s.writeLanes d.toNat fun l =>
    let x := s.vectorInt h l a
    let y := s.vectorInt h l b
    let c := s.addend (if h = 1 then inlineInt16 else inlineConst) l d
    if h = 1 then perHalf3 (fun x y z => x * y + z) x y c else x * y + c)

def execVand (d : BitVec 6) (a b : BitVec 7) (h : BitVec 1) (s : State) : Result :=
  s.vec2 d a b h (fun x y => x &&& y) (fun x y => x &&& y)
def execVor (d : BitVec 6) (a b : BitVec 7) (h : BitVec 1) (s : State) : Result :=
  s.vec2 d a b h (fun x y => x ||| y) (fun x y => x ||| y)
def execVxor (d : BitVec 6) (a b : BitVec 7) (h : BitVec 1) (s : State) : Result :=
  s.vec2 d a b h (fun x y => x ^^^ y) (fun x y => x ^^^ y)
def execVandn (d : BitVec 6) (a b : BitVec 7) (h : BitVec 1) (s : State) : Result :=
  s.vec2 d a b h (fun x y => x &&& ~~~y) (fun x y => x &&& ~~~y)
def execVshl (d : BitVec 6) (a b : BitVec 7) (h : BitVec 1) (s : State) : Result := s.vec2 d a b h shiftLeft shiftLeft
def execVshr (d : BitVec 6) (a b : BitVec 7) (h : BitVec 1) (s : State) : Result := s.vec2 d a b h shiftRight shiftRight
def execVsra (d : BitVec 6) (a b : BitVec 7) (h : BitVec 1) (s : State) : Result := s.vec2 d a b h shiftArith shiftArith
def execVmin (d : BitVec 6) (a b : BitVec 7) (h : BitVec 1) (s : State) : Result := s.vec2 d a b h minS minS
def execVmax (d : BitVec 6) (a b : BitVec 7) (h : BitVec 1) (s : State) : Result := s.vec2 d a b h maxS maxS
def execVminu (d : BitVec 6) (a b : BitVec 7) (h : BitVec 1) (s : State) : Result := s.vec2 d a b h minU minU
def execVmaxu (d : BitVec 6) (a b : BitVec 7) (h : BitVec 1) (s : State) : Result := s.vec2 d a b h maxU maxU
def execVabsd (d : BitVec 6) (a b : BitVec 7) (h : BitVec 1) (s : State) : Result := s.vec2 d a b h absDiff absDiff
def execVmov (d : BitVec 6) (a : BitVec 7) (s : State) : Result := s.vec1 d a 0 (fun x => x) fun x => x

def execVsel (d : BitVec 6) (a b : BitVec 7) (s : State) : Result :=
  .next (s.writeLanes d.toNat fun l => if s.predAt l s.issue.pfx.o.toNat then s.vector l a else s.vector l b)

def execVclz (d : BitVec 6) (a : BitVec 7) (h : BitVec 1) (s : State) : Result :=
  s.vec1 d a h (fun x => BitVec.ofNat 32 (clz x)) fun x => BitVec.ofNat 16 (clz x)
def execVpop (d : BitVec 6) (a : BitVec 7) (h : BitVec 1) (s : State) : Result :=
  s.vec1 d a h (fun x => BitVec.ofNat 32 (popCount x)) fun x => BitVec.ofNat 16 (popCount x)
def execVbfe (d : BitVec 6) (a b : BitVec 7) (s : State) : Result :=
  .next (s.writeLanes d.toNat fun l => bitField (s.vector l a) (s.vector l b))
def execVlea (d : BitVec 6) (a b : BitVec 7) (s : State) : Result :=
  .next (s.writeLanes d.toNat fun l => s.vector l a + s.vector l b <<< (s.issue.pfx.x.toNat % 8))

/-! ### Compares (R85) -/

/-- A compare of two operands into the predicate of d and h. -/
def State.compare (s : State) (d : BitVec 6) (a b : BitVec 7) (h : BitVec 1) (rel : Word → Word → Bool) : Result :=
  .next (s.writePreds (predIndex d h) fun l => rel (s.vector l a) (s.vector l b))

def execVcmpeq (d : BitVec 6) (a b : BitVec 7) (h : BitVec 1) (s : State) : Result := s.compare d a b h fun x y => x == y
def execVcmpne (d : BitVec 6) (a b : BitVec 7) (h : BitVec 1) (s : State) : Result := s.compare d a b h fun x y => x != y
def execVcmplt (d : BitVec 6) (a b : BitVec 7) (h : BitVec 1) (s : State) : Result := s.compare d a b h fun x y => x.slt y
def execVcmple (d : BitVec 6) (a b : BitVec 7) (h : BitVec 1) (s : State) : Result := s.compare d a b h fun x y => x.sle y
def execVcmpltu (d : BitVec 6) (a b : BitVec 7) (h : BitVec 1) (s : State) : Result := s.compare d a b h fun x y => x.ult y
def execVcmpleu (d : BitVec 6) (a b : BitVec 7) (h : BitVec 1) (s : State) : Result := s.compare d a b h fun x y => x.ule y

/-! ### Predicates (R86) -/

/-- A predicate operation of two predicates. -/
def State.predOp (s : State) (d : BitVec 6) (a b : BitVec 7) (h : BitVec 1) (f : Bool → Bool → Bool) : Result :=
  .next (s.writePreds (predIndex d h) fun l => f (s.predAt l a.toNat) (s.predAt l b.toNat))

def execVpand (d : BitVec 6) (a b : BitVec 7) (h : BitVec 1) (s : State) : Result := s.predOp d a b h fun x y => x && y
def execVpor (d : BitVec 6) (a b : BitVec 7) (h : BitVec 1) (s : State) : Result := s.predOp d a b h fun x y => x || y
def execVpxor (d : BitVec 6) (a b : BitVec 7) (h : BitVec 1) (s : State) : Result := s.predOp d a b h fun x y => x != y
def execVpnot (d : BitVec 6) (a : BitVec 7) (h : BitVec 1) (s : State) : Result := s.predOp d a a h fun x _ => !x

/-- Predicates a to b of a lane, predicate a in bit 0 (R86). -/
def predBits (x : Lane) (a b : Nat) : Word :=
  BitVec.ofNat 32 ((List.range (b + 1 - a)).foldl (fun n i => n + if x.pred (a + i) then 2 ^ i else 0) 0)

def execVptov (d : BitVec 6) (a b : BitVec 7) (s : State) : Result :=
  .next (s.writeLanes d.toNat fun l => predBits (s.srcLane l) a.toNat b.toNat)

def execVvtop (d : BitVec 6) (a b : BitVec 7) (h : BitVec 1) (s : State) : Result :=
  s.compare d a b h fun x y => x &&& y != 0

end Sys2Proof.Machine
end

