-- ==== Sys2Proof/Machine/Float.lean ====
section
/-!
DEFINITION. Sys2Proof/Machine/Float.lean: class 5: floating point of each active lane (R88 to R91) and MX blocks (R92 to R95). Flags
enter FPFLAG at issue (R82, R229).
-/

namespace Sys2Proof.Machine

/-- A register's result with its flags. -/
abbrev Flagged := Word × BitVec 5

/-- The packed element type that auxiliary bit 7 selects (R80). -/
def State.halfFormat (s : State) : Format := if s.issue.pfx.x.getLsbD 7 then fp16 else bf16

/-- The rounding of the present instruction (R25, R82). -/
def State.mode (s : State) : Nat := modeOf s.issue.pfx.rm 1

/-- The two halves of a register as naturals, element 0 first (R80). -/
def halves (x : Word) : Nat × Nat := (x.toNat % 2 ^ 16, x.toNat / 2 ^ 16)

/-- Two results of 16 bits in one register. -/
def joinHalves (r0 r1 : Nat × BitVec 5) : Flagged := (BitVec.ofNat 32 (r0.1 % 2 ^ 16 + r1.1 * 2 ^ 16), r0.2 ||| r1.2)

/-- An operation on FP32, or on each half of a packed register (R80). -/
def State.elements (s : State) (h : BitVec 1) (f : Format → Nat → Nat → Nat → Nat × BitVec 5) (a b c : Word) : Flagged :=
  if h = 1 then
    let t := s.halfFormat
    joinHalves (f t (halves a).1 (halves b).1 (halves c).1) (f t (halves a).2 (halves b).2 (halves c).2)
  else
    let r := f fp32 a.toNat b.toNat c.toNat
    (BitVec.ofNat 32 r.1, r.2)

/-- Write the results of the active lanes and raise their flags. -/
def State.writeFlagged (s : State) (d : Nat) (f : Nat → Flagged) : Result :=
  let flags := s.active.foldl (fun x l => x ||| (f l).2) 0
  .next ((s.writeLanes d fun l => (f l).1).raise flags)

/-- The same for results that go into one element of their register: `put` inserts a code (R90, R93). -/
def State.writeElement (s : State) (d : Nat) (put : Word → Nat → Word) (f : Nat → Nat × BitVec 5) : Result :=
  let old := fun l => (s.srcLane l).vreg d
  let flags := s.active.foldl (fun x l => x ||| (f l).2) 0
  .next ((s.writePart d (fun l => put (old l) (f l).1) fun l => put (old l) 0).raise flags)

/-- A class 5 operation of two operands. -/
def State.float2 (s : State) (d : BitVec 6) (a b : BitVec 7) (h : BitVec 1) (f : Format → Nat → Nat → Nat × BitVec 5) : Result :=
  s.writeFlagged d.toNat fun l => s.elements h (fun t x y _ => f t x y) (s.vectorFp h l a) (s.vectorFp h l b) 0

/-- A class 5 operation of one operand. -/
def State.float1 (s : State) (d : BitVec 6) (a : BitVec 7) (h : BitVec 1) (f : Format → Nat → Nat × BitVec 5) : Result :=
  s.writeFlagged d.toNat fun l => s.elements h (fun t x _ _ => f t x) (s.vectorFp h l a) 0 0

/-! ### Rounding arithmetic (R88) -/

def execFadd (d : BitVec 6) (a b : BitVec 7) (h : BitVec 1) (s : State) : Result :=
  s.float2 d a b h fun t x y => t.sum s.mode [t.value x, t.value y]
def execFsub (d : BitVec 6) (a b : BitVec 7) (h : BitVec 1) (s : State) : Result :=
  s.float2 d a b h fun t x y => t.sum s.mode [t.value x, (t.value y).negate]
def execFmul (d : BitVec 6) (a b : BitVec 7) (h : BitVec 1) (s : State) : Result :=
  s.float2 d a b h fun t x y => t.mul s.mode (t.value x) (t.value y)

def execFma (d : BitVec 6) (a b : BitVec 7) (h : BitVec 1) (s : State) : Result :=
  s.writeFlagged d.toNat fun l =>
    let c := s.addend (if h = 1 then inlineFp16 (s.issue.pfx.x.getLsbD 7) else inlineConst) l d
    s.elements h (fun t x y z => t.fused s.mode [(t.value x, t.value y)] (t.value z)) (s.vectorFp h l a) (s.vectorFp h l b) c

/-- FDOT2 (R88): packed BF16 or FP16 A and B, FP32 addend, an inline constant there with its 32-bit value (log 47, DESIGN CHOICE). -/
def execFdot2 (d : BitVec 6) (a b : BitVec 7) (s : State) : Result :=
  s.writeFlagged d.toNat fun l =>
    let t := s.halfFormat
    let x := halves (s.vectorFp 1 l a)
    let y := halves (s.vectorFp 1 l b)
    let c := fp32.value (s.addend inlineConst l d).toNat
    let r := fp32.fused s.mode [(t.value x.1, t.value y.1), (t.value x.2, t.value y.2)] c
    (BitVec.ofNat 32 r.1, r.2)

/-- FSCALE (R88): the count is an integer, packed when h = 1 (R20). -/
def execFscale (d : BitVec 6) (a b : BitVec 7) (h : BitVec 1) (s : State) : Result :=
  s.writeFlagged d.toNat fun l =>
    s.elements h (fun t x n _ =>
      t.scale s.mode x (if h = 1 then (BitVec.ofNat 16 n).toInt else (BitVec.ofNat 32 n).toInt))
      (s.vectorFp h l a) (s.vectorInt h l b) 0

/-! ### Operations that never round (R89) -/

def execFmin (d : BitVec 6) (a b : BitVec 7) (h : BitVec 1) (s : State) : Result :=
  s.float2 d a b h fun t x y => t.minMax false x y
def execFmax (d : BitVec 6) (a b : BitVec 7) (h : BitVec 1) (s : State) : Result :=
  s.float2 d a b h fun t x y => t.minMax true x y
def execFabs (d : BitVec 6) (a : BitVec 7) (h : BitVec 1) (s : State) : Result :=
  s.float1 d a h fun t x => (x % t.signBit, 0)
def execFneg (d : BitVec 6) (a : BitVec 7) (h : BitVec 1) (s : State) : Result :=
  s.float1 d a h fun t x => (if x < t.signBit then x + t.signBit else x - t.signBit, 0)

/-- An FP32 compare into the predicate of d and h, with its flags. -/
def State.floatCompare (s : State) (d : BitVec 6) (a b : BitVec 7) (h : BitVec 1) (quiet : Bool) (rel : Num → Num → Bool) :
    Result :=
  let r := fun l => fpCompare quiet rel (s.vector l a) (s.vector l b)
  let flags := s.active.foldl (fun x l => x ||| (r l).2) 0
  .next ((s.writePreds (predIndex d h) fun l => (r l).1).raise flags)

/-- Two values that are not NaN are equal when neither is below the other (R89). -/
def Num.eq (a b : Num) : Bool := !a.isNan && !b.isNan && !a.lt b && !b.lt a

def execFcmpeq (d : BitVec 6) (a b : BitVec 7) (h : BitVec 1) (s : State) : Result := s.floatCompare d a b h true Num.eq
def execFcmplt (d : BitVec 6) (a b : BitVec 7) (h : BitVec 1) (s : State) : Result := s.floatCompare d a b h false Num.lt
def execFcmple (d : BitVec 6) (a b : BitVec 7) (h : BitVec 1) (s : State) : Result :=
  s.floatCompare d a b h false fun x y => x.lt y || x.eq y
def execFcmpun (d : BitVec 6) (a b : BitVec 7) (h : BitVec 1) (s : State) : Result :=
  s.floatCompare d a b h true fun x y => x.isNan || y.isNan

def execFclass (d : BitVec 6) (a : BitVec 7) (h : BitVec 1) (s : State) : Result :=
  s.float1 d a h fun t x => (t.classMask x, 0)

/-! ### Conversions (R90, R91) -/

/-- The format of an FCVT type code (R90). -/
def cvtFormat (ieee : Bool) (t : Nat) : Format :=
  match t with
  | 0 => fp32
  | 1 => bf16
  | 2 => fp16
  | 3 => if ieee then e4m3Ieee else e4m3
  | _ => e5m2

/-- Element e of w bits, replaced in a register. -/
def insertElement (w e : Nat) (x : Word) (v : Nat) : Word :=
  let lo := x.toNat % 2 ^ (w * e)
  let hi := x.toNat / 2 ^ (w * (e + 1))
  BitVec.ofNat 32 (lo + v % 2 ^ w * 2 ^ (w * e) + hi * 2 ^ (w * (e + 1)))

def execFcvt (d : BitVec 6) (a b : BitVec 7) (s : State) : Result :=
  let x := s.issue.pfx.x
  let ieee := x.getLsbD 4
  let src := cvtFormat ieee (cvtSrc b)
  let dst := cvtFormat ieee (cvtDst b)
  let sw := cvtWidth (cvtSrc b)
  let dw := cvtWidth (cvtDst b)
  s.writeElement d.toNat (fun old v => if dw = 32 then BitVec.ofNat 32 v else insertElement dw (x.toNat / 4 % 4) old v) fun l =>
    let e := (s.vector l a).toNat / 2 ^ (sw * (x.toNat % 4)) % 2 ^ sw
    convert src dst s.mode (b.getLsbD 3) e

def execFcvti (d : BitVec 6) (a b : BitVec 7) (s : State) : Result :=
  let bounds : Int × Int :=
    match b.toNat with
    | 0 => (-(2 ^ 31), 2 ^ 31 - 1)
    | 1 => (0, 2 ^ 32 - 1)
    | _ => (-128, 127)
  s.writeFlagged d.toNat fun l =>
    let r := toInteger (modeOf s.issue.pfx.rm 2) bounds.1 bounds.2 (s.vector l a)
    (BitVec.ofInt 32 r.1, r.2)

def execIcvtf (d : BitVec 6) (a b : BitVec 7) (s : State) : Result :=
  s.writeFlagged d.toNat fun l =>
    let x := s.vector l a
    let r := ofInteger s.mode (if b = 0 then x.toInt else x.toNat)
    (BitVec.ofNat 32 r.1, r.2)

def execFrnd (d : BitVec 6) (a : BitVec 7) (h : BitVec 1) (s : State) : Result :=
  s.float1 d a h fun t x => t.integral s.mode x

/-! ### MX blocks (R93 to R95) -/

/-- FMXUP (R93): element k at its block scale, as FP32; an overflow gives ±∞ under every rounding. -/
def execFmxup (d : BitVec 6) (a b : BitVec 7) (s : State) : Result :=
  let x := s.issue.pfx.x
  let t := mxType x
  let k := b.toNat
  s.writeFlagged d.toNat fun l =>
    let v := scaled (s.issue.src.scale (mxSidecar x) k) ((mxFormat t).value (mxElement t k (s.vector l a)))
    let r := fp32.encode s.mode v
    let code := if r.2 &&& flagOverflow = 0 then r.1 else (if v.isNeg then fp32.signBit else 0) + fp32.infCode
    (BitVec.ofNat 32 code, r.2)

/-- FMXPK (R93): an FP32 value divided by the scale, as element k. -/
def execFmxpk (d : BitVec 6) (a b : BitVec 7) (s : State) : Result :=
  let x := s.issue.pfx.x
  let t := mxType x
  let k := b.toNat
  s.writeElement d.toNat (fun old v => mxInsert t k old v) fun l =>
    mxPack t s.mode (s.issue.src.scale (mxSidecar x) k) (fp32.value (s.vector l a).toNat)

/-- FMXSCL (R94): a rendezvous that writes the scale of position k; it raises no flag (log 47, DESIGN CHOICE). -/
def execFmxscl (a b : BitVec 7) (_h : BitVec 1) (s : State) : Result :=
  s.rendezvous fun s =>
    let x := s.issue.pfx.x
    let v := mxScale (mxType x) (s.active.map fun l => fp32.value (s.vector l a).toNat)
    .next (s.updCur fun g => g.setScale (mxSidecar x) b.toNat v)

/-- The exact element results of FMXMUL or FMXADD at position k (R95). -/
def State.mxExact (s : State) (op : Num → Num → Num) (t n k : Nat) (a b : BitVec 7) (l : Nat) : Num :=
  let f := mxFormat t
  op (scaled (s.issue.src.scale n k) (f.value (mxElement t k (s.vector l a))))
    (scaled (s.issue.src.scale (n + 1) k) (f.value (mxElement t k (s.vector l b))))

/-- One position of FMXMUL or FMXADD: the new scale and the codes of the active lanes (R95). -/
def State.mxPosition (s : State) (op : Num → Num → Num) (a b : BitVec 7) (k : Nat) : Byte × (Nat → Nat × BitVec 5) :=
  let x := s.issue.pfx.x
  let t := mxType x
  let n := mxSidecar x
  let e := s.mxExact op t n k a b
  let vs := s.active.map e
  if s.issue.src.scale n k = 0xFF || s.issue.src.scale (n + 1) k = 0xFF || vs.any fun v => v.isNan || v.isInf then
    (0xFF, fun _ => (0, 0))
  else
    let sc := mxScale t vs
    (sc, fun l => mxPack t s.mode sc (e l))

/-- FMXMUL and FMXADD (R95): every position of the block (log 22, DEDUCED). -/
def State.mxBlock (s : State) (d : BitVec 6) (a b : BitVec 7) (op : Num → Num → Num) : Result :=
  s.rendezvous fun s =>
    let x := s.issue.pfx.x
    let t := mxType x
    let ps := (List.range (mxPositions x)).map fun k => (k, s.mxPosition op a b k)
    let value := fun l => ps.foldl (fun (w : Flagged) p =>
      let r := p.2.2 l
      (mxInsert t p.1 w.1 r.1, w.2 ||| r.2)) ((s.srcLane l).vreg d.toNat, 0)
    match s.writeFlagged d.toNat value with
    | .next u => .next (u.updCur fun g => ps.foldl (fun g p => g.setScale (mxSidecar x + 2) p.1 p.2.1) g)
    | r => r

def execFmxmul (d : BitVec 6) (a b : BitVec 7) (_h : BitVec 1) (s : State) : Result := s.mxBlock d a b mulExact
def execFmxadd (d : BitVec 6) (a b : BitVec 7) (_h : BitVec 1) (s : State) : Result :=
  s.mxBlock d a b fun x y => (sumExact s.mode [x, y]).1

end Sys2Proof.Machine
end

