-- ==== Sys2Proof/Machine/Cross.lean ====
section
/-!
DEFINITION. Sys2Proof/Machine/Cross.lean: class 6: lane moves, predicate gathers, reductions, scans, sorts and searches over the
participants of a band (R96 to R105, R233).
-/

namespace Sys2Proof.Machine

/-! ### Participation (R96, R97) -/

/-- The issuing lanes of each band that issues. -/
def bandsOf (w : Nat) (ls : List Nat) : List (List Nat) :=
  ((ls.map fun l => l / w).eraseDups).map fun b => ls.filter fun l => l / w == b

/-- The live members of a set in a lane's band, in a gang (R96). -/
def Gang.bandMembers (g : Gang) (k l : Nat) : List Nat :=
  (lanesOf ((g.jset k).member &&& g.liveMask)).filter fun m => m / g.band == l / g.band

/-- Whether lane l of a gang waits at a class 6 instruction on set k that some lanes have reached (R96). -/
def Gang.crossWaits (g : Gang) (k : Nat) (here : LaneMask) (l : Nat) : Bool :=
  k != 15 && (g.jset k).member.getLsbD l && !(g.wrap && (g.jset k).snuffed) &&
    (g.bandMembers k l).any fun m => !here.getLsbD m

/-- The participant sets of an instruction whose lanes all go (R96). -/
def Gang.participants (g : Gang) (k : Nat) (ls : List Nat) : List (List Nat) :=
  if k = 15 then bandsOf g.band ls
  else
    let members := ls.filter fun l => (g.jset k).member.getLsbD l
    ((ls.filter fun l => !(g.jset k).member.getLsbD l).map fun l => [l]) ++ bandsOf g.band members

/-- A class 6 instruction: orphan check and waits, then what it does with its participant sets (R96). -/
def State.crossGo (s : State) (j : BitVec 4) (go : List (List Nat) → State) : Result :=
  let k := j.toNat
  let g := s.issue.src
  let ls := lanesOf s.issue.lanes
  if k ≠ 15 && ls.any fun l => g.orphaned k l then .next (s.trapHere causeJorphan fun _ r => r)
  else
    let stay := ls.filter fun l => g.crossWaits k s.issue.lanes l
    if !stay.isEmpty then .next (s.holdFor (maskOf stay) (.cross k))
    else .next (go (g.participants k ls))

/-- One execution for each participant set and its active lanes (R96). `f` gets the participants and the active ones. -/
def State.crossSets (s : State) (f : State → List Nat → List Nat → State) (ps : List (List Nat)) : State :=
  ps.foldl (fun t p => f t p (p.filter s.guardOn)) s

/-- A class 6 instruction without flags. -/
def State.crossLane (s : State) (j : BitVec 4) (f : State → List Nat → List Nat → State) : Result := s.crossGo j (s.crossSets f)

/-- A class 6 instruction that raises the flags of each set's execution; `flags` gets the active participants (R82). -/
def State.crossRaise (s : State) (j : BitVec 4) (flags : List Nat → BitVec 5) (f : State → List Nat → List Nat → State) : Result :=
  s.crossGo j fun ps => (s.crossSets f ps).raise (ps.foldl (fun x p => x ||| flags (p.filter s.guardOn)) 0)

/-- Write a vector register of one participant set: a value in each active lane, 0 in the others with z = 1 (R25, R96). -/
def State.crossV (t s : State) (d : Nat) (p a : List Nat) (v : Nat → Word) : State :=
  let t := a.foldl (fun t l => t.writeV l d (v l)) t
  if s.issue.pfx.z = 1 then (p.filter fun l => !a.contains l).foldl (fun t l => t.writeV l d 0) t else t

/-- The same for a predicate. -/
def State.crossP (t s : State) (d : Nat) (p a : List Nat) (v : Bool) : State :=
  let t := a.foldl (fun t l => t.writeP l d v) t
  if s.issue.pfx.z = 1 then (p.filter fun l => !a.contains l).foldl (fun t l => t.writeP l d false) t else t

/-- `v`n of a lane as a source. -/
def State.vAt (s : State) (l : Nat) (n : BitVec 6) : Word := (s.srcLane l).vreg n.toNat

/-- The band width that counts for the present instruction, a lane's position and its band's lowest lane (R96, R99). -/
def State.width (s : State) : Nat := s.issue.src.band
def State.pos (s : State) (l : Nat) : Nat := l % s.width
def State.base (s : State) (l : Nat) : Nat := l / s.width * s.width

/-- Auxiliary bit i of the prefix. -/
def State.aux (s : State) (i : Nat) : Bool := s.issue.pfx.x.getLsbD i

/-! ### Lane moves (R99) -/

/-- A lane move: each active lane takes the value of a source lane of its band if that lane is active, else its own. `src` gives
the source as an integer. -/
def State.laneMove (s : State) (d a : BitVec 6) (j : BitVec 4) (src : Nat → Int) : Result :=
  s.crossLane j fun t p act => t.crossV s d.toNat p act fun l =>
    let m := src l
    if 0 ≤ m && m.toNat / s.width == l / s.width && act.contains m.toNat then s.vAt m.toNat a else s.vAt l a

def execXpull (d a b : BitVec 6) (j : BitVec 4) (s : State) : Result :=
  s.laneMove d a j fun l =>
    let v := (s.vAt l b).toNat
    ((s.base l + (if s.aux 0 then s.pos l + v else v) % s.width : Nat) : Int)

def execXback (d a b : BitVec 6) (j : BitVec 4) (s : State) : Result :=
  s.laneMove d a j fun l =>
    if s.aux 0 then (s.base l : Int) + ((s.pos l : Int) - b.toNat) % s.width else (l : Int) - b.toNat

def execXfwd (d a b : BitVec 6) (j : BitVec 4) (s : State) : Result :=
  s.laneMove d a j fun l =>
    if s.aux 0 then ((s.base l + (s.pos l + b.toNat) % s.width : Nat) : Int) else ((l + b.toNat : Nat) : Int)

def execXflip (d a b : BitVec 6) (j : BitVec 4) (s : State) : Result :=
  s.laneMove d a j fun l => ((s.base l + (s.pos l ^^^ b.toNat) : Nat) : Int)

/-! ### Gathers of predicates and comparisons (R100) -/

def execPany (d a : BitVec 6) (j : BitVec 4) (s : State) : Result :=
  s.crossLane j fun t p act => t.crossP s d.toNat p act (act.any fun l => s.predAt l a.toNat)

def execPall (d a : BitVec 6) (j : BitVec 4) (s : State) : Result :=
  s.crossLane j fun t p act => t.crossP s d.toNat p act (act.all fun l => s.predAt l a.toNat)

def execXsame (d a : BitVec 6) (j : BitVec 4) (s : State) : Result :=
  s.crossLane j fun t p act =>
    t.crossP s d.toNat p act (act.all fun l => act.all fun m => s.vAt l a == s.vAt m a)

/-- The mask of some lanes, by lane number or by band position (R100). -/
def State.laneBits (s : State) (ls : List Nat) : Word := maskOf (if s.aux 0 then ls.map s.pos else ls)

def execPmask (d a : BitVec 6) (j : BitVec 4) (s : State) : Result :=
  s.crossLane j fun t p act =>
    t.crossV s d.toNat p act fun _ => s.laneBits (act.filter fun l => s.predAt l a.toNat)

def execXeqm (d a : BitVec 6) (j : BitVec 4) (s : State) : Result :=
  s.crossLane j fun t p act =>
    t.crossV s d.toNat p act fun l => s.laneBits (act.filter fun m => s.vAt m a == s.vAt l a)

/-! ### Trees (R101) -/

/-- One level of a pairwise tree. -/
def pairUp {α : Type} (f : α → α → α) : List α → List α
  | a :: b :: rest => f a b :: pairUp f rest
  | l => l

/-- The pairwise tree of R101; five levels cover a band of 32. -/
def treeOf {α : Type} (f : α → α → α) (id : α) (ts : List α) : α :=
  (pairUp f (pairUp f (pairUp f (pairUp f (pairUp f ts))))).headD id

/-- One doubling step: t[i] := t[i − n] ⊕ t[i] for i ≥ n. -/
def scanStep {α : Type} (f : α → α → α) (n : Nat) (ts : List α) : List α :=
  ts.take n ++ List.zipWith f ts (ts.drop n)

/-- The doubling steps of a scan over a band of `w` positions (R101). -/
def scanOf {α : Type} (f : α → α → α) (w : Nat) (ts : List α) : List α :=
  ([1, 2, 4, 8, 16].filter fun n => n < w).foldl (fun ts n => scanStep f n ts) ts

/-- The list of a band's positions: a value at each position of an active lane, the identity elsewhere. -/
def State.positions {α : Type} (s : State) (id : α) (act : List Nat) (v : Nat → α) : List α :=
  (List.range s.width).map fun i =>
    match act.find? fun l => s.pos l == i with
    | some l => v l
    | none => id

/-- A term of a floating-point tree: nothing is the identity −0.0; flags are carried along. -/
abbrev Term := Option Flagged

/-- The value of a term; NaN results are canonical (R82). -/
def Term.word (t : Term) : Word :=
  match t with
  | none => 0x80000000
  | some v => if (fp32.value v.1.toNat).isNan then 0x7FC00000 else v.1

/-- The flags of a term. -/
def Term.flags (t : Term) : BitVec 5 :=
  match t with
  | none => 0
  | some v => v.2

/-- FP32 addition of terms; an identity changes no value (R101). -/
def addTerms (mode : Nat) (x y : Term) : Term :=
  let add := fun (a b : Flagged) =>
    let r := addFlags mode a.1 b.1
    some (r.1, a.2 ||| b.2 ||| r.2)
  match x, y with
  | none, none => none
  | some a, some b => add a b
  | some a, none => if (fp32.value a.1.toNat).isZero then some a else add a (0x80000000, 0)
  | none, some b => if (fp32.value b.1.toNat).isZero then some b else add (0x80000000, 0) b

/-- Maximum of terms in the order of R89; absent positions are skipped (R101). -/
def maxTerms (x y : Term) : Term :=
  match x, y with
  | none, b => b
  | a, none => a
  | some a, some b =>
    let r := fp32.minMax true a.1.toNat b.1.toNat
    some (BitVec.ofNat 32 r.1, a.2 ||| b.2 ||| r.2)

/-- A value of a maximum: a NaN becomes the canonical one, and a signalling one raises invalid (R89, R230). -/
def maxStart (x : Word) : Word × BitVec 5 :=
  let v := fp32.value x.toNat
  if v.isNan then (BitVec.ofNat 32 fp32.nanCode, v.snan) else (x, 0)

/-- An integer reduction (R101). -/
def State.reduce (s : State) (d a : BitVec 6) (j : BitVec 4) (id : Word) (f : Word → Word → Word) : Result :=
  s.crossLane j fun t p act =>
    let r := treeOf f id (s.positions id act fun l => s.vAt l a)
    t.crossV s d.toNat p act fun _ => r

/-- A floating-point reduction (R101) (log 22, DEDUCED). -/
def State.reduceFp (s : State) (d a : BitVec 6) (j : BitVec 4) (start : Word → Word × BitVec 5) (f : Term → Term → Term) : Result :=
  let r := fun act => treeOf f none (s.positions none act fun l => some (start (s.vAt l a)))
  s.crossRaise j (fun act => (r act).flags) fun t p act => t.crossV s d.toNat p act fun _ => (r act).word

def execRedAdd (d a : BitVec 6) (j : BitVec 4) (s : State) : Result := s.reduce d a j 0 fun x y => x + y
def execRedMin (d a : BitVec 6) (j : BitVec 4) (s : State) : Result :=
  s.reduce d a j (if s.aux 0 then 0xFFFFFFFF else 0x7FFFFFFF) (if s.aux 0 then minU else minS)
def execRedMax (d a : BitVec 6) (j : BitVec 4) (s : State) : Result :=
  s.reduce d a j (if s.aux 0 then 0 else 0x80000000) (if s.aux 0 then maxU else maxS)
def execRedFadd (d a : BitVec 6) (j : BitVec 4) (s : State) : Result := s.reduceFp d a j (fun x => (x, 0)) (addTerms s.mode)
def execRedFmax (d a : BitVec 6) (j : BitVec 4) (s : State) : Result := s.reduceFp d a j maxStart maxTerms

/-- The starting list of a scan: exclusive scans shift by one position (R101). -/
def scanStart {α : Type} (exclusive : Bool) (id : α) (ts : List α) : List α :=
  if exclusive then (id :: ts).take ts.length else ts

def execScanAdd (d a : BitVec 6) (j : BitVec 4) (s : State) : Result :=
  s.crossLane j fun t p act =>
    let ts := scanOf (fun x y => x + y) s.width (scanStart (s.aux 0) 0 (s.positions 0 act fun l => s.vAt l a))
    t.crossV s d.toNat p act fun l => ts.getD (s.pos l) 0

def execScanFadd (d a : BitVec 6) (j : BitVec 4) (s : State) : Result :=
  let ts := fun act => scanOf (addTerms s.mode) s.width
    (scanStart (s.aux 0) none (s.positions (none : Term) act fun l => some (s.vAt l a, 0)))
  s.crossRaise j (fun act => (ts act).foldl (fun f x => f ||| x.flags) 0) fun t p act =>
    t.crossV s d.toNat p act fun l => Term.word ((ts act).getD (s.pos l) none)

/-! ### Sorting and searching (R98, R102 to R105) -/

/-- The key of a value, by the key type of auxiliary bits 1:0 (R98). -/
def State.key (s : State) (x : Word) : Nat := keyOf (s.issue.pfx.x.toNat % 4) x

/-- Insert a lane into a list ordered by key; equal keys keep lane order. -/
def insertBy (before : Nat → Nat → Bool) (l : Nat) : List Nat → List Nat
  | [] => [l]
  | m :: ms => if before l m then l :: m :: ms else m :: insertBy before l ms

/-- Lanes, ascending, ordered stably by key: ascending or descending (R102, R103). -/
def orderLanes (key : Nat → Nat) (descending : Bool) (ls : List Nat) : List Nat :=
  ls.foldl (fun o l => insertBy (fun x y => if descending then key y < key x else key x < key y) l o) []

def execSortKv (d a : BitVec 6) (j : BitVec 4) (s : State) : Result :=
  s.crossLane j fun t p act =>
    let order := orderLanes (fun l => s.key (s.vAt l d)) (s.aux 2) act
    let from_ := fun l => order.getD (act.idxOf l) l
    let t := t.crossV s d.toNat p act fun l => s.vAt (from_ l) d
    t.crossV s a.toNat p act fun l => s.vAt (from_ l) a

/-- A sum of TOPK over some lanes: modulo 2³² for integer keys, the tree for FP32 keys (R103). -/
def State.topSum (s : State) (a : BitVec 6) (ls : List Nat) : Flagged :=
  if s.issue.pfx.x.toNat % 4 = 2 then
    let r := treeOf (addTerms s.mode) none (s.positions (none : Term) ls fun l => some (s.vAt l a, 0))
    (r.word, r.flags)
  else (ls.foldl (fun n l => n + s.vAt l a) 0, 0)

def execTopk (d a b : BitVec 6) (j : BitVec 4) (s : State) : Result :=
  let rank := fun (act : List Nat) l => (orderLanes (fun l => s.key (s.vAt l a)) (!s.aux 2) act).idxOf l
  let chosen := fun act => s.topSum a (act.filter fun l => rank act l < b.toNat)
  let rest := fun act => s.topSum a (act.filter fun l => b.toNat ≤ rank act l)
  s.crossRaise j (fun act => (chosen act).2 ||| (rest act).2) fun t p act =>
    let t := t.crossV s d.toNat p act fun l => BitVec.ofNat 32 (rank act l)
    let t := t.crossV s (d.toNat + 1) p act fun _ => (chosen act).1
    t.crossV s (d.toNat + 2) p act fun _ => (rest act).1

def execSearch (d a b : BitVec 6) (j : BitVec 4) (s : State) : Result :=
  s.crossLane j fun t p act =>
    t.crossV s d.toNat p act fun l =>
      let q := s.key (s.vAt l b)
      BitVec.ofNat 32 (act.countP fun m => let k := s.key (s.vAt m a); k < q || (s.aux 3 && k == q))

def execCxch (d a b : BitVec 6) (j : BitVec 4) (s : State) : Result :=
  s.crossLane j fun t p act =>
    t.crossV s d.toNat p act fun l =>
      let q := s.base l + (s.pos l ^^^ b.toNat)
      if q / s.width != l / s.width || !act.contains q then s.vAt l a
      else
        let lo := min l q
        let up := s.predAt lo s.issue.pfx.o.toNat
        let x := s.vAt lo a
        let y := s.vAt (max l q) a
        let small := if s.key y < s.key x then y else x
        let large := if s.key y < s.key x then x else y
        if (l == lo) == up then small else large

end Sys2Proof.Machine
end

