-- ==== Sys2Proof/Machine/VMemory.lean ====
section
/-!
DEFINITION. Sys2Proof/Machine/VMemory.lean: class 8: vector loads, stores and atomics over global memory, the own scratchpad window
and windows of group members (R109 to R120, R131). Checks come before accesses, accesses in ascending lane order, results in
a lookahead window (R116).
-/

namespace Sys2Proof.Machine

/-! ### Atomic operations (R118, R122, R123) -/

/-- f(old, A, B) by the operation codes of R118; 12 is the update of a sync object by REL (R123). -/
def atomicInt {w : Nat} (op : Nat) (old a b : BitVec w) : BitVec w :=
  match op with
  | 0 => old + a
  | 1 => minS old a
  | 2 => maxS old a
  | 3 => minU old a
  | 4 => maxU old a
  | 5 => old &&& a
  | 6 => old ||| a
  | 7 => old ^^^ a
  | 8 => a
  | 9 => if old = a then b else old
  | _ => old

/-- The 32-bit operations, those on FP32 included. -/
def atomic32 (op : Nat) (old a b : Word) : Word :=
  if op = 10 then add32 old a else if op = 11 then max32 old a else atomicInt op old a b

/-- The 64-bit operations. -/
def atomic64 (op : Nat) (old a b : DWord) : DWord :=
  if op = 12 then a.setWidth 32 ++ (old.setWidth 32 + 1 : Word) else atomicInt op old a b

/-- An operation on the bytes of a location of 4 or 8 bytes. -/
def atomicBytes (op : Nat) (old : List Byte) (a b : DWord) : List Byte :=
  let v := natLE old
  if old.length = 4 then bytesLE 4 (atomic32 op (BitVec.ofNat 32 v) (a.setWidth 32) (b.setWidth 32)).toNat
  else bytesLE 8 (atomic64 op (BitVec.ofNat 64 v) a b).toNat

/-! ### Addresses and data of a lane (R114, R115) -/

/-- The index of a lane (R114). -/
def State.vmIndex (s : State) (i : BitVec 6) (bytes l : Nat) : DWord :=
  let v := s.vAt l i
  if s.aux 4 then BitVec.ofNat 64 (l * bytes)
  else (if s.aux 3 then v.signExtend 64 else v.setWidth 64) <<< (s.issue.pfx.x.toNat % 8)

/-- The global address of a lane (R114). -/
def State.vmAddr (s : State) (x i : BitVec 6) (bytes l : Nat) : DWord := s.pairAt (2 * x.toNat) + s.vmIndex i bytes l

/-- The bytes that a store takes from a lane's registers (R115). -/
def State.vmData (s : State) (t : BitVec 6) (bytes l : Nat) : List Byte :=
  if bytes < 4 then bytesLE bytes (s.vAt l t).toNat
  else (List.range (bytes / 4)).flatMap fun k => bytesLE 4 ((s.srcLane l).vreg (t.toNat + k)).toNat

/-- A number of `bytes` bytes extended to a register by NARROWS (R114, R115). -/
def narrow (signed : Bool) (bytes v : Nat) : Word :=
  if signed && decide (2 ^ (8 * bytes - 1) ≤ v) then BitVec.ofInt 32 ((v : Int) - 2 ^ (8 * bytes)) else BitVec.ofNat 32 v

/-- The registers that loaded bytes fill (R115). -/
def loadRegs (signed : Bool) (t : Nat) (bs : List Byte) : List (Nat × Word) :=
  if bs.length < 4 then [(t, narrow signed bs.length (natLE bs))]
  else (List.range (bs.length / 4)).map fun k => (t + k, BitVec.ofNat 32 (natLE ((bs.drop (4 * k)).take 4)))

/-- Commit a class 8 word under its window: active lanes get their registers and the predicates `ps` at `status`, inactive ones zeros
with z = 1; every issuing lane holds a window of all of them (R26, R28, R116). -/
def State.commitLoad (s : State) (L : BitVec 4) (t bytes : Nat) (regs : Nat → List (Nat × Word)) (ps : List Nat) (status : Bool) :
    State :=
  let u := (lanesOf s.issue.lanes).foldl (fun u l =>
    if s.guardOn l then u.openWindow l L.toNat (regs l) (ps.map fun n => (n, status)) 0
    else u.openIdle l L.toNat ((List.range (max 1 (bytes / 4))).map fun k => t + k) ps) s
  u.updCur fun g => { g with windows := g.windows + 1 }

/-! ### Global memory (R116) -/

/-- A lane's access does not happen; of several lanes that would fail, the lowest alone is marked in `v11` (log 49, DESIGN CHOICE). Lanes that
wait for a line of a coherent window ask for it together. -/
def State.failLane (s : State) (act : List Nat) (l : Nat) (c : AccCause) (addr : Nat → DWord) (bytes : Nat) (k : Kind)
    (w : Nat → Option LateWrite) : State :=
  match c with
  | .wait =>
    let t := act.foldl (fun t m =>
      match locate s s.agent (addr m) bytes k with
      | .error .wait => (t.askLine s.agent (addr m) k.writes (w m)).retryAt (retryLine s s.agent (addr m) k)
      | _ => t) s
    t.holdFor s.issue.lanes .ready
  | _ => s.failAccess c [l] (addr l) k none

/-- The first active lane whose address is misaligned (R111), with all such lanes. -/
def misaligned (act : List Nat) (addr : Nat → DWord) (bytes : Nat) : List Nat :=
  act.filter fun l => (addr l).toNat % bytes != 0

/-- Read every lane, or the first that fails. -/
def readLanes (s : State) (addr : Nat → DWord) (bytes : Nat) : List Nat → Except (AccCause × Nat) (List (Nat × List Byte))
  | [] => .ok []
  | l :: ls =>
    match readGlobal s s.agent (addr l) bytes .read with
    | .error c => .error (c, l)
    | .ok bs =>
      match readLanes s addr bytes ls with
      | .error e => .error e
      | .ok r => .ok ((l, bs) :: r)

/-- Store every lane in ascending order; the first that fails leaves the stores of those below it (R116). -/
def storeLanes (s : State) (a : Agent) (addr : Nat → DWord) (data : Nat → List Byte) : List Nat → Except (AccCause × Nat × State) State
  | [] => .ok s
  | l :: ls =>
    match writeGlobal s a (addr l) (data l) with
    | .error c => .error (c, l, s)
    | .ok t => storeLanes t a addr data ls

/-- The value a lane reads in a list of results. -/
def bytesOf (rs : List (Nat × List Byte)) (l : Nat) : List Byte :=
  match rs.find? fun r => r.1 == l with
  | some r => r.2
  | none => []

/-- A global vector load (R115, R116). -/
def State.vmLoad (s : State) (t x i : BitVec 6) (L : BitVec 4) (bytes : Nat) : Result :=
  let addr := s.vmAddr x i bytes
  let act := s.active
  match misaligned act addr bytes with
  | l :: ls => .next (s.trapMemory causeAlign (l :: ls) (addr l))
  | [] =>
    match readLanes s addr bytes act with
    | .error (c, l) => .next (s.failLane act l c addr bytes .read fun _ => none)
    | .ok rs =>
      let s := act.foldl (fun s l => s.noteVa s.agent (addr l)) s
      .next (s.commitLoad L t.toNat bytes (fun l => loadRegs (s.aux 7) t.toNat (bytesOf rs l)) [] false)

/-- A global vector store; with NT it allocates no L1 line (R114 to R116, R277) (log 27, DEDUCED). -/
def State.vmStore (s : State) (t x i : BitVec 6) (bytes : Nat) : Result :=
  let addr := s.vmAddr x i bytes
  let act := s.active
  match misaligned act addr bytes with
  | l :: ls => .next (s.trapMemory causeAlign (l :: ls) (addr l))
  | [] =>
    match storeLanes s { s.agent with nt := s.aux 5 } addr (s.vmData t bytes) act with
    | .ok s => .next s
    | .error (c, l, u) =>
      .next ((if c.faults then u else s).failLane act l c addr bytes .write fun l => some { va := addr l, bytes := s.vmData t bytes l, atomic := none })

def execVldB8 (t x i : BitVec 6) (L : BitVec 4) (s : State) : Result := s.vmLoad t x i L 1
def execVldB16 (t x i : BitVec 6) (L : BitVec 4) (s : State) : Result := s.vmLoad t x i L 2
def execVldW (t x i : BitVec 6) (L : BitVec 4) (s : State) : Result := s.vmLoad t x i L 4
def execVldD (t x i : BitVec 6) (L : BitVec 4) (s : State) : Result := s.vmLoad t x i L 8
def execVldQ (t x i : BitVec 6) (L : BitVec 4) (s : State) : Result := s.vmLoad t x i L 16
def execVstB8 (t x i : BitVec 6) (s : State) : Result := s.vmStore t x i 1
def execVstB16 (t x i : BitVec 6) (s : State) : Result := s.vmStore t x i 2
def execVstW (t x i : BitVec 6) (s : State) : Result := s.vmStore t x i 4
def execVstD (t x i : BitVec 6) (s : State) : Result := s.vmStore t x i 8
def execVstQ (t x i : BitVec 6) (s : State) : Result := s.vmStore t x i 16

/-! ### Scratchpad windows (R110, R116, R117) -/

/-- The offset of a lane in a scratchpad window (R114). -/
def State.vmOff (s : State) (x i : BitVec 6) (bytes l : Nat) : Nat :=
  ((s.issue.src.sreg (2 * x.toNat)).setWidth 64 + s.vmIndex i bytes l).toNat % 2 ^ 32

/-- A scratch reference as an address of a trap record (R110, R245); the own-window accesses of VLDS and VSTS have 0xFFFFFFFF as its high
word (log 48, DESIGN CHOICE). -/
def scratchRef (hi : Word) (off : Nat) : DWord := hi ++ BitVec.ofNat 32 off

/-- The checks of R110 and R111 over the active lanes, in order, then an access to a window; `miss` runs when the target is
absent (R117). -/
def State.vmScratch (s : State) (hi : Word) (off : Nat → Nat) (bytes : Nat) (miss : State) (k : Nat → State) : Result :=
  let act := s.active
  let low := act.headD 0
  match act, resolveScratch s s.issue.gang hi with
  | [], _ => .next (k s.issue.gang)
  | _, .groupFault => .next (s.trapMemory causeGrpFault act (scratchRef hi (off low)))
  | _, target =>
    match act.filter fun l => off l % bytes != 0 with
    | l :: ls => .next (s.trapMemory causeAlign (l :: ls) (scratchRef hi (off l)))
    | [] =>
      match target with
      | .window key =>
        match act.filter fun l => !(s.gangAt key).inWindow (off l) bytes with
        | l :: ls => .next (s.trapMemory causeSpRange (l :: ls) (scratchRef hi (off l)))
        | [] =>
          match act.find? fun l => scratchPoisoned s key (off l) bytes with
          | some l => .next (s.failAccess .poison [l] (scratchRef hi (off l)) .read none)
          | none => .next (k key)
      | .offCore => .next (s.holdFor s.issue.lanes .retest)
      | _ => .next miss

/-- A vector load from a window; `ps` are the predicates that tell whether its target was absent. -/
def State.vmScratchLoad (s : State) (t : BitVec 6) (L : BitVec 4) (hi : Word) (off : Nat → Nat) (bytes : Nat) (ps : List Nat) :
    Result :=
  let kept := fun l => ({ s.cur.lane l with wbase := (s.srcLane l).wbase } : Lane).vreg t.toNat
  let gone := fun l => [(t.toNat, if s.issue.pfx.z = 1 then 0 else kept l)]
  s.vmScratch hi off bytes (s.commitLoad L t.toNat bytes gone ps true) fun key =>
    s.commitLoad L t.toNat bytes (fun l => loadRegs false t.toNat (s.scratchBytes key (off l) bytes)) ps false

/-- A vector store to a window, lanes in ascending order. -/
def State.vmScratchStore (s : State) (t : BitVec 6) (hi : Word) (off : Nat → Nat) (bytes : Nat) (status : State → Bool → State) :
    Result :=
  s.vmScratch hi off bytes (status s true) fun key =>
    status (s.active.foldl (fun u l => u.putScratch key (off l) (s.vmData t bytes l)) s) false

/-- The high word of a reference to the own window (R110). -/
def ownWindow : Word := 0xFFFFFFFF

def execVldsW (t x i : BitVec 6) (L : BitVec 4) (s : State) : Result :=
  s.vmScratchLoad t L ownWindow (s.vmOff x i 4) 4 []
def execVstsW (t x i : BitVec 6) (s : State) : Result := s.vmScratchStore t ownWindow (s.vmOff x i 4) 4 fun u _ => u
def execVldsQ (t x i : BitVec 6) (L : BitVec 4) (s : State) : Result :=
  s.vmScratchLoad t L ownWindow (s.vmOff x i 16) 16 []
def execVstsQ (t x i : BitVec 6) (s : State) : Result := s.vmScratchStore t ownWindow (s.vmOff x i 16) 16 fun u _ => u

/-- The high word of the reference of VLDM and VSTM (R114) (log 27, DEDUCED). -/
def State.vmHigh (s : State) (x : BitVec 6) : Word := s.issue.src.sreg (2 * x.toNat + 1)

def execVldmW (t x i : BitVec 6) (L : BitVec 4) (s : State) : Result :=
  s.vmScratchLoad t L (s.vmHigh x) (s.vmOff x i 4) 4 [s.issue.pfx.o.toNat]
def execVstmW (t x i : BitVec 6) (s : State) : Result :=
  s.vmScratchStore t (s.vmHigh x) (s.vmOff x i 4) 4 fun u absent =>
    s.active.foldl (fun u l => u.writeP l s.issue.pfx.o.toNat absent) u

/-! ### VATOM and VPREF (R118, R119) -/

/-- One lane's atomic, or why it does not happen. -/
def State.vmAtomic (s : State) (op : Nat) (va : DWord) (a b : DWord) : Except AccCause (List Byte × State) :=
  match readGlobal s s.agent va 4 .atomic with
  | .error c => .error c
  | .ok old =>
    match writeGlobal s s.agent va (atomicBytes op old a b) with
    | .error c => .error c
    | .ok t => .ok (old, t)

/-- Every lane's atomic in ascending order: each sees the results of the lower ones (R118). -/
def atomicLanes (s : State) (op : Nat) (addr : Nat → DWord) (a b : Nat → DWord) :
    List Nat → Except (AccCause × Nat) (List (Nat × List Byte) × State)
  | [] => .ok ([], s)
  | l :: ls =>
    match s.vmAtomic op (addr l) (a l) (b l) with
    | .error c => .error (c, l)
    | .ok (old, t) =>
      match atomicLanes t op addr a b ls with
      | .error e => .error e
      | .ok (rs, u) => .ok ((l, old) :: rs, u)

/-- VATOM (R118): any fault leaves no effect; the ordered form releases (R290). -/
def execVatom (t x i : BitVec 6) (L : BitVec 4) (s : State) : Result :=
  let op := s.issue.pfx.x.toNat % 16
  let addr := fun l => s.pairAt (2 * x.toNat) + (s.vAt l i).setWidth 64
  let a := fun l => (s.vAt l t).setWidth 64
  let b := fun l => ((s.srcLane l).vreg (t.toNat + 1)).setWidth 64
  let act := s.active
  match misaligned act addr 4 with
  | l :: ls => .next (s.trapMemory causeAlign (l :: ls) (addr l))
  | [] =>
    match atomicLanes s op addr a b act with
    | .error (c, l) =>
      .next (s.failLane act l c addr 4 .atomic fun l =>
        some { va := addr l, bytes := [], atomic := some (op, 4, a l, b l) })
    | .ok (rs, u) =>
      let u := if s.aux 7 then u.releaseAll s.issue.gang (s.issue.pfx.x.toNat / 16 % 8) else u
      .next (u.spoil.commitLoad L t.toNat 4 (fun l => loadRegs false t.toNat (bytesOf rs l)) [] false)

/-- VPREF (R119): no program can observe it except by timing (log 15, DESIGN CHOICE). -/
def execVpref (s : State) : Result := .next s

end Sys2Proof.Machine
end

