-- ==== Sys2Proof/Machine/SMemory.lean ====
section
/-!
DEFINITION. Sys2Proof/Machine/SMemory.lean: class 9: scalar loads, stores and atomics, entry consistency, signals (R121 to R124), once
per issue of a lane group. Each checks and translates before it changes anything (R132). A releasing write and the lines it
covers are performed or pinned together (R290, R294, R295).
-/

namespace Sys2Proof.Machine

/-! ### Shared operations -/

/-- The address pair of a class 9 word (R121). -/
def State.smAddr (s : State) (x : BitVec 6) : DWord := s.pairAt (2 * x.toNat)

/-- Scalar results enter a window of the gang (R26, R121). -/
def State.commitS (s : State) (L : BitVec 4) (vs : List (Nat × Word)) : State :=
  (s.openSWindow L.toNat vs).updCur fun g => { g with windows := g.windows + 1 }

/-- A release where a word is ordered (R121, R290) (log 27, DEDUCED). -/
def State.releaseIf (s : State) (o : BitVec 1) (sc : BitVec 3) : State :=
  if o = 1 then s.releaseAll s.issue.gang sc.toNat else s

/-- A read of a global location: alignment, translation, access; every lane of the group fails with it (R131, R270). -/
def State.smRead (s : State) (va : DWord) (bytes : Nat) (k : State → List Byte → State) : Result :=
  if va.toNat % bytes ≠ 0 then .next (s.trapGroup causeAlign va)
  else
    match readGlobal s s.agent va bytes .read with
    | .error c => .next (s.failAccess c (lanesOf s.issue.lanes) va .read none)
    | .ok bs => .next (k (s.noteVa s.agent va) bs)

/-- A write of a global location. -/
def State.smWrite (s : State) (va : DWord) (bs : List Byte) (k : State → State) : Result :=
  if va.toNat % bs.length ≠ 0 then .next (s.trapGroup causeAlign va)
  else
    match writeGlobal s s.agent va bs with
    | .error c => .next (s.failAccess c (lanesOf s.issue.lanes) va .write (some { va := va, bytes := bs, atomic := none }))
    | .ok t => .next (k t)

/-- An atomic update of a global location of 4 or 8 bytes; `k` gets the old bytes. The instruction is not idempotent (R132). -/
def State.smAtomic (s : State) (va : DWord) (bytes op : Nat) (a b : DWord) (k : State → List Byte → State) : Result :=
  let fail := fun c => s.failAccess c (lanesOf s.issue.lanes) va .atomic
    (some { va := va, bytes := [], atomic := some (op, bytes, a, b) })
  if va.toNat % bytes ≠ 0 then .next (s.trapGroup causeAlign va)
  else
    match readGlobal s s.agent va bytes .atomic with
    | .error c => .next (fail c)
    | .ok old =>
      match writeGlobal s s.agent va (atomicBytes op old a b) with
      | .error c => .next (fail c)
      | .ok t => .next (k t.spoil old)

/-- A scratch reference of a class 9 or 10 word (R110): GRPFAULT, alignment, absence and off-core targets, which wait, and range. -/
def State.withScratch (s : State) (ref : DWord) (bytes : Nat) (k : Nat → Nat → Result) : Result :=
  let off := ref.toNat % 2 ^ 32
  match resolveScratch s s.issue.gang ((ref >>> 32).setWidth 32) with
  | .groupFault => .next (s.trapGroup causeGrpFault ref)
  | target =>
    if off % bytes ≠ 0 then .next (s.trapGroup causeAlign ref)
    else
      match target with
      | .window key =>
        if !(s.gangAt key).inWindow off bytes then .next (s.trapGroup causeSpRange ref)
        else if scratchPoisoned s key off bytes then
          .next (s.failAccess .poison (lanesOf s.issue.lanes) ref .read none)
        else k key off
      | _ => .next (s.holdFor s.issue.lanes .retest)

/-! ### Loads and stores (R121) -/

def State.sld (s : State) (d : BitVec 7) (x : BitVec 6) (L : BitVec 4) (bytes : Nat) : Result :=
  s.smRead (s.smAddr x) bytes fun t bs => t.commitS L (loadRegs false d.toNat bs)

def execSldW (d : BitVec 7) (x : BitVec 6) (L : BitVec 4) (_sc : BitVec 3) (_o : BitVec 1) (s : State) : Result := s.sld d x L 4
def execSldD (d : BitVec 7) (x : BitVec 6) (L : BitVec 4) (_sc : BitVec 3) (_o : BitVec 1) (s : State) : Result := s.sld d x L 8
def execSldQ (d : BitVec 7) (x : BitVec 6) (L : BitVec 4) (_sc : BitVec 3) (_o : BitVec 1) (s : State) : Result :=
  s.sld d x L 16

def execSstW (d : BitVec 7) (x : BitVec 6) (sc : BitVec 3) (o : BitVec 1) (s : State) : Result :=
  s.smWrite (s.smAddr x) (bytesLE 4 (s.scalar d).toNat) fun t => t.releaseIf o sc
def execSstD (d : BitVec 7) (x : BitVec 6) (sc : BitVec 3) (o : BitVec 1) (s : State) : Result :=
  s.smWrite (s.smAddr x) (bytesLE 8 (s.scalar64 d).toNat) fun t => t.releaseIf o sc
def execSstQ (d : BitVec 7) (x : BitVec 6) (sc : BitVec 3) (o : BitVec 1) (s : State) : Result :=
  s.smWrite (s.smAddr x) (bytesLE 8 (s.pairAt d.toNat).toNat ++ bytesLE 8 (s.pairAt (d.toNat + 2)).toNat)
    fun t => t.releaseIf o sc

def execSldsW (d : BitVec 7) (x : BitVec 6) (L : BitVec 4) (_sc : BitVec 3) (_o : BitVec 1) (s : State) : Result :=
  s.withScratch (s.smAddr x) 4 fun key off => .next (s.commitS L (loadRegs false d.toNat (s.scratchBytes key off 4)))
def execSstsW (d : BitVec 7) (x : BitVec 6) (sc : BitVec 3) (o : BitVec 1) (s : State) : Result :=
  s.withScratch (s.smAddr x) 4 fun key off =>
    .next ((s.putScratch key off (bytesLE 4 (s.scalar d).toNat)).releaseIf o sc)

/-! ### Atomics (R122) -/

/-- A 32-bit SATOM: operands `s`d and `s`(d+1). -/
def State.satom (s : State) (d : BitVec 7) (x : BitVec 6) (L : BitVec 4) (sc : BitVec 3) (o : BitVec 1) (op : Nat) : Result :=
  s.smAtomic (s.smAddr x) 4 op ((s.issue.src.sreg d.toNat).setWidth 64) ((s.issue.src.sreg (d.toNat + 1)).setWidth 64)
    fun t old => (t.releaseIf o sc).commitS L (loadRegs false d.toNat old)

/-- A 64-bit SATOM: operands `x`d and `x`(d+2). -/
def State.satom64 (s : State) (d : BitVec 7) (x : BitVec 6) (L : BitVec 4) (sc : BitVec 3) (o : BitVec 1) (op : Nat) : Result :=
  s.smAtomic (s.smAddr x) 8 op (s.pairAt d.toNat) (s.pairAt (d.toNat + 2))
    fun t old => (t.releaseIf o sc).commitS L (loadRegs false d.toNat old)

def execSatomAdd (d : BitVec 7) (x : BitVec 6) (L : BitVec 4) (sc : BitVec 3) (o : BitVec 1) (s : State) : Result :=
  s.satom d x L sc o 0
def execSatomMin (d : BitVec 7) (x : BitVec 6) (L : BitVec 4) (sc : BitVec 3) (o : BitVec 1) (s : State) : Result :=
  s.satom d x L sc o 1
def execSatomMax (d : BitVec 7) (x : BitVec 6) (L : BitVec 4) (sc : BitVec 3) (o : BitVec 1) (s : State) : Result :=
  s.satom d x L sc o 2
def execSatomAnd (d : BitVec 7) (x : BitVec 6) (L : BitVec 4) (sc : BitVec 3) (o : BitVec 1) (s : State) : Result :=
  s.satom d x L sc o 5
def execSatomOr (d : BitVec 7) (x : BitVec 6) (L : BitVec 4) (sc : BitVec 3) (o : BitVec 1) (s : State) : Result :=
  s.satom d x L sc o 6
def execSatomXor (d : BitVec 7) (x : BitVec 6) (L : BitVec 4) (sc : BitVec 3) (o : BitVec 1) (s : State) : Result :=
  s.satom d x L sc o 7
def execSatomXchg (d : BitVec 7) (x : BitVec 6) (L : BitVec 4) (sc : BitVec 3) (o : BitVec 1) (s : State) : Result :=
  s.satom d x L sc o 8
def execSatomCas (d : BitVec 7) (x : BitVec 6) (L : BitVec 4) (sc : BitVec 3) (o : BitVec 1) (s : State) : Result :=
  s.satom d x L sc o 9
def execSatomAdd64 (d : BitVec 7) (x : BitVec 6) (L : BitVec 4) (sc : BitVec 3) (o : BitVec 1) (s : State) : Result :=
  s.satom64 d x L sc o 0
def execSatomCas64 (d : BitVec 7) (x : BitVec 6) (L : BitVec 4) (sc : BitVec 3) (o : BitVec 1) (s : State) : Result :=
  s.satom64 d x L sc o 9

/-! ### Entry consistency (R123, R293) -/

/-- Whether a 128-byte line of memory holds bytes of a region, as an agent translates it, page by page. -/
def regionHolds (s : State) (a : Agent) (base : DWord) (length line : Nat) : Bool :=
  let lo := base.toNat
  let hi := lo + length
  (List.range ((hi - 1) / 65536 + 1 - lo / 65536)).any fun i =>
    let page := (lo / 65536 + i) * 65536
    match translate s a (BitVec.ofNat 64 page) .read with
    | .error _ => false
    | .ok pa =>
      let first := pa + (max lo page - page)
      let last := pa + (min hi (page + 65536) - page)
      decide (first / 128 ≤ line) && decide (line ≤ (last - 1) / 128)

/-- The lines that a REL on an object covers: its bound regions and the object itself (R290, R294). -/
def relCovers (s : State) (a : Agent) (object : DWord) (line : Nat) : Bool :=
  regionHolds s a object 8 line ||
    ((s.ctxAt a.ctx).bindings.filter fun b => b.object == object).any fun b => regionHolds s a b.base b.length line

def execAcq (d : BitVec 7) (x : BitVec 6) (L : BitVec 4) (_sc : BitVec 3) (s : State) : Result :=
  s.smRead (s.smAddr x) 8 fun t bs => t.commitS L (loadRegs false d.toNat bs)

def execRel (d : BitVec 7) (x : BitVec 6) (sc : BitVec 3) (s : State) : Result :=
  let object := s.smAddr x
  s.smAtomic object 8 12 ((s.scalar d).setWidth 64) 0 fun t _ =>
    t.release t.issue.gang sc.toNat (relCovers t t.agent object)

/-- The status of a BIND, and the bindings after it (R123): malformed, then overlap, then room. A region that runs past the top of the address
space is compared without wrapping, and bound (log 49, DESIGN CHOICE). -/
def bindStatus (bs : List Binding) (b : Binding) : Nat × List Binding :=
  let lo := b.base.toNat
  if lo % 64 ≠ 0 || b.length % 64 ≠ 0 || b.length = 0 then (3, bs)
  else if bs.any fun c => decide (c.base.toNat < lo + b.length) && decide (lo < c.base.toNat + c.length) then (2, bs)
  else if 1024 ≤ bs.length then (1, bs)
  else (0, bs ++ [b])

/-- The same for UNBIND. -/
def unbindStatus (bs : List Binding) (b : Binding) : Nat × List Binding :=
  if bs.contains b then (0, bs.filter fun c => c != b) else (4, bs)

/-- BIND and UNBIND: the object's address is checked as an access is (R109, R132) (log 27, DEDUCED). The bindings change at issue, so that
an ACQ or REL that issues before the status commits already meets them (log 48, DESIGN CHOICE). -/
def State.binding (s : State) (d : BitVec 7) (x : BitVec 6) (L : BitVec 4) (f : List Binding → Binding → Nat × List Binding) :
    Result :=
  let b : Binding := { base := s.pairAt d.toNat, length := (s.issue.src.sreg (d.toNat + 2)).toNat, object := s.smAddr x }
  let ctx := s.ctxNum s.issue.gang
  s.smRead b.object 8 fun t _ =>
    let r := f (t.ctxAt ctx).bindings b
    let t := t.updCtx ctx fun c => { c with bindings := r.2 }
    t.spoil.commitS L [(d.toNat + 3, BitVec.ofNat 32 r.1)]

def execBind (d : BitVec 7) (x : BitVec 6) (L : BitVec 4) (s : State) : Result := s.binding d x L bindStatus
def execUnbind (d : BitVec 7) (x : BitVec 6) (L : BitVec 4) (s : State) : Result := s.binding d x L unbindStatus

/-! ### Completion signals (R124) -/

def execSsigSub (d : BitVec 7) (x : BitVec 6) (sc : BitVec 3) (s : State) : Result :=
  s.smAtomic (s.smAddr x) 8 0 (-((s.scalar d).setWidth 64)) 0 fun t _ => t.releaseAll t.issue.gang sc.toNat

end Sys2Proof.Machine
end

