-- ==== Sys2Proof/Machine/Sync.lean ====
section
/-!
DEFINITION. Sys2Proof/Machine/Sync.lean: class 10: fences, engine waits, barrier and arrival objects, the superstep, groups, wake-ups
(R125 to R130). Accesses take effect as they issue, so a fence only performs or pins the lines it releases (log 2, DEDUCED).
-/

namespace Sys2Proof.Machine

/-! ### Barrier and arrival objects (R125) -/

/-- An object of 16 bytes. -/
structure Bar where
  phase : Bool
  thr : Nat
  thrTgt : Nat
  arrived : Nat
  byteTgt : Nat
  deriving DecidableEq, Repr

/-- An object from its bytes. -/
def Bar.ofBytes (bs : List Byte) : Bar :=
  let w := fun i => natLE ((bs.drop (4 * i)).take 4)
  { phase := decide (2 ^ 31 ≤ w 0), thr := w 0 % 2 ^ 31, thrTgt := w 1 % 2 ^ 31, arrived := w 2, byteTgt := w 3 }

/-- The bytes of an object. -/
def Bar.bytes (b : Bar) : List Byte :=
  bytesLE 4 (b.thr + if b.phase then 2 ^ 31 else 0) ++ bytesLE 4 b.thrTgt ++ bytesLE 4 b.arrived ++ bytesLE 4 b.byteTgt

/-- How often an object completes before its test fails: as often as both counts hold their targets. -/
def Bar.completions (b : Bar) : Nat :=
  if b.thrTgt = 0 && b.byteTgt = 0 then 0
  else if b.thrTgt = 0 then b.arrived / b.byteTgt
  else if b.byteTgt = 0 then b.thr / b.thrTgt
  else min (b.thr / b.thrTgt) (b.arrived / b.byteTgt)

/-- The completion test, repeated until it fails (R125). -/
def Bar.complete (b : Bar) : Bar :=
  let n := b.completions
  { b with thr := b.thr - n * b.thrTgt, arrived := b.arrived - n * b.byteTgt, phase := b.phase != (n % 2 == 1) }

/-- An arrival of threads and bytes, saturating, and the test (R125). -/
def Bar.arrive (b : Bar) (threads bytes : Nat) : Bar :=
  ({ b with thr := min (2 ^ 31 - 1) (b.thr + threads), arrived := min (2 ^ 32 - 1) (b.arrived + bytes) } : Bar).complete

/-- An object in a window. -/
def State.barAt (s : State) (key off : Nat) : Bar := Bar.ofBytes (s.scratchBytes key off 16)
def State.setBar (s : State) (key off : Nat) (b : Bar) : State := s.putScratch key off b.bytes

/-- An arrival at an object in a window. -/
def State.arriveAt (s : State) (key off threads bytes : Nat) : State := s.setBar key off ((s.barAt key off).arrive threads bytes)

/-! ### Fences and engine waits (R127, R128) -/

/-- FENCE (R127): scope and kind stand in bits 6:4 and 3:0 of the word (R15) (log 2, DEDUCED) (log 15, DESIGN CHOICE). -/
def execFence (s : State) : Result :=
  let w := s.issue.word.toNat
  .next (if w % 16 = 2 then s else s.releaseAll s.issue.gang (w / 16 % 8))

/-- The trap of a WAITC that retires failed operations: the oldest one's record (R139, R245). -/
def engFailTrap (pc : Nat) (f : EngFail) (several : Bool) : PendTrap :=
  { code := causeEngFail, pc := pc, y := 0,
    v11 := BitVec.ofNat 32 (f.cls + f.cause * 256 + if several then 4096 else 0), v12 := BitVec.ofNat 32 f.unit }

/-- WAITC (R128, R139). -/
def execWaitc (a : BitVec 7) (n : BitVec 4) (s : State) : Result :=
  let key := s.issue.gang
  let cls := n.toNat
  if (s.scalar a).toNat < (s.opsOf key cls).length then .next (s.holdFor s.issue.lanes .retest)
  else
    match s.cur.engfails.filter fun f => f.cls == cls with
    | [] => .next s
    | f :: rest =>
      if s.issue.pend.isSome || s.issue.flags &&& s.cur.fptrap != 0 then .next s
      else
        let t := s.updCur fun g => { g with engfails := g.engfails.filter fun f => f.cls != cls }
        .next (t.trapAfter (engFailTrap s.issue.pc f (!rest.isEmpty)))

/-- Cancel the operations of a list, which leave the Chandler's queue. -/
def State.cancelOps (s : State) (ids : List Nat) : State :=
  let f := fun o : Op => if ids.contains o.id then o.cancel else o
  { s with ops := s.ops.map f,
           chandler := { s.chandler with queue := s.chandler.queue.filter fun w => !ids.contains w.op } }

def execCancel (a : BitVec 7) (n : BitVec 4) (s : State) : Result :=
  let keep := (s.scalar a).toNat
  .next (s.spoil.cancelOps (((s.opsOf s.issue.gang n.toNat).drop keep).map Op.id))

/-! ### Barrier instructions (R129) -/

/-- An arrival of a lane group, after the release. -/
def State.barArrive (s : State) (a : BitVec 7) (sc : BitVec 3) (count : Nat) : Result :=
  s.withScratch (s.pairAt a.toNat) 16 fun key off =>
    .next ((s.releaseAll s.issue.gang sc.toNat).spoil.arriveAt key off count 0)

def execBarArr (a : BitVec 7) (sc : BitVec 3) (s : State) : Result := s.barArrive a sc (popCount s.issue.lanes)
def execBarArrn (a b : BitVec 7) (sc : BitVec 3) (s : State) : Result := s.barArrive a sc (s.scalar b).toNat

/-- A wait on an object: the chain issues once the test holds. -/
def State.barWait (s : State) (a : BitVec 7) (pass : Bar → Bool) : Result :=
  s.withScratch (s.pairAt a.toNat) 16 fun key off =>
    .next (if pass (s.barAt key off) then s else s.holdFor s.issue.lanes .retest)

def execBarWait (a b : BitVec 7) (_sc : BitVec 3) (s : State) : Result :=
  s.barWait a fun o => o.phase != (s.scalar b).getLsbD 0
def execArwait (a b : BitVec 7) (_sc : BitVec 3) (p : BitVec 1) (s : State) : Result :=
  s.barWait a fun o => o.phase != (p == 1) || decide ((s.scalar b).toNat ≤ o.arrived)

def execArset (a b : BitVec 7) (sc : BitVec 3) (s : State) : Result :=
  s.withScratch (s.pairAt a.toNat) 16 fun key off =>
    let o : Bar := { phase := false, thr := 0, thrTgt := (s.issue.src.sreg b.toNat).toNat % 2 ^ 31, arrived := 0,
                     byteTgt := (s.issue.src.sreg (b.toNat + 1)).toNat }
    .next ((s.releaseAll s.issue.gang sc.toNat).spoil.setBar key off o)

/-! ### Groups (R130, R216, R217) -/

/-- SSTEP (R130): the lane group arrives at its group's superstep and waits; in wrap-up it passes as a full fence. Its GRPFAULT trap has 0 for
an address (log 48, DESIGN CHOICE). -/
def execSstep (a : BitVec 7) (s : State) : Result :=
  let group := (s.scalar a).toNat
  if !s.cur.inGroup group then .next (s.trapGroup causeGrpFault 0)
  else
    let t := (s.releaseAll s.issue.gang 4).spoil
    .next (if s.cur.wrap then t
           else t.updCur fun g => g.updLanes s.issue.lanes fun _ x => x.waitAt s.issue.pc (.sstep group))

/-- The status of a GRPJOIN (R130): the first of 3, 4, 1, 2 that applies, else 0. -/
def joinStatus (l : Launch) (g : Gang) (group : Nat) : Nat :=
  match l.groups.find? fun x => x.index == group with
  | none => 3
  | some x =>
    if x.coresident then 4
    else if g.inGroup group then 1
    else if 4 ≤ (g.members.filter Membership.live).length then 2
    else 0

/-- The status of a GRPLEAVE. -/
def leaveStatus (l : Launch) (g : Gang) (group : Nat) : Nat :=
  match l.groups.find? fun x => x.index == group with
  | none => 3
  | some x => if x.coresident then 4 else if g.inGroup group then 0 else 1

/-- A gang becomes a live member, at the group's current step. -/
def Gang.joinGroup (g : Gang) (l : Launch) (group : Nat) : Gang :=
  { g with members := (g.members.filter fun m => m.group != group) ++ [l.join group] }

/-- A membership becomes exited and stays on record. -/
def Gang.leaveGroup (g : Gang) (group : Nat) : Gang :=
  let f := fun m : Membership => if m.group = group then { m with live := false } else m
  { g with members := g.members.map f }

def execGrpjoin (a b : BitVec 7) (s : State) : Result :=
  let group := (s.scalar a).toNat
  let l := s.launchOf s.issue.gang
  let st := joinStatus l s.cur group
  let s := s.spoil
  let s := if st = 0 then s.updCur fun g => g.joinGroup l group else s
  .next (s.writeS b.toNat (BitVec.ofNat 32 st))

def execGrpleave (a b : BitVec 7) (s : State) : Result :=
  let group := (s.scalar a).toNat
  let st := leaveStatus (s.launchOf s.issue.gang) s.cur group
  let s := s.spoil
  let s := if st = 0 then (s.updCur fun g => g.leaveGroup group).freeWindows s.cur.launch else s
  .next (s.writeS b.toNat (BitVec.ofNat 32 st))

/-! ### Wake-ups (R130) -/

/-- The wake bit of a gang becomes set; lanes that sleep wake, those of a saved gang as it is restored (R134). -/
def Gang.wakeUp (g : Gang) : Gang :=
  if g.place == .saved then { g with wake := true } else ({ g with wake := true } : Gang).endSleep g.sleepers 1

def execNotify (a : BitVec 7) (sc : BitVec 3) (s : State) : Result :=
  let n := s.scalar a
  let launch := s.cur.launch
  let s := (s.releaseAll s.issue.gang sc.toNat).spoil
  let hit := fun kg : Nat × Gang =>
    kg.2.launch == launch && !kg.2.lamp && kg.2.alive && (n == 0xFFFFFFFF || BitVec.ofNat 32 kg.2.num == n)
  .next { s with gangs := s.gangs.map fun kg => if hit kg then (kg.1, kg.2.wakeUp) else kg }

/-- SLEEP (R130). -/
def execSleep (a b : BitVec 7) (s : State) : Result :=
  let ns := (s.scalar a).toNat
  let reg := b.toNat
  if s.cur.wake then .next ((s.updCur fun g => { g with wake := false }).writeS reg 1)
  else if ns = 0 then
    .next ((s.updCur fun g => g.updLanes s.issue.lanes fun _ x => { x with yieldAt := g.chains + 1 }).writeS reg 0)
  else .next (s.updCur fun g => g.updLanes s.issue.lanes fun _ x => x.waitAt s.issue.pc (.sleep (s.now + ns) reg))

end Sys2Proof.Machine
end

