-- ==== Sys2Proof/Machine/Engine.lean ====
section
/-!
DEFINITION. Sys2Proof/Machine/Engine.lean: class 11: the issue of copies, gathers, fabric operations and LATTN (R135 to R142, R155 to
R171), the block pool (R164 to R166, R346 to R348) and COHREC (R172). What operations do once issued stands in the files of
events.
-/

namespace Sys2Proof.Machine

/-! ### Operand checks (R142) -/

/-- A check that fails: its trap code and the address of the trap record. -/
abbrev Check := Option (Nat × DWord)

/-- A limit of the manual: ENGARG where it is broken. -/
def limit (ok : Bool) : Check := if ok then none else some (causeEngArg, 0)

/-- The first check that fails. -/
def firstFail (cs : List Check) : Check := cs.findSome? id

/-- The high word of a scratch reference. -/
def refHigh (ref : DWord) : Word := (ref >>> 32).setWidth 32

/-- A scratch reference given as an operand (R110, R111): one that is absent or off-core waits in the engine (R142, R255). Every window of a
launch has the size of the issuing gang's (log 28, DEDUCED). -/
def State.refCheck (s : State) (ref : DWord) (bytes align : Nat) : Check :=
  let off := ref.toNat % 2 ^ 32
  match resolveScratch s s.issue.gang (refHigh ref) with
  | .groupFault => some (causeGrpFault, ref)
  | _ =>
    if off % align ≠ 0 then some (causeAlign, ref)
    else if s.cur.scratchSize < off + bytes then some (causeSpRange, ref)
    else none

/-- Whether offsets lo to hi from a value stay within 0 and a bound. -/
def within (v : Nat) (lo hi : Int) (bound : Nat) : Bool := 0 ≤ (v : Int) + lo && (v : Int) + hi ≤ bound

/-- A copy endpoint that is used from offset lo to hi (R156) (log 28, DEDUCED). -/
def State.endpointCheck (s : State) (e : Endpoint) (lo hi : Int) : Check :=
  match e.space with
  | 0 => limit (within e.addr.toNat lo hi (2 ^ 64))
  | 1 =>
    match s.refCheck e.addr 1 1 with
    | some c => some c
    | none => limit (within (e.addr.toNat % 2 ^ 32) lo hi s.cur.scratchSize)
  | 2 => limit (within e.addr.toNat lo hi (s.coreAt s.cur.core).opbSize)
  | _ => limit false

/-! ### Issue of an asynchronous operation (R136, R137, R298) -/

/-- The scope of the release at issue (R298). -/
def OpKind.scope (k : OpKind) : Nat :=
  match k with
  | .bcopy d s _ | .bcopy2d d s _ _ _ _ => if d.space = 0 || s.space = 0 then 4 else 3
  | .blist _ _ _ | .bkick _ | .bkickAt _ | .lattn _ _ _ | .mjob _ _ => 4
  | .mma _ _ _ _ _ | .mfill _ _ _ _ | .mzero _ _ _ => 3
  | _ => 5

/-- The global ranges an operation reads, as far as its operands name them; nothing where it reads them from memory. -/
def OpKind.sources (k : OpKind) : Option (List (DWord × Nat)) :=
  match k with
  | .bcopy _ s n => some (if s.space = 0 then [(s.addr, n)] else [])
  | .bcopy2d _ s row rows _ stride =>
    let lo := min 0 ((rows - 1 : Nat) * stride)
    let hi := max 0 ((rows - 1 : Nat) * stride) + row
    some (if s.space = 0 then [(BitVec.ofInt 64 (s.addr.toNat + lo), (hi - lo).toNat)] else [])
  | .fput _ s n _ _ | .fbulk s _ n _ _ | .fred _ s n _ _ _ _ => some [(s, n)]
  | .fget _ _ _ _ _ | .fatom _ _ _ _ _ _ | .fresv _ _ _ => some []
  | .mma _ _ _ _ _ | .mfill _ _ _ _ | .mzero _ _ _ => some []
  | _ => none

/-- Issue releases the gang's writes to the operation's sources (R137, R290) (log 29, DEDUCED). -/
def State.releaseSources (s : State) (k : OpKind) : State :=
  match k.sources with
  | none => s.releaseAll s.issue.gang k.scope
  | some rs => s.release s.issue.gang k.scope fun line => rs.any fun r => r.2 != 0 && regionHolds s s.agent r.1 r.2 line

/-- A request at the tail of the Chandler's queue (R366). -/
def State.askWick (s : State) (id : Nat) (watts : List (Nat × Nat)) : State :=
  { s with
    ops := s.ops.map (fun o => if o.id = id then { o with wick := .waiting, reserves := watts } else o),
    chandler := { s.chandler with queue := s.chandler.queue ++ [{ op := id, watts := watts, since := s.ran }] } }

def State.updOp (s : State) (id : Nat) (f : Op → Op) : State := { s with ops := s.ops.map fun o => if o.id = id then f o else o }

/-- The operation that an instruction issues. -/
def State.newOp (s : State) (cls : Nat) (k : OpKind) (wick : WickState) : Op :=
  { id := s.nextOp, gang := s.issue.gang, launch := s.cur.launch, cls := cls, kind := k, core := s.cur.core, pc := 0, ps := 0,
    wick := wick, status := .active, cancelling := false, fault := none, sent := 0, acked := [], owed := [], ended := false,
    grant := none, resv := .idle, card := none, started := false, named := [], partners := [], loads := [], pass := 0, group := 0, brows := [],
    ahead := [], prepared := false, entries := [], triples := [], erred := none, answers := [], olds := [], reserves := [],
    steps := (s.cur.members.filter Membership.live).map fun m => (m.group, m.step), issuedAt := s.clock.cycles }

/-- Hand an operation to its engine: counted, released, noted in the spawn tree; `watts` asks for a wick at issue (R136, R184,
R366). -/
def State.issueOp (s : State) (cls : Nat) (k : OpKind) (wick : WickState) (watts : Option (List (Nat × Nat))) : State :=
  let o := s.newOp cls k wick
  let s := (s.releaseSources k).spoil
  let s := ({ s with ops := s.ops ++ [o], nextOp := s.nextOp + 1 } : State).spawnUp s.cur.launch 1
  match watts with
  | some w => s.askWick o.id w
  | none => s

/-- Whether one more operation of a class fits the counter (R128). -/
def State.counterFull (s : State) (cls : Nat) : Bool := decide (1023 ≤ (s.opsOf s.issue.gang cls).length)

/-- The issue of an asynchronous instruction: a full counter holds the chain, a failed check traps, else the operation goes to its
engine (R128, R142). -/
def State.engine (s : State) (cls : Nat) (cs : List Check) (go : State → State) : Result :=
  if s.counterFull cls then .next (s.holdFor s.issue.lanes .ready)
  else
    match firstFail cs with
    | some (code, va) => .next (s.trapGroup code va)
    | none => .next (go s)

/-! ### Copies (R156 to R159) -/

def execBcopy (a b c : BitVec 7) (s : State) : Result :=
  let ctl : Nat := (s.scalar c).toNat
  let n : Nat := ctl % 2 ^ 28
  let d : Endpoint := { space := ctl / 2 ^ 28 % 4, addr := s.pairAt a.toNat }
  let r : Endpoint := { space := ctl / 2 ^ 30, addr := s.pairAt b.toNat }
  s.engine 0 [s.endpointCheck d 0 n, s.endpointCheck r 0 n] fun s => s.issueOp 0 (.bcopy d r n) .notNeeded none

/-- The lowest and one past the highest offset of rows at a stride (R157). -/
def rowSpan (row rows : Nat) (stride : Int) : Int × Int :=
  let last : Int := (rows - 1 : Nat) * stride
  (min 0 last, max 0 last + row)

def execBcopy2d (a b c : BitVec 7) (s : State) : Result :=
  let g := s.issue.src
  let w := (g.sreg c.toNat).toNat
  let row := w % 2 ^ 24
  let rows := (g.sreg (c.toNat + 1)).toNat
  let ds := (g.sreg (c.toNat + 2)).toInt
  let ss := (g.sreg (c.toNat + 3)).toInt
  let d : Endpoint := { space := w / 2 ^ 24 % 4, addr := s.pairAt a.toNat }
  let r : Endpoint := { space := w / 2 ^ 26 % 4, addr := s.pairAt b.toNat }
  let dspan := rowSpan row rows ds
  let sspan := rowSpan row rows ss
  s.engine 0
    [limit (decide (w < 2 ^ 28) && row != 0 && rows != 0 && decide (rows < 65536)), s.endpointCheck d dspan.1 dspan.2,
     s.endpointCheck r sspan.1 sspan.2]
    fun s => s.issueOp 0 (.bcopy2d d r row rows ds ss) .notNeeded none

def execBlist (a b c : BitVec 7) (s : State) : Result :=
  let list := s.pairAt a.toNat
  let n := (s.scalar b).toNat
  let arr := if c = 96 then none else some (s.pairAt c.toNat)
  s.engine 0
    [limit (list.toNat % 16 == 0 && decide (n ≤ 65535)), match arr with | some r => s.refCheck r 16 16 | none => none]
    fun s => s.issueOp 0 (.blist list n arr) .notNeeded none

/-- A little-endian field of a record. -/
def field (bs : List Byte) (off n : Nat) : Nat := natLE ((bs.drop off).take n)

/-- The same as a signed number. -/
def fieldInt (bs : List Byte) (off n : Nat) : Int := (BitVec.ofNat (8 * n) (field bs off n)).toInt

/-- A gather request from its 64 bytes (R159). -/
def Gather.ofBytes (bs : List Byte) : Gather :=
  let sp := field bs 40 1
  { dst := { space := sp % 4, addr := BitVec.ofNat 64 (field bs 0 8) }, src := BitVec.ofNat 64 (field bs 8 8),
    idx := { space := sp / 4 % 4, addr := BitVec.ofNat 64 (field bs 16 8) }, rowBytes := field bs 24 4, rows := field bs 28 4,
    dstStride := fieldInt bs 32 4, srcStride := field bs 36 4, arrive := field bs 41 1 % 2 == 1,
    arr := BitVec.ofNat 64 (field bs 48 8) }

/-- Whether a gather request holds no reserved code or value out of range, and its global or operand-buffer destination stays in its
space (R159); reserved fields are ignored (R372). -/
def gatherCheck (g : Gather) (opb : Nat) : Bool :=
  let span := rowSpan g.rowBytes g.rows g.dstStride
  let room := match g.dst.space with
    | 0 => within g.dst.addr.toNat span.1 span.2 (2 ^ 64)
    | 1 => true
    | 2 => within g.dst.addr.toNat span.1 span.2 opb
    | _ => false
  room && decide (g.idx.space ≤ 1) && g.idx.addr.toNat % 4 == 0 && g.rowBytes != 0 && decide (g.rowBytes ≤ 65536) &&
    g.rows != 0 && decide (g.rows ≤ 65535)

/-- BKICK (R159): reads its request as it issues; where the request's window is not there it is issued and the engine reads it later (R142) (log 28, DEDUCED). -/
def execBkick (a : BitVec 7) (s : State) : Result :=
  let ref := s.pairAt a.toNat
  s.engine 0 [s.refCheck ref 64 16] fun s =>
    let off := ref.toNat % 2 ^ 32
    match resolveScratch s s.issue.gang (refHigh ref) with
    | .window key =>
      let g := Gather.ofBytes (s.scratchBytes key off 64)
      if scratchPoisoned s key off 64 then s.failAccess .poison (lanesOf s.issue.lanes) ref .read none
      else if !gatherCheck g (s.coreAt s.cur.core).opbSize then s.engArg
      else (s.issueOp 0 (.bkick g) .notNeeded none).updOp s.nextOp fun o => { o with named := [ref] }
    | _ => s.issueOp 0 (.bkickAt ref) .notNeeded none

/-! ### Lantern attention (R161) -/

def execLattn (a b c : BitVec 7) (s : State) : Result :=
  let list := s.pairAt a.toNat
  let n := (s.scalar b).toNat
  let arr := s.pairAt c.toNat
  s.engine 2 [limit (list.toNat % 64 == 0 && n != 0 && decide (n ≤ 4096)), s.refCheck arr 16 16]
    fun s => s.issueOp 2 (.lattn list n arr) .notAsked none

/-! ### Fabric operations (R167 to R171) -/

/-- A route word (R167). -/
def Route.ofWord (w : Word) : Route :=
  { arr := w.getLsbD 20, scratch := w.getLsbD 19, dom := w.toNat / 2 ^ 15 % 16, tc := w.toNat / 2 ^ 12 % 8,
    peer := w.toNat % 4096 }

/-- Bits of a route word that an operation does not use are 0; only FGET uses ARR and LSP. -/
def routeCheck (w : Word) (get : Bool) : Check := limit (decide (w.toNat < if get then 2 ^ 21 else 2 ^ 19))

/-- The longest FPUT, FSPUT, FGET and FRED. -/
def lengthCheck (n : Nat) : Check := limit (decide (n ≤ 16777216))

/-- The port by which a flow leaves: one of the ports that reach the package and are up (R307). -/
def portFor (s : State) (dst tc dom : Nat) : Option Nat :=
  let mask := s.numAt (s.fab.yrtab.toNat + 4 * dst) 4
  let up := (List.range 18).filter fun p => mask / 2 ^ p % 2 == 1 && (s.portAt p).up
  if up.isEmpty then none else up[(16 * tc + dom) % up.length]?

/-- The die of a port (R307) (log 30, DEDUCED). -/
def portDie (p : Nat) : Nat := if p < 5 then 0 else if p < 9 then 1 else if p < 14 then 2 else 3

def execFput (a b c : BitVec 7) (s : State) : Result :=
  let n := (s.issue.src.sreg c.toNat).toNat
  let w := s.issue.src.sreg (c.toNat + 1)
  s.engine 3 [lengthCheck n, routeCheck w false] fun s =>
    s.issueOp 3 (.fput (s.pairAt a.toNat) (s.pairAt b.toNat) n (Route.ofWord w) none) .notNeeded none

def execFsput (a b c : BitVec 7) (s : State) : Result :=
  let n := (s.issue.src.sreg c.toNat).toNat
  let w := s.issue.src.sreg (c.toNat + 1)
  let sig := s.pairAt (c.toNat + 2)
  s.engine 3 [lengthCheck n, routeCheck w false, limit (sig.toNat % 8 == 0)] fun s =>
    s.issueOp 3 (.fput (s.pairAt a.toNat) (s.pairAt b.toNat) n (Route.ofWord w) (some sig)) .notNeeded none

def execFget (a b c : BitVec 7) (s : State) : Result :=
  let n := (s.issue.src.sreg c.toNat).toNat
  let w := s.issue.src.sreg (c.toNat + 1)
  let r := Route.ofWord w
  let arr := s.pairAt (c.toNat + 2)
  let d : Endpoint := { space := if r.scratch then 1 else 0, addr := s.pairAt a.toNat }
  s.engine 3 [lengthCheck n, routeCheck w true, s.endpointCheck d 0 n, if r.arr then s.refCheck arr 16 16 else none] fun s =>
    s.issueOp 3 (.fget d.addr (s.pairAt b.toNat) n r arr) .notNeeded none

def execFatom (a b c : BitVec 7) (s : State) : Result :=
  let g := s.issue.src
  let op := (g.sreg c.toNat).toNat
  let w := g.sreg (c.toNat + 1)
  let wide := op / 16 % 2 == 1
  let code := op % 16
  let size := if wide then 8 else 4
  let remote := s.pairAt a.toNat
  let result := s.pairAt (c.toNat + 2)
  let x := if wide then s.pairAt b.toNat else (g.sreg b.toNat).setWidth 64
  let y := if wide then s.pairAt (b.toNat + 2) else (g.sreg (b.toNat + 1)).setWidth 64
  s.engine 3
    [limit (decide (op < 32) && decide (code < 12) && (!wide || code == 0 || code == 8 || code == 9)),
     limit (!wide || (b.toNat % 4 == 0 && decide (b.toNat ≤ 92))), routeCheck w false,
     limit (remote.toNat % size == 0 && result.toNat % size == 0)]
    fun s => s.issueOp 3 (.fatom remote op x y (Route.ofWord w) result) .notNeeded none

def execFred (a b c : BitVec 7) (s : State) : Result :=
  let n := (s.issue.src.sreg c.toNat).toNat
  let w := (s.issue.src.sreg (c.toNat + 1)).toNat
  let group := w % 4096
  let code := w / 4096 % 4
  let sig := s.pairAt (c.toNat + 2)
  let ctx := s.ctxNum s.issue.gang
  s.engine 3 [lengthCheck n, limit (n % 4 == 0), limit (decide (w < 2 ^ 14) && code != 3), limit (sig.toNat % 8 == 0)] fun s =>
    let number := Table.get 0 group (s.ctxAt ctx).reductions
    let s := s.issueOp 3 (.fred (s.pairAt a.toNat) (s.pairAt b.toNat) n group code sig number) .notNeeded none
    s.updCtx ctx fun c => { c with reductions := Table.put group ((number + 1) % 65536) c.reductions }

def execFresv (a b c : BitVec 7) (s : State) : Result :=
  let w := s.scalar a
  let bytes := (s.scalar b).toNat
  let result := s.pairAt c.toNat
  s.engine 3 [routeCheck w false, limit (bytes != 0), limit (result.toNat % 8 == 0)] fun s =>
    s.issueOp 3 (.fresv (Route.ofWord w) bytes result) .notNeeded none

/-- The die of the port that a route of the chain's gang leaves by; its own die where no port reaches the peer. -/
def State.routeDie (s : State) (r : Route) : Nat :=
  let own := dieOf s.cur.core
  match peerOf s (s.ctxNum s.issue.gang) r.peer with
  | none => own
  | some (pkg, _) => match portFor s pkg r.tc r.dom with | some p => portDie p | none => own

def execFbulk (a : BitVec 7) (s : State) : Result :=
  let n := (s.issue.src.sreg (a.toNat + 4)).toNat
  let w := s.issue.src.sreg (a.toNat + 5)
  let sig := s.pairAt (a.toNat + 6)
  let r := Route.ofWord w
  s.engine 3 [limit (n != 0), routeCheck w false, limit (sig.toNat % 8 == 0)] fun s =>
    let k : OpKind := .fbulk (s.pairAt a.toNat) (s.pairAt (a.toNat + 2)) n r sig
    if 1048576 < n then s.issueOp 3 k .waiting (some [(s.routeDie r, 16)]) else s.issueOp 3 k .notNeeded none

/-! ### The block pool (R164 to R166, R346 to R348) -/

/-- Blocks on the free list. -/
def Pool.freeCount (p : Pool) : Nat := (p.free.map Prod.snd).sum

/-- Take k indices from the head of the free list. -/
def takeFree : Nat → List (Nat × Nat) → List Nat × List (Nat × Nat)
  | _, [] => ([], [])
  | k, (first, len) :: rest =>
    if k = 0 then ([], (first, len) :: rest)
    else if k < len then ((List.range k).map (first + ·), (first + k, len - k) :: rest)
    else
      let r := takeFree (k - len) rest
      ((List.range len).map (first + ·) ++ r.1, r.2)

/-- Append indices at the tail of the free list. -/
def Pool.giveBack (p : Pool) (is : List Nat) : Pool := { p with free := p.free ++ is.map fun i => (i, 1) }

/-- Grant k blocks under a tag, or permanently. -/
def Pool.grant (p : Pool) (k : Nat) (tag : Option Nat) : List Nat × Pool :=
  let r := takeFree k p.free
  (r.1, { p with free := r.2, held := p.held ++ r.1.map fun i => { index := i, tag := tag } })

/-- Drop a tag: its blocks go to the free list in the order of their grants (R347). -/
def Pool.drop (p : Pool) (tag : Nat) : Nat × Pool :=
  let is := (p.held.filter fun b => b.tag == some tag).map Block.index
  (is.length, ({ p with held := p.held.filter fun b => b.tag != some tag } : Pool).giveBack is)

/-- Keep a tag: its blocks become permanent. -/
def Pool.keep (p : Pool) (tag : Nat) : Nat × Pool :=
  let n := (p.held.filter fun b => b.tag == some tag).length
  let f := fun b : Block => if b.tag = some tag then { b with tag := none } else b
  (n, { p with held := p.held.map f })

/-- Free permanent blocks in order, up to the first index that is out of range, free or tentative (R166). -/
def Pool.freeList (p : Pool) : List Nat → Nat × Bool × Pool
  | [] => (0, false, p)
  | i :: is =>
    if p.held.contains { index := i, tag := none } then
      let r := (({ p with held := p.held.filter fun b => b.index != i } : Pool).giveBack [i]).freeList is
      (r.1 + 1, r.2.1, r.2.2)
    else (0, true, p)

def State.poolAt (s : State) (ctx : Nat) : Pool := (s.ctxAt ctx).pool
def State.setPool (s : State) (ctx : Nat) (p : Pool) : State := s.updCtx ctx fun c => { c with pool := p }

/-- The lane group waits until the instruction has finished; then its result goes to a register (R136). -/
def State.syncResult (s : State) (reg : Nat) (v : Word) : State :=
  s.updCur fun g =>
    { g.updLanes s.issue.lanes (fun _ x => x.waitAt s.issue.pc .engine) with syncs := g.syncs ++ [s.newSync (.result reg v) false] }

/-- Whether a range of addresses can be accessed, page by page (R348): a page of a coherent window by the translation of its home, where
that is this package (R323) (log 27, DEDUCED). -/
def rangeFault (s : State) (a : Agent) (base : DWord) (n : Nat) (k : Kind) : Option (AccCause × DWord) :=
  let lo := base.toNat
  if n = 0 then none
  else (List.range ((lo + n - 1) / 65536 + 1 - lo / 65536)).findSome? fun i =>
    let va : DWord := BitVec.ofNat 64 (max lo ((lo / 65536 + i) * 65536))
    match windowAt s a.ctx va with
    | none => match translate s a va k with | .ok _ => none | .error c => some (c, va)
    | some w =>
      match peerOf s a.ctx w.home.toNat with
      | none => some (.memerr, va)
      | some (pkg, hctx) =>
        if pkg ≠ s.fab.pkgid.toNat then none
        else
          match translate s (a.home hctx) va k with
          | .ok _ => none
          | .error .page => some (.wait, va)
          | .error _ => some (.memerr, va)

/-- Requests of BALLOC and BTENT: count and the address for the indices; bytes 4 to 7 are ignored (R165, R372). -/
def poolRequests (bs : List Byte) : List (Nat × DWord) :=
  (List.range (bs.length / 16)).map fun i => (field bs (16 * i) 4, BitVec.ofNat 64 (field bs (16 * i + 8) 8))

/-- The bytes of indices. -/
def indexBytes (is : List Nat) : List Byte := is.flatMap (bytesLE 4)

/-- Grant requests in order (R165): the number granted, whether the limit of 512 stopped it, and the state. -/
def grantRequests (s : State) (a : Agent) (tag : Option Nat) :
    List (Nat × DWord) → Nat → Except (AccCause × DWord) (Nat × Bool × State)
  | [], _ => .ok (0, false, s)
  | (k, va) :: rest, total =>
    if k ≠ 0 && 512 < total + k then .ok (0, true, s)
    else if (s.poolAt a.ctx).freeCount < k then .ok (0, false, s)
    else
      let r := (s.poolAt a.ctx).grant k tag
      match writeRange (s.setPool a.ctx r.2) a va (indexBytes r.1) with
      | .error e => .error e
      | .ok t =>
        match grantRequests t a tag rest (total + k) with
        | .error e => .error e
        | .ok (n, stop, u) => .ok (n + 1, stop, u)

/-- An access of a pool instruction fails: as an access of the gang does, with the pool unchanged (R348). -/
def State.poolFail (s : State) (e : AccCause × DWord) (k : Kind) : Result :=
  .next (s.failAccess e.1 (lanesOf s.issue.lanes) e.2 k none)

/-- BALLOC and BTENT (R165, R348) (log 28, DEDUCED). -/
def State.poolAlloc (s : State) (a b c : BitVec 7) (tag : Option Nat) : Result :=
  let va := s.pairAt a.toNat
  let n := (s.scalar b).toNat
  let ag := s.agent
  let tagOk := match tag with | some t => t != 0 && decide (t < 4096) | none => true
  if !(s.poolAt ag.ctx).enabled || 256 < n || va.toNat % 8 ≠ 0 || !tagOk then .next s.engArg
  else
    match rangeFault s ag va (16 * n) .read with
    | some e => s.poolFail e .read
    | none =>
      match readRange s ag va (16 * n) with
      | .error e => s.poolFail e .read
      | .ok bs =>
        let rs := poolRequests bs
        if rs.any fun r => decide (65535 < r.1) || r.2.toNat % 4 != 0 then .next s.engArg
        else
          match rs.findSome? fun r => if r.1 = 0 then none else rangeFault s ag r.2 (4 * r.1) .write with
          | some e => s.poolFail e .write
          | none =>
            let noted := rs.foldl (fun s r => if r.1 = 0 then s else s.noteRange ag r.2 (4 * r.1)) (s.noteRange ag va (16 * n))
            match grantRequests noted ag tag rs 0 with
            | .error e => s.poolFail e .write
            | .ok (granted, stop, t) =>
              .next (t.spoil.syncResult c.toNat (BitVec.ofNat 32 (granted + if stop then 65536 else 0)))

def execBalloc (a b c : BitVec 7) (s : State) : Result := s.poolAlloc a b c none
def execBtent (a b c : BitVec 7) (s : State) : Result := s.poolAlloc a b c (some (s.issue.src.sreg c.toNat).toNat)

def execBfree (a b c : BitVec 7) (s : State) : Result :=
  let va := s.pairAt a.toNat
  let n := (s.scalar b).toNat
  let ag := s.agent
  if !(s.poolAt ag.ctx).enabled || 512 < n || va.toNat % 4 ≠ 0 then .next s.engArg
  else
    match rangeFault s ag va (4 * n) .read with
    | some e => s.poolFail e .read
    | none =>
      match readRange s ag va (4 * n) with
      | .error e => s.poolFail e .read
      | .ok bs =>
        let r := (s.poolAt ag.ctx).freeList ((List.range n).map fun i => field bs (4 * i) 4)
        .next (((s.noteRange ag va (4 * n)).setPool ag.ctx r.2.2).spoil.syncResult c.toNat (BitVec.ofNat 32 (r.1 + if r.2.1 then 2 ^ 31 else 0)))

/-- BDROP and BKEEP (R166). -/
def State.poolTag (s : State) (a c : BitVec 7) (f : Pool → Nat → Nat × Pool) : Result :=
  let tag := (s.scalar a).toNat
  let ctx := s.ctxNum s.issue.gang
  if !(s.poolAt ctx).enabled || tag = 0 || 4095 < tag then .next s.engArg
  else
    let r := f (s.poolAt ctx) tag
    .next ((s.setPool ctx r.2).spoil.syncResult c.toNat (BitVec.ofNat 32 r.1))

def execBdrop (a c : BitVec 7) (s : State) : Result := s.poolTag a c Pool.drop
def execBkeep (a c : BitVec 7) (s : State) : Result := s.poolTag a c Pool.keep

/-! ### Reclaiming a coherent line (R172, R271) -/

/-- The physical address of a line of a window homed on this package, or nothing, also where its translation is missing or
denied (log 41, DESIGN CHOICE). -/
def homedLine (s : State) (ctx : Nat) (line : DWord) : Option Nat :=
  match windowAt s ctx line with
  | none => none
  | some w =>
    match peerOf s ctx w.home.toNat with
    | none => none
    | some (pkg, hctx) =>
      if pkg ≠ s.fab.pkgid.toNat then none
      else match translate s (dieAgent hctx 0 0) line .read with | .ok pa => some pa | .error _ => none

/-- Take the poison off the words of some bytes. -/
def State.clearPoison (s : State) (pa n : Nat) : State :=
  { s with poison := s.poison.filter fun m =>
      match m with
      | .memory w => !(decide (pa / 8 ≤ w) && decide (w < (pa + n) / 8))
      | _ => true }

/-- COHREC on a line with the data at an address, as a Lamplighter reads it: its status, the first of 2, 1 and 3 that applies (R172), or nothing while
the data waits for a pin or a line. -/
def State.reclaim (s : State) (a : Agent) (line data : DWord) : Option (Nat × State) :=
  match homedLine s a.ctx line with
  | none => some (2, s)
  | some pa =>
    match (s.dirAt (pa / 64)).state with
    | .lost _ =>
      match readRange s a data 64 with
      | .error (.wait, _) => none
      | .error _ => some (3, s)
      | .ok bs => some (0, (((s.noteRange a data 64).putBytes pa bs).clearPoison pa 64).setDir (pa / 64) { s.dirAt (pa / 64) with state := .home })
    | _ => some (1, s)

def execCohrec (a b c : BitVec 7) (s : State) : Result :=
  let line := s.pairAt a.toNat
  let data := s.pairAt b.toNat
  if !s.cur.lamp then .next (s.illegalHere 9)
  else if line.toNat % 64 ≠ 0 || data.toNat % 64 ≠ 0 then .next s.engArg
  else
    match s.reclaim s.agent line data with
    | some r => .next (r.2.spoil.syncResult c.toNat (BitVec.ofNat 32 r.1))
    | none => .next (s.failAccess .wait (lanesOf s.issue.lanes) data .read none)

end Sys2Proof.Machine
end

