-- ==== Sys2Proof/Machine/Matrix.lean ====
section
/-!
DEFINITION. Sys2Proof/Machine/Matrix.lean: class 12: accumulator banks, tiles, the issue of matrix operations and jobs, drains (R143 to
R154, R331 to R336, R341).
-/

namespace Sys2Proof.Machine

/-! ### Shared operations -/

/-- The dome of the chain's gang and one of its banks. -/
def State.dome (s : State) : Nat := domeOf s.cur.core
def State.myBank (s : State) (b : Nat) : Bank := s.bankAt s.dome b

/-- Whether the chain's gang owns a bank of its dome (R144). -/
def State.owns (s : State) (b : Nat) : Bool := (s.myBank b).owner == some s.issue.gang

/-- Whether two element types may meet in one operation (R146). -/
def typesMatch (a b : Nat) : Bool :=
  decide (a ≤ 8) && decide (b ≤ 8) &&
    (a == b || [(1, 2), (2, 1), (3, 4), (4, 3), (5, 6), (6, 5)].contains (a, b))

/-- Bytes of a job's staging area (R150). -/
def Card.stageBytes (c : Card) : Nat := 2 * (c.m + 32) * c.kc * 192

/-- Whether an operation is a job with twin issue. -/
def Op.twin (o : Op) : Bool := match o.kind with | .mjob _ t => t | _ => false

/-- The staging ranges that jobs claim on a core, from their start until they retire: the job and its range (R341). -/
def State.claims (s : State) (core : Nat) : List (Op × Nat × Nat) :=
  s.ops.filterMap fun o =>
    match o.card with
    | some c =>
      if o.started && (o.core == core || (o.twin && partnerCore o.core == core)) then
        some (o, c.stage, c.stage + c.stageBytes)
      else none
    | none => none

/-! ### Ownership (R144) -/

/-- The status of MACQ.try goes to its register. -/
def State.macqStatus (s : State) (b : BitVec 7) (t : BitVec 1) (v : Word) : State :=
  if t = 1 then s.spoil.writeS b.toNat v else s.spoil

def execMacq (n : BitVec 3) (b : BitVec 7) (t : BitVec 1) (s : State) : Result :=
  let k := n.toNat
  match (s.myBank k).owner with
  | none => .next ((s.setBank s.dome k { s.myBank k with owner := some s.issue.gang, left := none }).macqStatus b t 0)
  | some o =>
    if o = s.issue.gang then
      if s.cur.granted.contains k then
        .next ((s.updCur fun g => { g with granted := g.granted.filter fun x => x != k }).macqStatus b t 0)
      else .next (s.macqStatus b t 2)
    else if t = 1 then .next (s.macqStatus b t 1)
    else .next (s.holdFor s.issue.lanes (.macq k))

/-- MREL (R144): at once, or when the operations issued before it have retired. -/
def execMrel (n : BitVec 3) (s : State) : Result :=
  let k := n.toNat
  let t := s.spoil
  if !s.owns k then .next t
  else if s.bankBusy s.issue.gang k then
    .next (t.updBank s.dome k fun x => { x with release := some (x.release.getD s.nextOp) })
  else .next (t.freeBank s.dome k)

/-! ### Tiles and matrix operations (R145, R146, R149) -/

def execMtile (a b : BitVec 7) (f : BitVec 4) (s : State) : Result :=
  let t : Tile := { valid := true, off := s.scalar a, desc := s.scalar b }
  let lo := t.off.toNat
  let hi := lo + t.bytes
  let ok := decide (t.desc.toNat < 2 ^ 29) && t.rows != 0 && decide (t.rows ≤ 256) && decide (t.type ≤ 8) && t.ksteps != 0 &&
    lo % 64 == 0 && decide (hi ≤ (s.coreAt s.cur.core).opbSize)
  let clash := (s.claims s.cur.core).any fun c => c.1.launch != s.cur.launch && decide (c.2.1 < hi) && decide (lo < c.2.2)
  if !ok || clash then .next s.engArg
  else .next (s.spoil.updCur fun g => g.setTile f.toNat t)

/-- The issue of MMA and MMAZ (R146); above 4,096 K-steps with a wick (R136, R366). -/
def State.multiply (s : State) (zero : Bool) (n : BitVec 3) (a b : BitVec 7) : Result :=
  let h := (s.scalar a).toNat
  let row0 := (s.scalar b).toNat
  let ta := s.cur.tile (h % 16)
  let tb := s.cur.tile (h / 16 % 16)
  let ok := decide (h < 256) && decide (row0 < 256) && s.owns n.toNat && ta.valid && tb.valid && tb.rows == 32 &&
    ta.ksteps == tb.ksteps && decide (row0 + ta.rows ≤ 256) && typesMatch ta.type tb.type
  s.engine 1 [limit ok] fun s =>
    let k : OpKind := .mma zero n.toNat ta tb row0
    if 4096 < ta.ksteps then s.issueOp 1 k .waiting (some [(dieOf s.cur.core, 30)]) else s.issueOp 1 k .notNeeded none

def execMma (n : BitVec 3) (a b : BitVec 7) (s : State) : Result := s.multiply false n a b
def execMmaz (n : BitVec 3) (a b : BitVec 7) (s : State) : Result := s.multiply true n a b

/-- MJOB (R150 to R153): its card is read after issue, its wick is asked at issue (R366) (log 28, DEDUCED). -/
def execMjob (a : BitVec 7) (w : BitVec 1) (s : State) : Result :=
  let card := s.pairAt a.toNat
  s.engine 1 [limit (card.toNat % 128 == 0)] fun s =>
    s.issueOp 1 (.mjob card (w == 1)) .waiting (some [(dieOf s.cur.core, if w = 1 then 60 else 30)])

/-- First row and count of MDRAIN and MFILL, with their limits and those of the registers (R148). -/
def rowsCheck (w t : Nat) : Bool :=
  let n := w / 256 % 128
  decide (w < 2 ^ 15) && n != 0 && decide (n ≤ 64) && decide (w % 256 + n ≤ 256) && decide (t + n ≤ 64)

def execMfill (n : BitVec 3) (a b : BitVec 7) (d : BitVec 1) (s : State) : Result :=
  let w := (s.scalar a).toNat
  let count := w / 256 % 128
  let rows := (List.range count).map fun i => (List.range 32).map fun l => (s.srcLane l).vreg (b.toNat + i)
  s.engine 1 [limit (rowsCheck w b.toNat && s.owns n.toNat)] fun s =>
    s.issueOp 1 (.mfill n.toNat (w % 256) (d == 1) rows) .notNeeded none

def execMzero (n : BitVec 3) (a : BitVec 7) (s : State) : Result :=
  let w := (s.scalar a).toNat
  let count := w / 256 % 512
  let ok := decide (w < 2 ^ 17) && count != 0 && decide (count ≤ 256) && decide (w % 256 + count ≤ 256) && s.owns n.toNat
  s.engine 1 [limit ok] fun s => s.issueOp 1 (.mzero n.toNat (w % 256) count) .notNeeded none

/-! ### Drains and progress (R148, R154, R333) -/

/-- The place of the chain's drain in the bank's order, once it has one: fixed when it first asked (R333). -/
def State.drainPlace (s : State) (b : Nat) : Option (Nat × Nat) :=
  match (s.srcLane ((lanesOf s.issue.lanes).headD 0)).wait with
  | .drainOrder k p turn => if k = b then some (p, turn) else none
  | _ => none

/-- The turns of the gang's drains that other lane groups wait with at a bank (R333). -/
def State.drainTurns (s : State) (b : Nat) : List Nat :=
  (lanesOf (s.cur.liveMask &&& ~~~s.issue.lanes)).filterMap fun l =>
    match (s.cur.lane l).wait with | .drainOrder k _ turn => if k = b then some turn else none | _ => none

/-- Whether the chain's gang may drain a bank of its dome: a gang of its launch owns it, or left it to the launch (R144) (log 44, DEDUCED). -/
def State.drainable (s : State) (b : Nat) : Bool :=
  match (s.myBank b).owner with
  | some o => (s.gangAt o).launch == s.cur.launch
  | none => (s.myBank b).left == some s.cur.launch

/-- MDRAIN (R148): drains rows of a bank that a gang of the launch owns; of a bank without such an owner it is ENGARG (R144) (log 44, DEDUCED). -/
def execMdrain (n : BitVec 3) (a b : BitVec 7) (c : BitVec 1) (s : State) : Result :=
  let w := (s.scalar a).toNat
  let k := n.toNat
  let row0 := w % 256
  let count := w / 256 % 128
  let place := s.drainPlace k
  let inOrder := s.owns k || place.isSome
  let turns := s.drainTurns k
  let mine := place.getD (s.nextOp, 1 + turns.foldl max 0)
  if !rowsCheck w b.toNat || !(s.drainable k || place.isSome) then .next s.engArg
  else if (inOrder && (s.opsBefore s.issue.gang k mine.1 || turns.any fun t => decide (t < mine.2))) ||
      (s.owns k && s.oldDrains s.issue.gang s.dome k) then
    .next (s.holdFor s.issue.lanes (.drainOrder k mine.1 mine.2))
  else if (s.myBank k).poisoned.any fun r => decide (row0 ≤ r) && decide (r < row0 + count) then
    .next (s.failAccess .poison (lanesOf s.issue.lanes) 0 .read none)
  else
    let op := s.newSync (.mdrain k row0 count b.toNat (c == 1)) inOrder
    .next (s.spoil.updCur fun g =>
      { g.updLanes s.issue.lanes (fun _ x => x.waitAt s.issue.pc .engine) with syncs := g.syncs ++ [op] })

/-- MPROG (R154) (log 29, DEDUCED). -/
def execMprog (a b : BitVec 7) (s : State) : Result :=
  let jobs := (s.opsOf s.issue.gang 1).filter fun o => match o.kind with | .mjob _ _ => true | _ => false
  let r : DWord × DWord := match jobs[(s.scalar b).toNat]? with
    | none => (BitVec.allOnes 64, BitVec.allOnes 64)
    | some o => if o.wick == .waiting || o.wick == .notAsked then (0, 0) else (BitVec.ofNat 64 o.pc, BitVec.ofNat 64 o.ps)
  .next ((s.spoil.writePair a.toNat r.1).writePair (a.toNat + 2) r.2)

end Sys2Proof.Machine
end

