-- ==== Sys2Proof/Machine/Special.lean ====
section
/-!
DEFINITION. Sys2Proof/Machine/Special.lean: class 7: the special functions and their fixed procedures (R106 to R108, R235 to R237).
Results and flags commit when the word's window closes (R26, R229).
-/

namespace Sys2Proof.Machine

/-- Positive infinity and the canonical NaN in FP32. -/
def inf32 : Word := 0x7F800000
def nan32 : Word := 0x7FC00000

/-- Flags that a rounded result calls for: inexact, and underflow for an inexact subnormal or zero (R107). Inexact is judged against the
function itself, not against the procedure's last rounding (log 49, DESIGN CHOICE). -/
def withInexact (r : Word) (flags : BitVec 5) (inexact : Bool) : Flagged :=
  let f := if inexact then flags ||| flagInexact else flags
  (r, if f &&& flagInexact != 0 && (r >>> 23) &&& 0xFF == 0 then f ||| flagUnderflow else f)

/-- A value's nearest integer, ties to even. -/
def Num.nearestInt (x : Num) : Int :=
  match x with
  | .fin n m e => let q : Int := (quantize 1 n m e 0).1; if n then -q else q
  | _ => 0

/-- The FP32 encoding of ± m × 2^e, rounded to nearest even. -/
def enc32 (x : Num) : Word := BitVec.ofNat 32 (fp32.encode 1 x).1

/-- A value minus k × 2^e, exactly. -/
def Num.minus (x : Num) (k : Int) (e : Int) : Num := sumFinite 1 [x, .fin (decide (0 < k)) k.natAbs e]

/-- 2^y or e^x once special values are screened (R108). -/
def expProcedure (natural cubic : Bool) (x : Word) : Flagged :=
  let y := if natural then mul32 x 0x3FB8AA3B else x
  let v := fp32.value y.toNat
  if !v.lt (.fin false 128 0) then (inf32, flagOverflow ||| flagInexact)
  else if v.lt (.fin true 150 0) then (0, flagUnderflow ||| flagInexact)
  else
    let n := v.nearestInt
    let f := v.minus n 0
    let fw := enc32 f
    let p :=
      if cubic then fma32 fw (fma32 fw (fma32 fw 0x3D635847 0x3E75FDF0) 0x3F317218) 0x3F800000
      else
        let i := (f.shift 6).nearestInt
        let g := enc32 (f.minus i (-6))
        let c := fma32 g (fma32 g 0x3E75FDF0 0x3F317218) 0x3F800000
        mul32 (tableT.getD (i + 32).toNat 0) c
    let r := fp32.encode 1 ((fp32.value p.toNat).shift n)
    withInexact (BitVec.ofNat 32 r.1) r.2 (natural || !f.isZero)

/-- log₂ of a positive finite value other than 1 (R235). -/
def logProcedure (x : Word) : Flagged :=
  match fp32.value x.toNat with
  | .fin _ mag exp =>
    let m0 := enc32 (.fin false mag (-(mag.log2 : Int)))
    let e0 : Int := exp + mag.log2
    let high := 0x3FB504F3 < m0.toNat
    let m := if high then m0 - 0x800000 else m0
    let e := if high then e0 + 1 else e0
    let i := ((fp32.value m.toNat).shift 6).nearestInt.toNat
    let u := fma32 m (recip64 i) 0xBF800000
    let p := fma32 u (fma32 u 0x3EF6384F 0xBF38AA3B) 0x3FB8AA3B
    let t := fma32 u p (tableLT.getD (i - 45) 0)
    let r := fp32.sum 1 [.fin (decide (e < 0)) e.natAbs 0, fp32.value t.toNat]
    withInexact (BitVec.ofNat 32 r.1) r.2 (mag != 2 ^ mag.log2)
  | _ => (nan32, 0)

/-- 1/x, correctly rounded (R107). -/
def recipProcedure (x : Word) : Flagged :=
  match fp32.value x.toNat with
  | .fin n m e =>
    let r := ratio32 n 1 m (-e)
    (BitVec.ofNat 32 r.1, r.2)
  | _ => (nan32, 0)

/-- √x and 1/√x of a positive value, correctly rounded (R107): the exponent is made even, the root carries a sticky bit. -/
def rootProcedure (reciprocal : Bool) (x : Word) : Flagged :=
  match fp32.value x.toNat with
  | .fin _ m e =>
    let m := if e % 2 = 0 then m else 2 * m
    let e := if e % 2 = 0 then e else e - 1
    let n := if reciprocal then 2 ^ 140 / m else m * 2 ^ 60
    let exact := if reciprocal then 2 ^ 140 % m = 0 else True
    let q := isqrt n
    let sticky := if q * q = n && exact then 0 else 1
    let r := fp32.round 1 false false (2 * q + sticky) (if reciprocal then -(e / 2) - 71 else e / 2 - 31)
    (BitVec.ofNat 32 r.1, r.2)
  | _ => (nan32, 0)

/-- x − k × P with k the integer nearest x ÷ P: k and the remainder in FP32 (R236). -/
def reduceHalfPi (x : Word) : Int × Word :=
  match fp32.value x.toNat with
  | .fin n m e =>
    let up := (e + 191).toNat
    let down := (-(e + 191)).toNat
    let k := nearest (m * 2 ^ up) (halfPi * 2 ^ down)
    let d := sumFinite 1 [.fin false m e, .fin true (k * halfPi) (-191)]
    let r := enc32 (if n then d.negate else d)
    (if n then -(k : Int) else k, r)
  | _ => (0, 0)

/-- The polynomials S and C of R236. -/
def sinPoly (r : Word) : Word :=
  let r2 := mul32 r r
  let s := fma32 r2 (fma32 r2 (fma32 r2 0x3638EF1D 0xB9500D01) 0x3C088889) 0xBE2AAAAB
  fma32 r (mul32 r2 s) r
def cosPoly (r : Word) : Word :=
  let r2 := mul32 r r
  let c := fma32 r2 (fma32 r2 (fma32 r2 0xB493F27E 0x37D00D01) 0xBAB60B61) 0x3D2AAAAB
  fma32 r2 (fma32 r2 c 0xBF000000) 0x3F800000

/-- sin x and cos x (R236). -/
def trigProcedure (cosine : Bool) (x : Word) : Flagged :=
  let kr := reduceHalfPi x
  let neg := fun (w : Word) => w ^^^ 0x80000000
  let q := kr.1 % 4
  let r :=
    if cosine then
      if q = 0 then cosPoly kr.2 else if q = 1 then neg (sinPoly kr.2) else if q = 2 then neg (cosPoly kr.2) else sinPoly kr.2
    else
      if q = 0 then sinPoly kr.2 else if q = 1 then cosPoly kr.2 else if q = 2 then neg (sinPoly kr.2) else neg (cosPoly kr.2)
  withInexact r 0 true

/-- tanh x (R237). -/
def tanhProcedure (x : Word) : Flagged :=
  let a := x &&& 0x7FFFFFFF
  let r :=
    if 0x41100000 ≤ a.toNat then 0x3F800000
    else if a.toNat < 0x3E000000 then
      let a2 := mul32 a a
      let t := fma32 a2 (fma32 a2 0xBD5D0DD1 0x3E088889) 0xBEAAAAAB
      fma32 a (mul32 a2 t) a
    else
      let e := (expProcedure false false (mul32 a 0xC038AA3B)).1
      mul32 (sub32 0x3F800000 e) (recipProcedure (add32 0x3F800000 e)).1
  withInexact (r ||| (x &&& 0x80000000)) 0 true

/-- The function of an op on an FP32 input: special values (R106), then the procedure (log 22, DEDUCED). -/
def special (op : Nat) (cubic : Bool) (x : Word) : Flagged :=
  match fp32.value x.toNat with
  | .nan q => (nan32, (Num.nan q).snan)
  | .inf n =>
    match op with
    | 0 | 8 => (if n then 0 else inf32, 0)
    | 2 => (if n then 0x80000000 else 0, 0)
    | 7 => (if n then 0xBF800000 else 0x3F800000, 0)
    | 5 | 6 => (nan32, flagInvalid)
    | 3 => if n then (nan32, flagInvalid) else (0, 0)
    | _ => if n then (nan32, flagInvalid) else (inf32, 0)
  | .fin n m _ =>
    if m = 0 then
      match op with
      | 0 | 6 | 8 => (0x3F800000, 0)
      | 1 => (0xFF800000, flagDivZero)
      | 2 | 3 => (if n then 0xFF800000 else inf32, flagDivZero)
      | _ => (x, 0)
    else
      match op with
      | 0 => expProcedure false false x
      | 8 => expProcedure true cubic x
      | 1 => if n then (nan32, flagInvalid) else if x = 0x3F800000 then (0, 0) else logProcedure x
      | 2 => recipProcedure x
      | 3 => if n then (nan32, flagInvalid) else rootProcedure true x
      | 4 => if n then (nan32, flagInvalid) else rootProcedure false x
      | 5 => trigProcedure false x
      | 6 => trigProcedure true x
      | _ => tanhProcedure x

/-- A packed element: exact to FP32, the function, rounded to the element (R106). Its flags are those of the FP32 function with those of
the rounding (log 49, DESIGN CHOICE). -/
def specialHalf (t : Format) (op : Nat) (cubic : Bool) (bits : Nat) : Nat × BitVec 5 :=
  let a := convert t fp32 1 false bits
  let b := special op cubic (BitVec.ofNat 32 a.1)
  let c := convert fp32 t 1 false b.1.toNat
  (c.1, a.2 ||| b.2 ||| c.2)

/-- A register through a function: FP32, packed BF16 or packed FP16 (R106). -/
def specialWord (m : BitVec 3) (op : Nat) (cubic : Bool) (x : Word) : Flagged :=
  if m = 0 then special op cubic x
  else
    let t := if m = 1 then bf16 else fp16
    joinHalves (specialHalf t op cubic (halves x).1) (specialHalf t op cubic (halves x).2)

/-- A class 7 word: its results and flags enter a window of each issuing lane (R26, R106, R229). -/
def State.specialOp (s : State) (op : Nat) (d : BitVec 6) (a : BitVec 7) (m : BitVec 3) (look : BitVec 4) : Result :=
  let x := fun l =>
    let v := s.vectorBy (if m = 0 then inlineConst else inlineFp16 (m == 2)) l a
    specialWord m op (op == 8 && decide (l % 8 < s.issue.src.expmix.toNat)) v
  let t := (lanesOf s.issue.lanes).foldl (fun t l =>
    if s.guardOn l then
      let r := x l
      t.openWindow l look.toNat [(d.toNat, r.1)] [] r.2
    else t.openIdle l look.toNat [d.toNat] []) s
  .next (t.updCur fun g => { g with windows := g.windows + 1 })

def execFexp2 (d : BitVec 6) (a : BitVec 7) (m : BitVec 3) (L : BitVec 4) (s : State) : Result := s.specialOp 0 d a m L
def execFlog2 (d : BitVec 6) (a : BitVec 7) (m : BitVec 3) (L : BitVec 4) (s : State) : Result := s.specialOp 1 d a m L
def execFrcp (d : BitVec 6) (a : BitVec 7) (m : BitVec 3) (L : BitVec 4) (s : State) : Result := s.specialOp 2 d a m L
def execFrsqrt (d : BitVec 6) (a : BitVec 7) (m : BitVec 3) (L : BitVec 4) (s : State) : Result := s.specialOp 3 d a m L
def execFsqrt (d : BitVec 6) (a : BitVec 7) (m : BitVec 3) (L : BitVec 4) (s : State) : Result := s.specialOp 4 d a m L
def execFsin (d : BitVec 6) (a : BitVec 7) (m : BitVec 3) (L : BitVec 4) (s : State) : Result := s.specialOp 5 d a m L
def execFcos (d : BitVec 6) (a : BitVec 7) (m : BitVec 3) (L : BitVec 4) (s : State) : Result := s.specialOp 6 d a m L
def execFtanh (d : BitVec 6) (a : BitVec 7) (m : BitVec 3) (L : BitVec 4) (s : State) : Result := s.specialOp 7 d a m L
def execFexp (d : BitVec 6) (a : BitVec 7) (m : BitVec 3) (L : BitVec 4) (s : State) : Result := s.specialOp 8 d a m L

end Sys2Proof.Machine
end

