-- ==== Sys2Proof/Machine/Work.lean ====
section
/-!
DEFINITION. Sys2Proof/Machine/Work.lean: the units of asynchronous operations once issued: reading and writing their endpoints, copies
and gathers (R156 to R160), matrix operations and jobs (R146 to R153, R337 to R341), Lantern triples (R161 to R163, R342 to
R345), failures (R139, R263) and retirement (R128, R144). The operations of the fabric stand in the files that follow.
-/

namespace Sys2Proof.Machine

/-! ### Operations -/

def State.opAt (s : State) (id : Nat) : Option Op := s.ops.find? fun o => o.id == id

/-- The causes of R139. -/
def failProt : Nat := 1
def failMemErr : Nat := 2
def failCardErr : Nat := 3
def failBankLost : Nat := 4
def failTwinUnav : Nat := 5
def failListErr : Nat := 6
def failFabric : Nat := 7
def failRemote : Nat := 8
def failScrRef : Nat := 9

/-- How an attempt at a unit ends. -/
inductive UnitEnd where
  | commit (s : State)
  /-- a missing translation (R138) -/
  | page (va : DWord) (k : Kind)
  | fail (cause : Nat) (addr : DWord) (s : State)
  /-- it cannot go on now -/
  | wait (s : State)

/-- An uncorrectable error touches the launch of an operation (R260, R266). -/
def State.opTouched (s : State) (o : Op) (addr : DWord) : State :=
  s.touched o.launch (s.gangAt o.gang).num 0xFFFFFFFF o.pc addr

/-- An access of a unit does not happen (R131, R138, R139, R266, R323). -/
def State.unitFail (s : State) (o : Op) (c : AccCause) (va : DWord) (k : Kind) : UnitEnd :=
  let a := s.opAgent o
  match c with
  | .page => .page va k
  | .prot => .fail failProt va s
  | .memerr => .fail failMemErr va (s.eatError a va)
  | .poison => .fail failMemErr va (s.opTouched o va)
  | .wait => .wait (s.askLine a va k.writes none)

/-- Bind an attempt. -/
def orEnd {α : Type} (x : Except UnitEnd α) (k : α → UnitEnd) : UnitEnd :=
  match x with
  | .error e => e
  | .ok a => k a

/-- An operation stops where it stands: nothing of it waits any more. -/
def State.opStop (s : State) (o : Op) (st : OpStatus) : State :=
  let s := s.unplan (2 ^ 61 + o.id)
  let leave := fun w : WickRequest => w.op != o.id
  let s := { s with chandler := { s.chandler with queue := s.chandler.queue.filter leave } }
  s.updOp o.id fun o => { o with status := st, fault := none, wick := if o.wick == .granted then .granted else .notAsked }

/-- A failed operation (R138, R139, R263): its cause and unit enter the launch's cause chain and LERR; a cancelled one is not failed and
raises nothing. -/
def State.opFail (s : State) (o : Op) (cause unit : Nat) (addr : DWord) : State :=
  if o.cancelling then s.opStop o .cancelled
  else
  let gone := !(s.gangAt o.gang).alive
  let entry : Cause :=
    { code := causeEngFail, source := o.cls + 1, trigger := false, issuerGone := gone, detail := cause, gang := (s.gangAt o.gang).num,
      pc := 0xFFFFFFFF, unit := unit, addr := addr, eph := s.now }
  let s := s.updLaunch o.launch fun l =>
    { l.record entry with faulted := true, lerr := l.lerr ||| (if gone then 0x18 else 0x08) }
  s.opStop o (.failed cause unit)

/-- A unit stops at a missing translation, which the companion is asked to serve (R138, R193). -/
def State.opPage (s : State) (o : Op) (va : DWord) (k : Kind) : State :=
  let id := s.pkg.nextFault
  let s := s.newFault (s.launchAt o.launch).ctx va k.code (o.cls + 1) (some o.id) none 0 0
  s.updOp o.id fun o => { o with fault := some id, triples := [], loads := [] }

/-! ### Endpoints of a unit (R110, R156, R266) -/

/-- The window that a scratch reference of an operation's operands reaches: the check at issue has passed (R142). -/
def State.opWindow (s : State) (o : Op) (ref : DWord) : Except UnitEnd Nat :=
  let hi := refHigh ref
  let key := if hi = 0xFFFFFFFF then o.gang else gangKey o.launch (hi.toNat % 2 ^ 24)
  match (s.gangAt key).place with
  | .unplaced | .saved => .error (.wait s)
  | _ => .ok key

/-- The window that a scratch reference read from memory reaches, checked in full for some bytes (R110, R111, R139, R142). -/
def State.opRef (s : State) (o : Op) (ref : DWord) (bytes align : Nat) : Except UnitEnd Nat :=
  let off := ref.toNat % 2 ^ 32
  match resolveScratch s o.gang (refHigh ref) with
  | .groupFault => .error (.fail failScrRef ref s)
  | target =>
    if off % align ≠ 0 then .error (.fail failScrRef ref s)
    else
      match target with
      | .window key => if (s.gangAt key).inWindow off bytes then .ok key else .error (.fail failScrRef ref s)
      | _ => .error (.wait s)

/-- An address of an endpoint, some bytes beyond its start. -/
def Endpoint.low (e : Endpoint) (off : Int) : Nat :=
  ((if e.space = 0 then e.addr.toNat else e.addr.toNat % 2 ^ 32 : Nat) + off).toNat

/-- Read bytes of an endpoint from an offset on; `key` is the window where it is one. -/
def State.readEnd (s : State) (o : Op) (e : Endpoint) (key : Nat) (off : Int) (n : Nat) : Except UnitEnd (List Byte) :=
  let at_ := e.low off
  match e.space with
  | 0 =>
    match readRange s (s.opAgent o) (BitVec.ofNat 64 at_) n with
    | .error (c, va) => .error (s.unitFail o c va .read)
    | .ok bs => .ok bs
  | 1 =>
    if n ≠ 0 && !(s.gangAt key).inWindow at_ n then .error (.fail failScrRef e.addr s)
    else if n ≠ 0 && scratchPoisoned s key at_ n then .error (s.unitFail o .poison e.addr .read)
    else .ok (s.scratchBytes key at_ n)
  | _ => .ok (s.opbufBytes o.core at_ n)

/-- Write bytes of an endpoint from an offset on (R160, R297). -/
def State.writeEnd (s : State) (o : Op) (e : Endpoint) (key : Nat) (off : Int) (bs : List Byte) : Except UnitEnd State :=
  let at_ := e.low off
  match e.space with
  | 0 =>
    match writeRange s (s.opAgent o) (BitVec.ofNat 64 at_) bs with
    | .error (c, va) => .error (s.unitFail o c va .write)
    | .ok t => .ok t
  | 1 =>
    if !bs.isEmpty && !(s.gangAt key).inWindow at_ bs.length then .error (.fail failScrRef e.addr s)
    else if !bs.isEmpty && scratchPoisoned s key at_ bs.length then .error (s.unitFail o .poison e.addr .write)
    else .ok (s.putScratch key at_ bs)
  | _ => .ok (s.putOpbuf o.core at_ bs)

/-- Cache the translations of bytes that were read at an endpoint (R284). -/
def State.noteEndpoint (s : State) (o : Op) (e : Endpoint) (off : Int) (n : Nat) : State :=
  if e.space = 0 then s.noteRange (s.opAgent o) (BitVec.ofNat 64 (e.low off)) n else s

/-- The window of an endpoint given as an operand; 0 where it is none. -/
def State.endKey (s : State) (o : Op) (e : Endpoint) : Except UnitEnd Nat :=
  if e.space = 1 then s.opWindow o e.addr else .ok 0

/-- The window of an endpoint read from memory. -/
def State.refKey (s : State) (o : Op) (e : Endpoint) (bytes : Nat) : Except UnitEnd Nat :=
  if e.space = 1 then s.opRef o e.addr bytes 1 else .ok 0

/-- The arrival of some bytes at the counter an operand names (R125, R138). -/
def State.opArrive (s : State) (key : Nat) (ref : DWord) (bytes : Nat) : State := s.arriveAt key (ref.toNat % 2 ^ 32) 0 bytes

/-! ### Units (R138) -/

/-- The 128-byte blocks that n bytes at an address touch. -/
def blocksOf (a n : Nat) : Nat := if n = 0 then 0 else (a + n - 1) / 128 + 1 - a / 128

/-- The bytes of block k of n bytes at an address: offset and length. -/
def blockAt (a n k : Nat) : Nat × Nat :=
  let lo := max a ((a / 128 + k) * 128)
  let hi := min (a + n) ((a / 128 + k + 1) * 128)
  (lo - a, hi - lo)

/-- The row and the block that unit u of some rows of a destination is; `rows` counts the rows from row i on. -/
def rowOfUnit (start : Int) (stride : Int) (row : Nat) : Nat → Nat → Nat → Nat × Nat
  | 0, i, _ => (i, 0)
  | rows + 1, i, u =>
    let b := blocksOf (start + i * stride).toNat row
    if u < b then (i, u) else rowOfUnit start stride row rows (i + 1) (u - b)

/-- The units of rows of a destination. -/
def rowUnits (start : Int) (stride : Int) (row rows : Nat) : Nat :=
  ((List.range rows).map fun (i : Nat) => blocksOf (start + i * stride).toNat row).sum

/-- Steps of a job: its tiles and the steps of one tile (R151). -/
def Card.chunk (c : Card) : Nat := c.counts.getD (c.levels - 1) 1
def Card.tiles (c : Card) : Nat := (c.counts.take (c.levels - 1)).foldl (· * ·) 1
def Card.steps (c : Card) : Nat := c.tiles * c.chunk

/-- Triples of a list entry (R162). -/
def Entry.triples (e : Entry) : Nat := max 1 ((e.len + 63) / 64)

/-- The units of an operation (R138); a job and a LATTN know them once their card or list is read. -/
def Op.units (o : Op) : Nat :=
  match o.kind with
  | .bcopy d _ n => blocksOf (d.low 0) n
  | .bcopy2d d _ row rows ds _ => rowUnits (d.low 0) ds row rows
  | .blist _ n _ => n
  | .bkick g => g.rows
  | .bkickAt _ => 1
  | .mma _ _ a _ _ => a.ksteps
  | .mfill _ _ _ rows => rows.length
  | .mzero _ _ n => n
  | .mjob _ _ => match o.card with | some c => c.steps | none => 1
  | .lattn _ _ _ => if o.prepared then (o.entries.map Entry.triples).sum else 1
  | .fput r _ n _ _ | .fbulk _ r n _ _ => blocksOf r.toNat n
  | .fget d _ n r _ => blocksOf (if r.scratch then d.toNat % 2 ^ 32 else d.toNat) n
  | .fred d _ n _ _ _ _ => blocksOf d.toNat n
  | .fatom _ _ _ _ _ _ | .fresv _ _ _ => 1

/-! ### Copies (R156 to R160) -/

/-- Whether an address is a byte of rows at a stride. -/
def inRows (start : Int) (stride : Int) (row rows : Nat) (x : Nat) : Bool :=
  (List.range rows).any fun i => decide (start + i * stride ≤ x) && decide ((x : Int) < start + i * stride + row)

/-- A copy of rows: its two endpoints with their windows. -/
structure Rows where
  dst : Endpoint
  src : Endpoint
  dkey : Nat
  skey : Nat
  row : Nat
  rows : Nat
  ds : Int
  ss : Int
  deriving DecidableEq, Repr

/-- Whether two endpoints lie in the same space. -/
def Rows.sameSpace (r : Rows) : Bool := r.dst.space == r.src.space && r.dkey == r.skey

/-- Whether a destination byte lies inside the overlap of source and destination. -/
def Rows.inside (r : Rows) (x : Nat) : Bool := r.sameSpace && inRows (r.src.low 0) r.ss r.row r.rows x

/-- Whether source and destination overlap. -/
def Rows.overlap (r : Rows) : Bool :=
  r.sameSpace && (List.range r.rows).any fun i =>
    let lo : Int := r.dst.low 0 + i * r.ds
    (List.range r.rows).any fun k =>
      let a : Int := r.src.low 0 + k * r.ss
      decide (a < lo + r.row) && decide (lo < a + r.row)

/-- Every source byte of a copy, row by row. -/
def State.readRows (s : State) (o : Op) (r : Rows) : Nat → Except UnitEnd (List Byte)
  | 0 => .ok []
  | n + 1 =>
    match s.readRows o r n with
    | .error e => .error e
    | .ok bs =>
      match s.readEnd o r.src r.skey (n * r.ss) r.row with
      | .error e => .error e
      | .ok more => .ok (bs ++ more)

/-- The bytes of a piece of an overlapping copy: inside the overlap each is some byte of the source range, which one is free (R160,
log 5, DESIGN CHOICE); every other byte is its source byte as it stood when the copy began. -/
def State.overlapBytes (s : State) (r : Rows) (olds news : List Byte) (start : Int) (first n : Nat) : List Byte × State :=
  let pool := olds ++ news
  let pick := fun (k : Nat) =>
    if r.inside (start + k).toNat then pool.getD (Config.overlapPick (s.free + k) % max 1 pool.length) 0 else olds.getD (first + k) 0
  ((List.range n).map pick, { s with free := s.free + n })

/-- One piece of a copy of rows: bytes off to off + n of row i. -/
def State.copyPiece (s : State) (o : Op) (r : Rows) (i off n : Nat) : UnitEnd :=
  orEnd (s.readEnd o r.src r.skey (i * r.ss + off) n) fun bs =>
    let s := s.noteEndpoint o r.src (i * r.ss + off) n
    if !r.overlap then orEnd (s.writeEnd o r.dst r.dkey (i * r.ds + off) bs) .commit
    else
      orEnd (s.readRows o r r.rows) fun now =>
        let s := (List.range r.rows).foldl (fun s k => s.noteEndpoint o r.src (k * r.ss) r.row) s
        let olds := if o.olds.isEmpty then now else o.olds
        let p := s.overlapBytes r olds now (r.dst.low (i * r.ds + off)) (i * r.row + off) n
        let t := p.2.updOp o.id fun o => { o with olds := olds }
        orEnd (t.writeEnd o r.dst r.dkey (i * r.ds + off) p.1) .commit

/-- A whole copy as one unit (R158, R159) (log 5, DESIGN CHOICE). -/
def State.copyWhole (s : State) (o : Op) (r : Rows) : UnitEnd := s.copyPiece { o with olds := [] } r 0 0 r.row

/-- A unit of BCOPY or BCOPY2D (log 29, DEDUCED). -/
def State.copyUnit (s : State) (o : Op) (d r : Endpoint) (row rows : Nat) (ds ss : Int) : UnitEnd :=
  orEnd (s.endKey o d) fun dkey =>
    orEnd (s.endKey o r) fun skey =>
      let u := rowOfUnit (d.low 0) ds row rows 0 o.pc
      let b := blockAt (d.low (u.1 * ds)) row u.2
      s.copyPiece o { dst := d, src := r, dkey := dkey, skey := skey, row := row, rows := rows, ds := ds, ss := ss } u.1 b.1 b.2

/-- An end point of a list entry stays in its space (R156, R158). -/
def Endpoint.fits (e : Endpoint) (n opb : Nat) : Bool :=
  match e.space with
  | 0 => decide (e.addr.toNat + n ≤ 2 ^ 64)
  | 1 => true
  | 2 => decide (e.addr.toNat + n ≤ opb)
  | _ => false

/-- A unit of BLIST: one entry (R158) (log 29, DEDUCED). -/
def State.listUnit (s : State) (o : Op) (list : DWord) (arr : Option DWord) : UnitEnd :=
  let va := list + BitVec.ofNat 64 (32 * o.pc)
  match readRange s (s.opAgent o) va 32 with
  | .error (c, at_) => s.unitFail o c at_ .read
  | .ok bs =>
    let s := s.noteRange (s.opAgent o) va 32
    let sp := field bs 20 1
    let n := field bs 16 4
    let d : Endpoint := { space := sp % 4, addr := BitVec.ofNat 64 (field bs 0 8) }
    let r : Endpoint := { space := sp / 4 % 4, addr := BitVec.ofNat 64 (field bs 8 8) }
    let opb := (s.coreAt o.core).opbSize
    if 2 ^ 28 ≤ n || !d.fits n opb || !r.fits n opb then .fail failListErr va s
    else
      orEnd (s.refKey o d n) fun dkey =>
        orEnd (s.refKey o r n) fun skey =>
          let counted := field bs 21 1 % 2 == 1
          let named := (if d.space = 1 then [d.addr] else []) ++ if r.space = 1 then [r.addr] else []
          let s := s.updOp o.id fun x => { x with named := x.named ++ named.filter fun a => !x.named.contains a }
          let rows : Rows := { dst := d, src := r, dkey := dkey, skey := skey, row := n, rows := 1, ds := 0, ss := 0 }
          match arr, counted with
          | some a, true =>
            orEnd (s.opWindow o a) fun akey =>
              match s.copyWhole o rows with
              | .commit t => .commit (t.opArrive akey a n)
              | e => e
          | _, _ => s.copyWhole o rows

/-- The engine reads the request of a BKICK whose window was not there as it issued (R139, R142); no row is a unit of it yet. -/
def State.requestRead (s : State) (o : Op) (ref : DWord) : UnitEnd :=
  orEnd (s.opWindow o ref) fun key =>
    let off := ref.toNat % 2 ^ 32
    let g := Gather.ofBytes (s.scratchBytes key off 64)
    if scratchPoisoned s key off 64 then s.unitFail o .poison ref .read
    else if !gatherCheck g (s.coreAt o.core).opbSize then .fail failListErr ref s
    else .commit (s.updOp o.id fun x => { x with kind := .bkick g })

/-- A unit of BKICK: one row (R159) (log 29, DEDUCED). -/
def State.gatherUnit (s : State) (o : Op) (g : Gather) : UnitEnd :=
  let span := rowSpan g.rowBytes g.rows g.dstStride
  let low : Int := g.dst.low 0
  let outside := g.dst.space = 1 && (low + span.1 < 0 || ((s.gangAt o.gang).scratchSize : Int) < low + span.2)
  if outside then .fail failScrRef g.dst.addr s
  else
    orEnd (s.refKey o g.dst 0) fun dkey =>
      orEnd (s.refKey o g.idx (4 * g.rows)) fun ikey =>
        orEnd (if g.arrive then s.opRef o g.arr 16 16 else .ok 0) fun akey =>
          orEnd (s.readEnd o g.idx ikey (4 * o.pc) 4) fun ib =>
            let s := s.noteEndpoint o g.idx (4 * o.pc) 4
            let src : Endpoint := { space := 0, addr := g.src + BitVec.ofNat 64 (natLE ib * g.srcStride) }
            let dst : Endpoint :=
              { g.dst with addr := if g.dst.space = 1 then refHigh g.dst.addr ++ BitVec.ofInt 32 (low + o.pc * g.dstStride)
                                   else BitVec.ofInt 64 (low + o.pc * g.dstStride) }
            let rows : Rows := { dst := dst, src := src, dkey := dkey, skey := ikey, row := g.rowBytes, rows := 1, ds := 0, ss := 0 }
            match s.copyWhole o { rows with skey := 0 } with
            | .commit t => .commit (if g.arrive then t.opArrive akey g.arr g.rowBytes else t)
            | e => e

/-! ### The matrix array (R145 to R149, R231) -/

/-- The elements of one K-step of a tile row, each the exact value of the element times its block's scale (R145, R224, R231). -/
def stepElements (t : Nat) (bs scales : List Byte) : List Num :=
  let byte := fun (k : Nat) => (bs.getD k 0).toNat
  let mx := fun (k : Nat) (x : Num) => scaled (scales.getD (k / 32) 0) x
  match t with
  | 0 => (List.range 96).map fun k => bf16.value (byte (2 * k) + 256 * byte (2 * k + 1))
  | 1 => (List.range 192).map fun k => e4m3.value (byte k)
  | 2 => (List.range 192).map fun k => e5m2.value (byte k)
  | 3 => (List.range 192).map fun k => mx k (e4m3.value (byte k))
  | 4 => (List.range 192).map fun k => mx k (e5m2.value (byte k))
  | 5 => (List.range 192).map fun k => mx k (e3m2.value (byte k % 64))
  | 6 => (List.range 192).map fun k => mx k (e2m3.value (byte k % 64))
  | _ => (List.range 384).map fun k => mx k (e2m1.value (if k % 2 = 0 then byte (k / 2) % 16 else byte (k / 2) / 16))

/-- Products of elements with the same position. -/
def products : List Num → List Num → List Num
  | x :: xs, y :: ys => mulExact x y :: products xs ys
  | _, _ => []

/-- The sum of INT8 products (R146). -/
def intProducts (xs ys : List Byte) : Int := ((xs.zip ys).map fun p => p.1.toInt * p.2.toInt).foldl (· + ·) 0

/-- The bytes and scale bytes of one K-step of one row. -/
abbrev StepRow := List Byte × List Byte

/-- The new accumulator of one cell (R146, R231). -/
def cell (ta tb : Nat) (acc : Word) (a b : StepRow) : Word :=
  if ta = 8 then acc + BitVec.ofInt 32 (intProducts a.1 b.1)
  else kStep acc (products (stepElements ta a.1 a.2) (stepElements tb b.1 b.2))

/-- Words of a row of a bank. -/
def Bank.row (b : Bank) (r : Nat) : List Word := Table.getList 0 (32 * r) 32 b.words
def Bank.setRow (b : Bank) (r : Nat) (ws : List Word) : Bank := { b with words := Table.setList 0 (32 * r) ws b.words }

/-- One pass: a K-step of every row of an operation (R331). -/
def Bank.pass (k : Bank) (zero : Bool) (ta tb row0 : Nat) (as bs : List StepRow) : Bank :=
  ((List.range as.length).zip as).foldl (fun k ia =>
    let acc := if zero then List.replicate 32 (0 : Word) else k.row (row0 + ia.1)
    k.setRow (row0 + ia.1) ((acc.zip bs).map fun cb => cell ta tb cb.1 ia.2 cb.2)) k

/-- One K-step of one row of a tile in an operand buffer (R145). -/
def State.tileStep (s : State) (core : Nat) (t : Tile) (r q : Nat) : StepRow :=
  let per := if t.type = 7 then 12 else if 3 ≤ t.type && t.type ≤ 6 then 6 else 0
  let i := r * t.ksteps + q
  (s.opbufBytes core (t.off.toNat + 192 * i) 192, s.opbufBytes core (t.off.toNat + 192 * t.rows * t.ksteps + per * i) per)

/-- Whether a dome's array is retired: a third lasting row (R265). -/
def State.arrayGone (s : State) (dome : Nat) : Bool := decide (3 ≤ (s.domeAt dome).rowsRetired.length)

/-- Whether an MTX operation has its turn on a bank: no earlier operation or drain of its gang stands before it there, and no drain of an
earlier owner, for a twin job also on the partner dome (R147, R148, R153, R333). -/
def State.bankTurn (s : State) (o : Op) (b : Nat) : Bool :=
  let g := s.gangAt o.gang
  let drains := (lanesOf g.liveMask).any fun l =>
    match (g.lane l).wait with | .drainOrder k before _ => k == b && decide (before ≤ o.id) | _ => false
  let running := g.syncs.any fun y => y.drains b
  !(s.ops.any fun p => p.gang == o.gang && p.cls == 1 && decide (p.id < o.id) && p.status == .active && p.banks.contains b) &&
    !drains && !running && !s.oldDrains o.gang (domeOf o.core) b && !(o.twin && s.oldDrains o.gang (domeOf (partnerCore o.core)) b)

/-- Slots of a job (R151). -/
def Card.slots (c : Card) (twin : Bool) : Nat := if twin then 2 * c.banks.length else c.banks.length

/-- The digits of a position, most significant first (R151). -/
def digits : List Nat → Nat → List Nat
  | [], _ => []
  | _ :: ns, p =>
    let rest := ns.foldl (· * ·) 1
    (p / rest) :: digits ns (p % rest)

/-- A sum of digits times strides. -/
def strideSum : List Nat → List Int → Int
  | i :: is, d :: ds => i * d + strideSum is ds
  | _, _ => 0

/-- What one step of a job is (R151, R153, R337): side, bank, slot, use, first and last of its tile, addresses, and which half of the
staging area it fills. -/
structure JobStep where
  side : Nat
  bank : Nat
  slot : Nat
  use : Nat
  first : Bool
  last : Bool
  a : DWord
  b : DWord
  half : Nat
  deriving DecidableEq, Repr

/-- Step p of a job. -/
def Card.step (c : Card) (twin : Bool) (p : Nat) : JobStep :=
  let chunk := c.chunk
  let t := p / chunk
  let slots := c.slots twin
  let slot := t % slots
  let is := digits (c.counts.take c.levels) p
  let before := if twin then (if slot % 2 = 0 then (t + 1) / 2 else t / 2) else t
  { side := if twin then slot % 2 else 0, bank := c.banks.getD (if twin then slot / 2 else slot) 0, slot := slot, use := t / slots,
    first := p % chunk == 0, last := p % chunk == chunk - 1,
    a := c.abase + BitVec.ofInt 64 (strideSum is c.astrides), b := c.bbase + BitVec.ofInt 64 (strideSum is c.bstrides),
    half := (before * chunk + p % chunk) % 2 }

/-- The core that stages a step (R153). -/
def Op.stepCore (o : Op) (j : JobStep) : Nat := if j.side = 0 then o.core else partnerCore o.core

/-- The step of a job as its array has run it so far. -/
def Op.runAt (o : Op) (p : Nat) : StepRun :=
  if p = o.pc then { step := p, pass := o.pass, group := o.group, brows := o.brows }
  else (o.ahead.find? fun r => r.step == p).getD { step := p, pass := 0, group := 0, brows := [] }

/-- Note how far the array has run a step. -/
def Op.setRun (o : Op) (r : StepRun) : Op :=
  if r.step = o.pc then { o with pass := r.pass, group := r.group, brows := r.brows }
  else { o with ahead := o.ahead.filter (fun x => x.step != r.step) ++ [r] }

/-- Whether a step has begun its bank writes. -/
def StepRun.begun (r : StepRun) : Bool := r.pass != 0 || r.group != 0

/-- The dome whose array runs a unit of an operation (R153). -/
def Op.arrayDome (o : Op) (p : Nat) : Nat :=
  match o.card with
  | some c => domeOf (o.stepCore (c.step o.twin p))
  | none => domeOf o.core

/-- Whether a dome's array stands between two row groups of a pass of another operation, which it ends first (R334) (log 29, DEDUCED). -/
def State.arrayHeld (s : State) (o : Op) (dome : Nat) : Bool :=
  s.ops.any fun p => p.id != o.id && ((p.group != 0 && p.arrayDome p.pc == dome) ||
    p.ahead.any fun r => r.group != 0 && p.arrayDome r.step == dome)

/-- Rows of a bank that a unit of an operation of its owner may work on; else why not (R139, R144, R265, R266). -/
def State.bankReady (s : State) (o : Op) (dome b row0 n : Nat) : Except UnitEnd Unit :=
  if (s.bankAt dome b).owner != some o.gang || s.arrayGone dome then .error (.fail failBankLost 0 s)
  else if (s.bankAt dome b).poisoned.any fun r => decide (row0 ≤ r) && decide (r < row0 + n) then .error (s.unitFail o .poison 0 .read)
  else .ok ()

/-- Rows 32 × group on of a pass of MMA or MMAZ, at most n of them, with the B rows as the pass's first cycle read them (R331, R332). -/
def State.mmaRows (s : State) (o : Op) (zero : Bool) (b : Nat) (ta tb : Tile) (row0 n : Nat) : UnitEnd :=
  let dome := domeOf o.core
  if !s.bankTurn o b || s.arrayHeld o dome then .wait s
  else
    orEnd (if o.group = 0 then s.bankReady o dome b row0 ta.rows else .ok ()) fun _ =>
      let first := 32 * o.group
      let left := min n (ta.rows - first)
      let as := (List.range left).map fun r => s.tileStep o.core ta (first + r) o.pc
      let bs := if o.group = 0 then (List.range 32).map fun c => s.tileStep o.core tb c o.pc else o.brows
      let t := s.updBank dome b fun k => k.pass (zero && o.pc == 0) ta.type tb.type (row0 + first) as bs
      .commit (t.updOp o.id fun x => if first + left < ta.rows then { x with group := o.group + 1, brows := bs } else { x with group := 0, brows := [] })

/-- A unit of MMA or MMAZ: the rest of one K-step (R146). -/
def State.mmaUnit (s : State) (o : Op) (zero : Bool) (b : Nat) (ta tb : Tile) (row0 : Nat) : UnitEnd := s.mmaRows o zero b ta tb row0 ta.rows

/-- A unit of MFILL or MZERO: one row (R149). -/
def State.rowUnit (s : State) (o : Op) (b row : Nat) (f : List Word → List Word) : UnitEnd :=
  let dome := domeOf o.core
  if !s.bankTurn o b || s.arrayHeld o dome then .wait s
  else orEnd (s.bankReady o dome b row 1) fun _ => .commit (s.updBank dome b fun k => k.setRow row (f (k.row row)))

/-! ### Matrix jobs (R150 to R153, R337 to R341) -/

/-- A job card from its bytes (R150); reserved bits and bytes are ignored (R372). -/
def Card.ofBytes (bs : List Byte) : Card :=
  let w := field bs 0 4
  let seq := field bs 4 4
  { levels := w % 8, atype := w / 8 % 16, btype := w / 128 % 16, zfirst := w / 2048 % 2 == 1,
    banks := (List.range (w / 4096 % 8 + 1)).map fun k => seq / 2 ^ (3 * k) % 8,
    m := field bs 8 2, kc := field bs 10 2, stage := field bs 12 4,
    abase := BitVec.ofNat 64 (field bs 16 8), bbase := BitVec.ofNat 64 (field bs 24 8), arow := field bs 32 4, brow := field bs 36 4,
    counts := (List.range 5).map fun l => field bs (40 + 2 * l) 2,
    astrides := (List.range 5).map fun l => fieldInt bs (52 + 8 * l) 4,
    bstrides := (List.range 5).map fun l => fieldInt bs (56 + 8 * l) 4,
    full := BitVec.ofNat 64 (field bs 92 8), empty := BitVec.ofNat 64 (field bs 100 8),
    asbase := BitVec.ofNat 64 (field bs 108 8), bsbase := BitVec.ofNat 64 (field bs 116 8) }

/-- Whether an element type is an MX type (R145). -/
def isMx (t : Nat) : Bool := decide (3 ≤ t) && decide (t ≤ 7)

/-- Whether a card keeps the table of R150. -/
def Card.ok (c : Card) : Bool :=
  let levels := (List.range 5).all fun l =>
    if l < c.levels then c.counts.getD l 0 != 0
    else c.counts.getD l 0 == 0 && c.astrides.getD l 0 == 0 && c.bstrides.getD l 0 == 0
  decide (1 ≤ c.levels) && decide (c.levels ≤ 5) && levels && typesMatch c.atype c.btype && decide (1 ≤ c.m) && decide (c.m ≤ 256) &&
    decide (1 ≤ c.kc) && decide (c.kc ≤ 64) && c.stage % 64 == 0 && (isMx c.atype || (c.asbase == 0 && c.bsbase == 0))

/-- A scratch reference some bytes further on, in the same window. -/
def refPlus (ref : DWord) (n : Nat) : DWord := refHigh ref ++ BitVec.ofNat 32 (ref.toNat % 2 ^ 32 + n)

/-- Banks given up by MREL, or by a gang that is gone, once no operation of the owner stands before that (R144). -/
def State.settleBanks (s : State) (key dome : Nat) : State :=
  (List.range 8).foldl (fun s b =>
    let k := s.bankAt dome b
    if k.owner != some key || k.heldFor.isSome then s
    else
      let g := s.gangAt key
      match k.release with
      | some place => if s.opsBefore key b place then s else s.freeBank dome b
      | none => if g.alive || s.bankBusy key b then s else s.leaveBank dome b) s

/-- FULL or EMPTY of a card as the engine reads it (R110, R111, R142): checked here once; an absent target is waited for where it is used.
Every window of a launch has the size of the issuer's (log 28, DEDUCED). -/
def State.cardRef (s : State) (o : Op) (ref : DWord) (bytes : Nat) : Except UnitEnd Unit :=
  let off := ref.toNat % 2 ^ 32
  let bad := Except.error (UnitEnd.fail failScrRef ref s)
  match resolveScratch s o.gang (refHigh ref) with
  | .groupFault => bad
  | _ => if off % 16 ≠ 0 || (s.gangAt o.gang).scratchSize < off + bytes then bad else .ok ()

/-- JOB_CARD_READ (R150, R152): the engine reads the card after issue and checks it; FULL and EMPTY are checked with it (R142). The job
leaves the order of the banks that the card does not name, which may let an MREL there take effect (R144, R147). -/
def State.readCard (s : State) (o : Op) (card : DWord) (twin : Bool) : UnitEnd :=
  match readRange s (s.opAgent o) card 128 with
  | .error (c, va) => s.unitFail o c va .read
  | .ok bs =>
    let s := s.noteRange (s.opAgent o) card 128
    let c := Card.ofBytes bs
    if !c.ok then .fail failCardErr card s
    else
      orEnd (s.cardRef o c.full (16 * c.slots twin)) fun _ =>
        orEnd (s.cardRef o c.empty (16 * c.slots twin)) fun _ =>
          .commit (((s.updOp o.id fun o => { o with card := some c }).settleBanks o.gang (domeOf o.core)).freeWindows o.launch)

/-- The outcome of an attempt for an operation; `go` says what a commit still does. -/
def State.endUnit (s : State) (o : Op) (e : UnitEnd) (go : State → State) : State :=
  match e with
  | .commit t => go t
  | .wait t => t
  | .page va k => s.opPage o va k
  | .fail cause addr t => t.opFail o cause o.pc addr

/-- Whether an operation's engine can work on it now: it is active, no fault of it waits, its gang is not off-core and its
context runs; those of a launch that ends go on to their points (R138, R140, R253, R256, R258). -/
def State.opOn (s : State) (o : Op) : Bool :=
  let l := s.launchAt o.launch
  o.status == .active && o.fault.isNone && (s.gangAt o.gang).place != .saved && l.phase != .done && !(s.ctxAt l.ctx).suspended

/-- Whether it may touch memory and banks: its wick is granted or not needed (R136, R367). -/
def State.opRuns (s : State) (o : Op) : Bool := s.opOn o && (o.wick == .notNeeded || o.wick == .granted)

def execJobCardRead (op : Nat) (s : State) : Result :=
  match s.opAt op with
  | none => .next s
  | some o =>
    match o.kind with
    | .mjob card twin =>
      .next (if !s.opOn o || o.cancelling || o.card.isSome then s else s.endUnit o (s.readCard o card twin) id)
    | _ => .next s

/-- The first reason of R152 and R341 for which a job fails as it starts. -/
def State.startFault (s : State) (o : Op) (c : Card) (twin : Bool) : Option Nat :=
  let dome := domeOf o.core
  let partner := domeOf (partnerCore o.core)
  let hi := c.stage + c.stageBytes
  let clash := fun (core : Nat) =>
    (s.claims core).any (fun x => x.1.id != o.id && decide (x.2.1 < hi) && decide (c.stage < x.2.2)) ||
      s.gangs.any fun kg =>
        kg.2.alive && kg.2.place != .unplaced && kg.2.place != .saved && kg.2.core == core && kg.2.launch != o.launch &&
          kg.2.tiles.any fun t => t.2.valid && decide (t.2.off.toNat < hi) && decide (c.stage < t.2.off.toNat + t.2.bytes)
  if s.arrayGone dome || c.banks.any fun b => (s.bankAt dome b).owner != some o.gang then some failBankLost
  else if c.banks.eraseDups.length != c.banks.length || (s.coreAt o.core).opbSize < hi then some failCardErr
  else if twin && s.arrayGone partner then some failTwinUnav
  else if clash o.core then some failCardErr
  else if twin && ((s.coreAt (partnerCore o.core)).opbSize < hi || clash (partnerCore o.core)) then some failTwinUnav
  else none

/-- MJOB_START (R152, R153, R341): after its wick a job checks and begins. -/
def execMjobStart (op : Nat) (s : State) : Result :=
  match s.opAt op with
  | none => .next s
  | some o =>
    match o.kind, o.card with
    | .mjob _ twin, some c =>
      .next (if !s.opRuns o || o.cancelling || o.started then s
             else
               match s.startFault o c twin with
               | some cause => s.opFail o cause o.pc 0
               | none => s.updOp o.id fun o => { o with started := true })
    | _, _ => .next s

/-- The next partner bank that a twin job needs (R340). -/
def Op.wanted (o : Op) : Option Nat :=
  match o.card with
  | some c => if o.twin then c.banks.find? fun b => !o.partners.contains b else none
  | none => none

/-- Which of two operations counts as issued later (R340): by cycle, then by dome, then by the order in which one dome issued them. -/
def laterIssued (a b : Op) : Bool :=
  decide (b.issuedAt < a.issuedAt) ||
    (a.issuedAt == b.issuedAt && (decide (domeOf b.core < domeOf a.core) || (domeOf a.core == domeOf b.core && decide (b.id < a.id))))

/-- The partner banks of a twin job go back, and it leaves the queues of others (R153, R340); as it retires its launch can still drain them
(log 44, DEDUCED). -/
def State.dropPartners (s : State) (o : Op) (retires : Bool) : State :=
  let dome := domeOf (partnerCore o.core)
  (List.range 8).foldl (fun s b =>
    let leave := fun k : Bank => { k with queue := k.queue.filter fun h => h != twinKey o.id }
    let s := s.updBank dome b leave
    if (s.bankAt dome b).heldFor != some o.id then s else if retires then s.leaveBank dome b else s.freeBank dome b) s

/-- The twin job that waits for a bank of the first one's issuer while the first waits for a bank of its own (R340). -/
def State.twinCycle (s : State) (o : Op) (owner : Nat) : Option Op :=
  s.ops.find? fun p =>
    p.id != o.id && p.gang == owner && p.twin && p.started && p.status == .active &&
      (match p.wanted with
       | some b => (s.bankAt (domeOf (partnerCore p.core)) b).owner == some o.gang
       | none => false)

/-- TWIN_PARTNER_BANK_ACQUIRE (R340): the next partner bank in sequence, through its owner queue. -/
def execTwinPartnerBankAcquire (op : Nat) (s : State) : Result :=
  match s.opAt op with
  | none => .next s
  | some o =>
    match o.wanted with
    | none => .next s
    | some b =>
      if !s.opRuns o || o.cancelling || !o.started then .next s
      else
        let dome := domeOf (partnerCore o.core)
        let join := fun k : Bank => if k.queue.contains (twinKey o.id) then k else { k with queue := k.queue ++ [twinKey o.id] }
        let t := (s.updBank dome b join).bankNext dome b
        match (t.bankAt dome b).heldFor, (t.bankAt dome b).owner with
        | some h, some owner =>
          if h = o.id then .next t
          else
            match t.twinCycle o owner with
            | none => .next t
            | some p =>
              let late := if laterIssued o p then o else p
              .next ((t.dropPartners late false).opFail late failTwinUnav late.pc 0)
        | none, some owner =>
          match t.twinCycle o owner with
          | none => .next t
          | some p =>
            let late := if laterIssued o p then o else p
            .next ((t.dropPartners late false).opFail late failTwinUnav late.pc 0)
        | _, none => .next t

/-- Read rows of a job's operand, each KC × 192 bytes, from row i on. -/
def State.jobRows (s : State) (o : Op) (base : DWord) (stride bytes : Nat) : Nat → Nat → Except UnitEnd (List (List Byte))
  | 0, _ => .ok []
  | n + 1, i =>
    match readRange s (s.opAgent o) (base + BitVec.ofNat 64 (i * stride)) bytes with
    | .error (c, va) => .error (s.unitFail o c va .read)
    | .ok bs =>
      match s.jobRows o base stride bytes n (i + 1) with
      | .error e => .error e
      | .ok rest => .ok (bs :: rest)

/-- The scale bytes of rows of a job's operand: those of the blocks that its bytes lie in (R150). -/
def State.jobScales (s : State) (o : Op) (t : Nat) (sbase : DWord) (start : Int) (stride bytes n : Nat) :
    Except UnitEnd (List (List Byte)) :=
  if !isMx t then .ok (List.replicate n [])
  else
    let per : Nat := if t = 7 then 16 else 32
    (List.range n).foldr (fun (i : Nat) acc =>
      match acc with
      | .error e => .error e
      | .ok rest =>
        let first : Int := (start + (i : Int) * stride) / (per : Int)
        match readRange s (s.opAgent o) (sbase + BitVec.ofInt 64 first) (bytes / per) with
        | .error (c, va) => .error (s.unitFail o c va .read)
        | .ok bs => .ok (bs :: rest)) (.ok [])

/-- Where half h of a job's staging area begins (R337). -/
def Card.halfAt (c : Card) (h : Nat) : Nat := c.stage + h * (c.m + 32) * (192 * c.kc)

/-- K-step q of a row of a step as a pass reads it: the bytes from row r of its staging half, the scales from the load pipes (R337). -/
def State.stagedStep (s : State) (core : Nat) (c : Card) (h r t q : Nat) (scales : List Byte) : StepRow :=
  let per := if t = 7 then 12 else if isMx t then 6 else 0
  (s.opbufBytes core (c.halfAt h + r * (192 * c.kc) + 192 * q) 192, (scales.drop (per * q)).take per)

/-- Cache the translations of the scale bytes of rows (R284). -/
def State.noteScales (s : State) (a : Agent) (t : Nat) (sbase : DWord) (start : Int) (stride bytes n : Nat) : State :=
  let per : Nat := if t = 7 then 16 else 32
  if isMx t then s.noteRows a n (bytes / per) fun i => sbase + BitVec.ofInt 64 ((start + (i : Int) * stride) / (per : Int)) else s

/-- The loads of step p complete: rows into STAGE, scale bytes into the pipes (R151, R337) (log 29, DEDUCED). -/
def State.loadStep (s : State) (o : Op) (c : Card) (twin : Bool) (p : Nat) : Except UnitEnd State :=
  let j := c.step twin p
  let bytes := 192 * c.kc
  match s.jobRows o j.a c.arow bytes c.m 0, s.jobRows o j.b c.brow bytes 32 0,
    s.jobScales o c.atype c.asbase (j.a - c.abase).toInt c.arow bytes c.m,
    s.jobScales o c.btype c.bsbase (j.b - c.bbase).toInt c.brow bytes 32 with
  | .ok as, .ok bs, .ok x, .ok y =>
    let a := s.opAgent o
    let s := (s.noteRows a c.m bytes fun i => j.a + BitVec.ofNat 64 (i * c.arow)).noteRows a 32 bytes fun i => j.b + BitVec.ofNat 64 (i * c.brow)
    let s := (s.noteScales a c.atype c.asbase (j.a - c.abase).toInt c.arow bytes c.m).noteScales a c.btype c.bsbase
      (j.b - c.bbase).toInt c.brow bytes 32
    .ok ((s.putOpbuf (o.stepCore j) (c.halfAt j.half) ((as ++ bs).flatten)).updOp o.id fun o =>
      { o with loads := o.loads ++ [{ step := p, ascales := x, bscales := y }] })
  | .error e, _, _, _ => .error e
  | _, .error e, _, _ => .error e
  | _, _, .error e, _ => .error e
  | _, _, _, .error e => .error e

/-- The load of a step. -/
def Op.loadOf (o : Op) (p : Nat) : Option JobLoad := o.loads.find? fun x => x.step == p

/-- Rows 32 × group on of pass q of a step, at most n of them (R331, R332, R337): the bank after them, and the B rows of the pass. -/
def State.jobRowsOf (s : State) (o : Op) (c : Card) (j : JobStep) (x : JobLoad) (q group n : Nat) (brows : List StepRow) :
    State × List StepRow :=
  let core := o.stepCore j
  let first := 32 * group
  let bs := if group = 0 then
      (List.range 32).map fun r => s.stagedStep core c j.half (c.m + r) c.btype q (x.bscales.getD r [])
    else brows
  let as := (List.range (min n (c.m - first))).map fun r =>
    s.stagedStep core c j.half (first + r) c.atype q (x.ascales.getD (first + r) [])
  (s.updBank (domeOf core) j.bank fun k => k.pass (c.zfirst && j.first && q == 0) c.atype c.btype first as bs, bs)

/-- Whole passes of a step. -/
def State.jobPasses (s : State) (o : Op) (c : Card) (j : JobStep) (x : JobLoad) : List Nat → State
  | [] => s
  | q :: qs => ((s.jobRowsOf o c j x q 0 c.m []).1).jobPasses o c j x qs

/-- A step of a job that may write its bank (R151, R337, R339): its turn, its partner banks, its EMPTY condition, its loads; `k` gets the
state with the loads, and the load. What is tested as a step begins is not tested again until it ends (R338). -/
def State.jobReady (s : State) (o : Op) (c : Card) (twin : Bool) (p : Nat) (k : State → JobLoad → UnitEnd) : UnitEnd :=
  let j := c.step twin p
  let dome := domeOf (o.stepCore j)
  if !o.started || o.wanted.isSome || s.arrayHeld o dome || c.banks.any fun b => !s.bankTurn o b then .wait s
  else if (o.runAt p).begun then match o.loadOf p with | some x => k s x | none => .wait s
  else if j.side = 1 && s.arrayGone dome then .fail failTwinUnav 0 s
  else
    orEnd (s.opWindow o (refPlus c.empty (16 * j.slot))) fun ekey =>
      let empty := s.barAt ekey ((c.empty.toNat + 16 * j.slot) % 2 ^ 32)
      if j.first && j.use ≠ 0 && empty.phase != (j.use % 2 == 1) then .wait s
      else
        orEnd (if (o.loadOf p).isSome then .ok s else s.loadStep o c twin p) fun t =>
          match (t.opAt o.id).bind fun x => x.loadOf p with
          | none => .wait s
          | some x => orEnd (s.bankReady o dome j.bank 0 c.m) fun _ => k t x

/-- The arrival of step P_c on FULL where it ends a tile, and what the job keeps as P_c passes it (R138, R151). -/
def State.jobPassed (s : State) (o : Op) (c : Card) (j : JobStep) : UnitEnd :=
  orEnd (s.opWindow o (refPlus c.full (16 * j.slot))) fun fkey =>
    let next := o.runAt (o.pc + 1)
    let t := s.updOp o.id fun x =>
      { x with loads := x.loads.filter (fun y => y.step != o.pc), pass := next.pass, group := next.group, brows := next.brows,
               ahead := x.ahead.filter fun r => r.step != o.pc + 1 }
    .commit (if j.last then t.arriveAt fkey ((c.full.toNat + 16 * j.slot) % 2 ^ 32) 1 0 else t)

/-- The rest of the step of a job at P_c: its passes and its arrival on FULL (R151, R337) (log 29, DEDUCED). -/
def State.jobUnit (s : State) (o : Op) (c : Card) (twin : Bool) : UnitEnd :=
  let j := c.step twin o.pc
  if c.kc ≤ o.pass then s.jobPassed o c j
  else
    orEnd (s.opWindow o (refPlus c.full (16 * j.slot))) fun _ =>
      s.jobReady o c twin o.pc fun t x =>
        let t := (t.jobRowsOf o c j x o.pass o.group c.m o.brows).1
        (t.jobPasses o c j x ((List.range c.kc).drop (o.pass + 1))).jobPassed o c j

/-- One cycle of the array on step p of a job: one row group of its present pass (R331, R334). -/
def State.jobCycle (s : State) (o : Op) (c : Card) (twin : Bool) (p : Nat) : UnitEnd :=
  s.jobReady o c twin p fun t x =>
    let run := o.runAt p
    let r := t.jobRowsOf o c (c.step twin p) x run.pass run.group 32 run.brows
    let next : StepRun := if c.m ≤ 32 * (run.group + 1) then { step := p, pass := run.pass + 1, group := 0, brows := [] }
      else { step := p, pass := run.pass, group := run.group + 1, brows := r.2 }
    .commit (r.1.updOp o.id fun o => o.setRun next)

/-- A cycle of the array on the unit at P_c of an operation, its last one apart, which the unit's commit makes (R331, R332, R334) (log 29,
DEDUCED). -/
def State.arrayCycle (s : State) (op : Nat) : State :=
  match s.opAt op with
  | none => s
  | some o =>
    if !s.opRuns o || (o.cancelling && !o.midUnit) || o.units ≤ o.pc then s
    else
      let seen := { o with ps := max o.ps (o.pc + 1) }
      let t := s.updOp op fun _ => seen
      match o.kind, o.card with
      | .mma zero b ta tb row0, _ =>
        if ta.rows ≤ 32 * (o.group + 1) then s else t.endUnit seen (t.mmaRows seen zero b ta tb row0 32) id
      | .mjob _ twin, some c =>
        if c.m ≤ 32 * (o.group + 1) && c.kc ≤ o.pass + 1 then s else t.endUnit seen (t.jobCycle seen c twin o.pc) id
      | _, _ => s

/-- The step beyond P_c that the other array of a twin job can work on: every step from P_c to it has begun, and those on its own side have
written their banks (R337). -/
def Op.aheadStep (o : Op) (c : Card) : Option Nat :=
  let side := fun (p : Nat) => (c.step o.twin p).side
  ((List.range 3).map fun k => o.pc + 1 + k).find? fun p =>
    decide (p < o.units) && side p != side o.pc && decide ((o.runAt p).pass < c.kc) &&
      ((List.range (p - o.pc)).map fun k => o.pc + k).all fun q =>
        (o.runAt q).begun && (side q != side p || decide (c.kc ≤ (o.runAt q).pass))

/-- A cycle of the other array on a step of a twin job beyond P_c (R337); one that cannot begin is tried again (log 29, DEDUCED). -/
def State.aheadCycle (s : State) (op : Nat) : State :=
  match s.opAt op with
  | none => s
  | some o =>
    match o.kind, o.card with
    | .mjob _ twin, some c =>
      match o.aheadStep c with
      | some p =>
        if !s.opRuns o || (o.cancelling && !(o.runAt p).begun) then s
        else
          let seen := { o with ps := max o.ps (p + 1) }
          match (s.updOp op fun _ => seen).jobCycle seen c twin p with
          | .commit t => t
          | _ => s
      | none => s
    | _, _ => s

/-- Steps that the pipes may load now, ascending (R337): not loaded, within the reach of P_s, into a half that no earlier step needs (log 29, DEDUCED). -/
def Op.loadable (o : Op) (c : Card) (twin : Bool) : List Nat :=
  ((List.range (if twin then 4 else 2)).map fun k => o.pc + k).filter fun p =>
    let j := c.step twin p
    decide (p < o.units) && !(o.loads.any fun x => x.step == p) &&
      !((List.range (p - o.pc)).any fun k => (c.step twin (o.pc + k)).side == j.side && (c.step twin (o.pc + k)).half == j.half)

/-- The first of some steps that can be loaded is loaded; those before it have begun their loads (R337). -/
def State.loadFirst (s : State) (o : Op) (c : Card) (twin : Bool) : List Nat → State
  | [] => s
  | p :: ps =>
    let t := s.updOp o.id fun o => { o with ps := max o.ps (p + 1) }
    match t.loadStep o c twin p with
    | .ok u => u
    | .error _ => t.loadFirst o c twin ps

/-- The load pipes of a running job load a step (R337). -/
def State.jobLoad (s : State) (op : Nat) : State :=
  match s.opAt op with
  | none => s
  | some o =>
    match o.kind, o.card with
    | .mjob _ twin, some c =>
      if !s.opRuns o || o.cancelling || !o.started || o.wanted.isSome then s else s.loadFirst o c twin (o.loadable c twin)
    | _, _ => s

/-! ### Lantern attention (R161 to R163, R342 to R345) -/

/-- Bytes of a block (R161). -/
def Entry.blockBytes (e : Entry) : Nat := if e.kvt = 0 then 32768 else 16384

/-- The block addresses of an entry with tokens. -/
def State.blockList (s : State) (o : Op) (arr : DWord) : Nat → Except UnitEnd (List DWord)
  | 0 => .ok []
  | n + 1 =>
    match s.blockList o arr n with
    | .error e => .error e
    | .ok bs =>
      match readGlobal s (s.opAgent o) (arr + BitVec.ofNat 64 (8 * n)) 8 .read with
      | .error c => .error (s.unitFail o c (arr + BitVec.ofNat 64 (8 * n)) .read)
      | .ok x => .ok (bs ++ [BitVec.ofNat 64 (natLE x)])

/-- An entry of a list, with its block addresses (R161, R342, R343). -/
def State.readEntry (s : State) (o : Op) (va : DWord) : Except UnitEnd Entry :=
  match readRange s (s.opAgent o) va 64 with
  | .error (c, at_) => .error (s.unitFail o c at_ .read)
  | .ok bs =>
    let len := field bs 16 4
    let e : Entry :=
      { query := BitVec.ofNat 64 (field bs 0 8), blocks := [], len := len, scale := BitVec.ofNat 32 (field bs 20 4),
        toff := field bs 24 4, kvt := field bs 28 1, array := BitVec.ofNat 64 (field bs 8 8) }
    if 1 < e.kvt || 1048576 < len || e.query.toNat % 16 ≠ 0 || e.toff % 16 ≠ 0 then .error (.fail failListErr va s)
    else if len = 0 then .ok e
    else if e.array.toNat % 8 ≠ 0 then .error (.fail failListErr va s)
    else
      match s.blockList o e.array ((len + 63) / 64) with
      | .error x => .error x
      | .ok blocks => .ok { e with blocks := blocks }

/-- The physical address of a block: it lies in the HBM4E of this package and is aligned, else LISTERR (R161, R343). A block in a coherent
window is translated at its home (R323). -/
def State.blockPa (s : State) (o : Op) (e : Entry) (va : DWord) : Except UnitEnd Nat :=
  let a := s.opAgent o
  let check := fun pa : Nat =>
    if va.toNat % e.blockBytes ≠ 0 || 0x8000000000 ≤ pa then Except.error (UnitEnd.fail failListErr va s) else .ok pa
  match windowAt s a.ctx va with
  | none =>
    match translate s a va .read with
    | .error c => .error (s.unitFail o c va .read)
    | .ok pa => if carved s a pa then .error (s.unitFail o .memerr va .read) else check pa
  | some w =>
    match peerOf s a.ctx w.home.toNat with
    | none => .error (s.unitFail o .memerr va .read)
    | some (pkg, hctx) =>
      if pkg ≠ s.fab.pkgid.toNat then .error (.fail failListErr va s)
      else
        match translate s (a.home hctx) va .read with
        | .error .page => .error (s.unitFail o .wait va .read)
        | .error _ => .error (s.unitFail o .memerr va .read)
        | .ok pa => if carved s a pa then .error (s.unitFail o .memerr va .read) else check pa

/-- The entries of a list, in order. -/
def State.readEntries (s : State) (o : Op) (list : DWord) : Nat → Except UnitEnd (List Entry)
  | 0 => .ok []
  | n + 1 =>
    match s.readEntries o list n with
    | .error e => .error e
    | .ok es =>
      match s.readEntry o (list + BitVec.ofNat 64 (64 * n)) with
      | .error e => .error e
      | .ok e => .ok (es ++ [e])

/-- The stacks that the blocks of some entries touch; a block that fails its check touches none, and fails at its unit. -/
def State.stacksOf (s : State) (o : Op) (es : List Entry) : Except UnitEnd (List Nat) :=
  (es.flatMap fun e => e.blocks.map fun b => (e, b)).foldr (fun eb acc =>
    match acc with
    | .error x => .error x
    | .ok ks =>
      match s.blockPa o eb.1 eb.2 with
      | .ok pa => .ok (stackOf pa :: ks)
      | .error (.page va k) => .error (.page va k)
      | .error (.wait t) => .error (.wait t)
      | .error _ => .ok ks) (.ok [])

/-- LATTN_WICK_REQUEST (R366): with its entries and block addresses read, a LATTN asks for its wick; without a stack it is granted at
once. -/
def execLattnWickRequest (op : Nat) (s : State) : Result :=
  match s.opAt op with
  | none => .next s
  | some o =>
    match o.kind with
    | .lattn list n _ =>
      if !s.opOn o || o.cancelling || o.wick != .notAsked then .next s
      else
        let ready : Except UnitEnd (List Entry × List Nat) :=
          match s.readEntries o list n with
          | .error e => .error e
          | .ok es => match s.stacksOf o es with | .error e => .error e | .ok ks => .ok (es, ks.eraseDups)
        match ready with
        | .error e => .next (s.endUnit o e id)
        | .ok (es, ks) =>
          let a := s.opAgent o
          let s := es.foldl (fun s e => e.blocks.foldl (fun s b => s.noteVa a b) (s.noteRange a e.array (8 * e.blocks.length)))
            (s.noteRange a list (64 * n))
          let t := s.updOp o.id fun o => { o with prepared := true, entries := es }
          .next (if ks.isEmpty then (t.updOp o.id fun o => { o with wick := .granted }).record (dieOf o.core) 5 0 0
                 else t.askWick o.id (ks.map fun k => (4 + k, 60)))
    | _ => .next s

/-- The entry and the triple within it that unit u of some entries is. -/
def tripleOf : List Entry → Nat → Option (Entry × Nat)
  | [], _ => none
  | e :: es, u => if u < e.triples then some (e, u) else tripleOf es (u - e.triples)

/-- The sum of 64 positions in the tree of R101, without flags. -/
def treeSum : Nat → List Word → Word
  | 0, xs => xs.headD 0
  | n + 1, xs => add32 (treeSum n (xs.take (2 ^ n))) (treeSum n (xs.drop (2 ^ n)))

/-- The bytes of a triple (R163). -/
def tripleBytes (m l : Word) (flags nv : Nat) (acc : List Word) : List Byte :=
  bytesLE 4 m.toNat ++ bytesLE 4 l.toNat ++ bytesLE 4 flags ++ bytesLE 4 nv ++ acc.flatMap fun w => bytesLE 4 w.toNat

/-- An element of a query, key or value (R161). -/
def kvNum (kvt : Nat) (bs : List Byte) (k : Nat) : Num :=
  if kvt = 0 then bf16.value (field bs (2 * k) 2) else e4m3.value (field bs k 1)

/-- −0.0, the value of positions beyond the tokens (R162). -/
def negZero : Word := 0x80000000

/-- The triple of nv tokens, from the query and the key and value rows of a block (R162). -/
def lanternTriple (scale : Word) (kvt nv : Nat) (query : List Byte) (keys values : List (List Byte)) : List Byte :=
  let q := (List.range 128).map (kvNum 0 query)
  let s := keys.map fun row =>
    let dot := (fp32.sum 1 (products q ((List.range 128).map (kvNum kvt row)))).1
    mul32 (BitVec.ofNat 32 dot) scale
  let m := (s.drop 1).foldl max32 (s.headD 0)
  let p := s.map fun x => (special 8 false (sub32 x m)).1
  let pad := List.replicate (64 - nv) negZero
  let acc := (List.range 128).map fun e =>
    treeSum 6 ((p.zip values).map (fun pv => mul32 pv.1 (BitVec.ofNat 32 (fp32.encode 1 (kvNum kvt pv.2 e)).1)) ++ pad)
  tripleBytes m (treeSum 6 (p ++ pad)) 0 nv acc

/-- A triple with ERR set (R163). -/
def errTriple (nv : Nat) : List Byte := tripleBytes 0 0 2 nv (List.replicate 128 0)

/-- Read rows of a block: row j stands at a number of elements from the block's start. -/
def State.blockRows (s : State) (e : Entry) (pa first : Nat) (n : Nat) : List (List Byte) :=
  let size := if e.kvt = 0 then 256 else 128
  (List.range n).map fun j => s.bytesAt (pa + (first + j) * size) size

/-- The Lantern that serves what was sent to Lantern n, 32 × stack + number: the next working one of its stack, wrapping (R345). -/
def State.lanternFor (s : State) (n : Nat) : Option Nat :=
  ((List.range 32).map fun k => n / 32 * 32 + (n + k) % 32).find? fun m => !s.pkg.lanterns.contains m

/-- The Lantern that serves a request now. -/
def State.servedBy (s : State) (r : LanternRequest) : Option Nat := r.lantern.bind s.lanternFor

/-- The Lantern of a block (R342): 8g + ((physical address ÷ block bytes) mod 8) of its stack, g the channel group of its region. -/
def State.lanternOf (s : State) (e : Entry) (pa : Nat) : Nat := 32 * stackOf pa + 8 * s.groupOf pa + pa / e.blockBytes % 8

/-- Entries of a Lantern's queue (R344). -/
def lanternDepth : Nat := 64

/-- The engine sends the request for one unit (R342, R344): it waits while the Lantern's queue is full. -/
def State.askLantern (s : State) (o : Op) (unit : Nat) : UnitEnd :=
  match tripleOf o.entries unit with
  | none => .wait s
  | some (e, i) =>
    let send := fun lantern query pa =>
      let r : LanternRequest := { op := o.id, unit := unit, lantern := lantern, query := query, pa := pa, since := s.ran }
      if lantern.isSome && (s.servedBy r).isSome &&
          decide (lanternDepth ≤ (s.lanternQueue.filter fun q => s.servedBy q == s.servedBy r).length) then .wait s
      else UnitEnd.commit { s with lanternQueue := s.lanternQueue ++ [r] }
    if e.len ≤ 64 * i then send none [] 0
    else
      match readRange s (s.opAgent o) e.query 256 with
      | .error (c, va) => s.unitFail o c va .read
      | .ok q =>
        match s.blockPa o e (e.blocks.getD i 0) with
        | .error x => x
        | .ok pa =>
          match send (some (s.lanternOf e pa)) q pa with
          | .commit t => .commit ((t.noteRange (s.opAgent o) e.query 256).noteVa (s.opAgent o) (e.blocks.getD i 0))
          | x => x

/-- Whether a unit's request is on its way or its triple is there. -/
def State.askedFor (s : State) (o : Op) (unit : Nat) : Bool :=
  (s.lanternQueue.any fun r => r.op == o.id && r.unit == unit) || o.triples.any fun t => t.unit == unit

/-- The engine sends requests for the units within the reach of P_s, in list order (R138, R342); a unit beyond P_c that cannot be read yet is
tried again. -/
def State.askUnits (s : State) (op : Nat) : List Nat → State
  | [] => s
  | u :: us =>
    match s.opAt op with
    | none => s
    | some o =>
      if !s.opRuns o || o.cancelling || o.units ≤ u then s
      else if s.askedFor o u then s.askUnits op us
      else
        let s := s.unplan (2 ^ 61 + op)
        let seen := fun o : Op => { o with ps := max o.ps (u + 1) }
        match s.askLantern o u with
        | .commit t => (t.updOp op seen).askUnits op us
        | .wait t => t.updOp op seen
        | x => if u = o.pc then (s.updOp op seen).endUnit (seen o) x id else s

/-- Whether an operation waits for a line of a coherent window. -/
def State.opWaits (s : State) (op : Nat) : Bool := s.fab.cohWaits.any fun c => c.planned.any fun p => p.1 == 2 ^ 61 + op

/-- Whether a request still stands: its operation works on the unit. -/
def State.asksStill (s : State) (r : LanternRequest) : Bool :=
  match s.opAt r.op with
  | some o => s.opRuns o && !o.cancelling && decide (o.pc ≤ r.unit) && !o.triples.any fun t => t.unit == r.unit
  | none => false

/-- The LAN engines' requests to the Lanterns (R342, R344). -/
def State.sendTriples (s : State) : State :=
  let s := { s with lanternQueue := s.lanternQueue.filter s.asksStill }
  let mine := s.ops.filter fun o => o.cls == 2 && o.prepared && s.opRuns o && !o.cancelling && !s.opWaits o.id
  mine.foldl (fun s o => s.askUnits o.id ((List.range 4).map fun k => o.pc + k)) s

/-- Whether a line of some bytes is held away from a Lantern by a pin (R295, R297). -/
def State.pinsOn (s : State) (a : Agent) (pa n : Nat) : Bool :=
  s.pins.any fun p => decide (pa / 128 ≤ p.line) && decide (p.line ≤ (pa + n - 1) / 128) && !pinAdmits s p a

/-- A line among some bytes of a coherent window that the home has to get back first (R323). -/
def State.lineAway (s : State) (req pa n : Nat) : Option Nat :=
  (s.fab.dir.find? fun kd => decide (pa / 64 ≤ kd.1) && decide (kd.1 ≤ (pa + n - 1) / 64) &&
    (match kd.2.state with | .home => !kd.2.admits req | .lost _ => false | _ => true)).map Prod.fst

/-- Whether an uncorrectable error poisons one of some words; that of a line which lost its owner is none (R266, R270). -/
def State.uncorrIn (s : State) (pa n : Nat) : Bool :=
  s.poison.any fun m =>
    match m with
    | .memory w => decide (pa / 8 ≤ w) && decide (w ≤ (pa + n - 1) / 8) && !lostLine s (w / 8)
    | _ => false

/-- What the Lantern of a block computes for triple i of an entry, whether an uncorrectable error set its ERR, and whether no working
Lantern was there (R162, R266, R343, R345); a read of a pinned line, or of a window line that another package has, is tried again (R295, R323) (log 29, DEDUCED). -/
def State.computeTriple (s : State) (o : Op) (e : Entry) (i : Nat) (r : LanternRequest) : Except UnitEnd (List Byte × Bool × Bool) :=
  let nv := min 64 (e.len - 64 * i)
  if nv = 0 then .ok (tripleBytes 0xFF800000 0 1 0 (List.replicate 128 0), false, false)
  else
    let size := if e.kvt = 0 then 256 else 128
    let a := dieAgent (s.opAgent o).ctx (stackOf r.pa / 2) (2 ^ 61 + o.id)
    let va := e.blocks.getD i 0
    let keys := r.pa
    let vals := r.pa + 64 * size
    let away := if (windowAt s a.ctx va).isSome then (s.lineAway a.req keys (nv * size)).or (s.lineAway a.req vals (nv * size)) else none
    if s.pinsOn a keys (nv * size) || s.pinsOn a vals (nv * size) then .error (.wait s)
    else
      match away with
      | some line => .error (.wait (s.askLine a (va + BitVec.ofNat 64 (64 * line - r.pa)) false none))
      | none =>
        if poisonedAt s keys (nv * size) || poisonedAt s vals (nv * size) then
          .ok (errTriple nv, s.uncorrIn keys (nv * size) || s.uncorrIn vals (nv * size), false)
        else if (s.servedBy r).isNone then .ok (errTriple nv, false, true)
        else .ok (lanternTriple e.scale e.kvt nv r.query (s.blockRows e r.pa 0 nv) (s.blockRows e r.pa 64 nv), false, false)

/-- A unit of LATTN: its triple goes into the window, then its bytes to the counter (R163, R344). Where a stack has no working Lantern,
the operation goes on, so that each triple of its blocks is written with ERR, and then fails at the first of them (R345) (log 29, DEDUCED). -/
def State.lattnUnit (s : State) (o : Op) (arr : DWord) : UnitEnd :=
  match tripleOf o.entries o.pc, o.triples.find? fun t => t.unit == o.pc with
  | some (e, i), some t =>
    orEnd (s.opWindow o arr) fun key =>
      let off := e.toff + 528 * i
      if !(s.gangAt key).inWindow off 528 then .fail failScrRef arr s
      else if scratchPoisoned s key off 528 then s.unitFail o .poison arr .write
      else
        let u := (s.putScratch key off t.bytes).opArrive key arr 528
        let u := u.updOp o.id fun o => { o with triples := o.triples.filter fun x => x.unit != o.pc }
        let u := u.record (dieOf o.core) 2 0 (s.ran - t.since)
        let first := if t.unserved then o.erred.or (some o.pc) else o.erred
        let u := u.updOp o.id fun o => { o with erred := first }
        if !t.unserved && field t.bytes 8 4 == 2 then
          let v := u.updOp o.id fun o => { o with pc := o.pc + 1, ps := max o.ps (o.pc + 1) }
          .fail failMemErr arr (if t.touched then v.opTouched o arr else v)
        else
          match first with
          | some unit => .commit (if o.units ≤ o.pc + 1 then u.opFail o failMemErr unit arr else u)
          | none => .commit u
  | _, _ => .wait s

/-! ### Cancelling, finishing, retiring (R128, R140, R144) -/

/-- A cancelled operation of a local engine has stopped; a unit is whole or not begun (R140) (log 30, DEDUCED). -/
def State.opCancelled (s : State) (o : Op) : State := s.updOp o.id fun o => { o with status := .cancelled }

/-- Whether an operation has nothing more to do. -/
def Op.isOver (o : Op) : Bool := o.status != .active || (o.cls < 3 && o.wick != .waiting && o.wick != .notAsked && decide (o.units ≤ o.pc) &&
  (match o.kind with | .mjob _ _ => o.started | _ => true))

/-- An operation leaves the machine (R128, R366): its wick's reservation ends, its gang learns of its failure, its banks go on (log 29, DEDUCED) (log 44, DEDUCED). -/
def State.retireOp (s : State) (o : Op) : State :=
  let dome := domeOf o.core
  let s := { s with ops := s.ops.filter fun p => p.id != o.id,
                    chandler := { s.chandler with granted := s.chandler.granted.filter (fun w => w.op != o.id),
                                                  queue := s.chandler.queue.filter fun w => w.op != o.id } }
  let s := s.unplan (2 ^ 61 + o.id)
  let s := match o.status with
    | .failed cause unit =>
      if (s.gangAt o.gang).alive then
        s.updGang o.gang fun g => { g with engfails := g.engfails ++ [(EngFail.mk o.cls cause unit)] }
      else s
    | _ => s
  let s := if o.twin then s.dropPartners o true else s
  let s := if o.cls = 1 then s.settleBanks o.gang dome else s
  (s.freeWindows o.launch).spawnDown o.launch

/-- ENGINE_OP_RETIRE (R128): the oldest outstanding operation of a gang in a class retires once it is over. -/
def execEngineOpRetire (gang cls : Nat) (s : State) : Result :=
  match s.opsOf gang cls with
  | [] => .next s
  | o :: _ => .next (if o.isOver && (s.gangAt gang).place != .saved then s.retireOp o else s)

end Sys2Proof.Machine
end

