-- ==== Sys2Proof/Machine/Flow.lean ====
section
/-!
DEFINITION. Sys2Proof/Machine/Flow.lean: the links of the package (R305, R306), its Yaltex ports with striping and keys (R309, R310,
R326, R327), packets and their bytes (R311, R312), and the flows that carry them once and in order (R307, R313, R315).
-/

namespace Sys2Proof.Machine

/-! ### Checks and bytes -/

/-- One bit of a CRC-64 with the ECMA-182 polynomial. -/
def crcBit (c : DWord) : DWord := if c.getLsbD 63 then (c <<< 1) ^^^ 0x42F0E1EBA9EA3693 else c <<< 1

/-- Eight bits of it. -/
def crcByte (c : DWord) (b : Byte) : DWord :=
  crcBit (crcBit (crcBit (crcBit (crcBit (crcBit (crcBit (crcBit (c ^^^ (b.setWidth 64 <<< 56)))))))))

/-- The check of a die-link flit (R305; log 9, DESIGN CHOICE). -/
def crc64 (bs : List Byte) : DWord := ~~~(bs.foldl crcByte (BitVec.allOnes 64))

/-- A flit of a die link: 64 payload bytes and 8 check bytes (log 9, DESIGN CHOICE). -/
def dieFlitBytes (payload : List Byte) : List Byte := payload ++ bytesLE 8 (crc64 payload).toNat

/-- Whether the check of a received die-link flit holds (R306). -/
def dieFlitOk (flit : List Byte) : Bool := flit.length == 72 && flit.drop 64 == bytesLE 8 (crc64 (flit.take 64)).toNat

/-- A bit as a number. -/
def bit (b : Bool) (n : Nat) : Nat := if b then 2 ^ n else 0

/-- The 32 bytes of a packet's header (R311). -/
def packetHeader (p : Packet) : List Byte :=
  bytesLE 1 (p.kind + bit p.resp 4 + bit p.drop 5 + bit p.rsvd 6 + bit (p.spare % 2 == 1) 7) ++ bytesLE 1 (p.tc + 8 * p.dom) ++ bytesLE 2 p.src ++
    bytesLE 2 p.dst ++ bytesLE 1 p.ctx ++ bytesLE 1 p.sctx ++ bytesLE 4 p.seq ++ bytesLE 4 p.xfer ++ bytesLE 8 p.addr.toNat ++
    bytesLE 2 p.data.length ++ bytesLE 1 p.op ++ bytesLE 1 (p.spare / 2) ++ bytesLE 4 p.aux.toNat

/-- Pieces of 64 bytes, the last one filled with zeros. -/
def flitPieces : Nat → List Byte → List (List Byte)
  | 0, _ => []
  | n + 1, bs =>
    let piece := bs.take 64
    (piece ++ List.replicate (64 - piece.length) 0) :: flitPieces n (bs.drop 64)

/-- The flits that a packet fills (R311). -/
def packetFlits (p : Packet) : List (List Byte) := flitPieces ((32 + p.data.length + 63) / 64) (packetHeader p ++ p.data)

/-- The operation code of an error response (log 9, DESIGN CHOICE). -/
def errorOp : Nat := 0xFF

/-- Whether a packet's kind gives its operation code a meaning (R169, R170, R312). -/
def opOk (p : Packet) : Bool :=
  match p.kind with
  | 0 | 1 | 2 => p.op == 0
  | 3 => decide (p.op % 16 ≤ 11) && (decide (p.op < 16) || (decide (p.op < 32) && [0, 8, 9].contains (p.op % 16)))
  | 4 => decide (p.op < 3)
  | 5 => decide (p.op ≤ 6)
  | 6 => decide (p.op ≤ 2)
  | 7 => decide (p.op ≤ 4) || (decide (8 ≤ p.op) && decide (p.op ≤ 12))
  | _ => false

/-- Whether a packet holds no reserved value (R311). -/
def packetOk (p : Packet) : Bool :=
  p.spare == 0 && (opOk p || (p.resp && p.op == errorOp)) &&
  decide (p.kind < 8) && decide (p.tc < 8) && decide (p.dom < 16) && decide (p.src < 4096) && decide (p.dst < 4096) &&
    decide (p.ctx < 64) && decide (p.sctx < 64) && decide (p.seq < 2 ^ 32) && decide (p.xfer < 2 ^ 32) &&
    decide (p.data.length ≤ 256)

/-- A packet with nothing in it. -/
def blankPacket : Packet :=
  { kind := 0, resp := false, drop := false, rsvd := false, tc := 0, dom := 0, src := 0, dst := 0, ctx := 0, sctx := 0, seq := 0,
    xfer := 0, addr := 0, op := 0, aux := 0, spare := 0, data := [] }

/-! ### Die links (R305, R306) -/

/-- The key of a direction of a die link. -/
def linkKey (sender receiver : Nat) : Nat := 4 * sender + receiver

def State.linkAt (s : State) (sender receiver : Nat) : DieLink := Table.get DieLink.reset (linkKey sender receiver) s.fab.links
def State.setLink (s : State) (sender receiver : Nat) (x : DieLink) : State :=
  { s with fab := { s.fab with links := Table.put (linkKey sender receiver) x s.fab.links } }

/-- The module that carries flit k (R305). -/
def DieLink.module (x : DieLink) (k : Nat) : Nat := x.modules.getD (k % max 1 x.modules.length) 0

/-- One flit over a die link. -/
def State.dieSend (s : State) (sender receiver : Nat) (payload : List Byte) : State :=
  let x := s.linkAt sender receiver
  (s.setLink sender receiver { x with txn := x.txn + 1, wire := x.wire ++ [x.txn], kept := x.kept ++ [(x.txn, payload)] }).emit
    (.dieFlit sender receiver x.txn (x.module x.txn) (dieFlitBytes payload))

/-- A triple goes to the core that holds the named window, over a die link when the stack lies on another die (R342). -/
def State.tripleHome (s : State) (o : Op) (pa : Nat) (bs : List Byte) : State :=
  let core := match o.kind with
    | .lattn _ _ arr => match s.opWindow o arr with | .ok key => (s.gangAt key).core | .error _ => o.core
    | _ => o.core
  let die := stackOf pa / 2
  if die = dieOf core then s else (flitPieces 9 bs).foldl (fun s f => s.dieSend die (dieOf core) f) s

/-- LANTERN_TRIPLE (R162, R344): a Lantern finishes the request at the head of its queue. -/
def execLanternTriple (op unit : Nat) (s : State) : Result :=
  match s.opAt op, s.lanternQueue.find? fun r => r.op == op && r.unit == unit with
  | some o, some r =>
    match tripleOf o.entries unit with
    | none => .next s
    | some (e, i) =>
      let first := (s.servedBy r).isNone || (s.lanternQueue.find? fun q => s.servedBy q == s.servedBy r) == some r
      if !s.asksStill r || !first then .next s
      else
        let s := s.unplan (2 ^ 61 + op)
        match s.computeTriple o e i r with
        | .ok x =>
          let t := { s with lanternQueue := s.lanternQueue.erase r }
          let t := t.updOp op fun o => { o with triples := o.triples ++ [{ unit := unit, since := r.since, bytes := x.1, touched := x.2.1, unserved := x.2.2 }] }
          .next (if r.lantern.isSome then t.tripleHome o r.pa x.1 else t)
        | .error (.wait t) => .next t
        | .error _ => .next s
  | _, _ => .next s

/-- DIE_LINK_REPLAY_REQUEST (R306): that flit and every later one again, in their order. -/
def execDieLinkReplayRequest (sender receiver number : Nat) (s : State) : Result :=
  let x := s.linkAt sender receiver
  let again := x.kept.filter fun f => decide (number ≤ f.1)
  .next (again.foldl (fun s f => s.emit (.dieFlit sender receiver f.1 (x.module f.1) (dieFlitBytes f.2)))
    (s.setLink sender receiver { x with wire := x.wire ++ again.map Prod.fst }))

/-! ### Ports (R309, R310, R326, R327) -/

def State.updPort (s : State) (p : Nat) (f : Port → Port) : State := s.setPort p (f (s.portAt p))

/-- The lanes of a mask, ascending. -/
def stripe (mask : BitVec 16) : List Nat := (List.range 16).filter fun l => mask.getLsbD l

/-- The lane that carries byte k of a stream (R309). -/
def laneOfByte (mask : BitVec 16) (k : Nat) : Nat := (stripe mask).getD (k % max 1 (stripe mask).length) 0

/-- The 96-bit IV of a flit: the salt, then the counter (R326). -/
def flitIv (salt count : Nat) : Nat := salt * 2 ^ 48 + count

/-- The counter value that carries only KEYSWITCH (R327). -/
def lastCount : Nat := 2 ^ 48 - 2

/-- The lanes of a port's next 72 bytes (R309). -/
def Port.nextLanes (x : Port) : List Nat := (List.range 72).map fun k => laneOfByte x.mask (x.stream + k)

/-- A flit leaves under the next counter value (R309, R326). -/
def State.flitNow (s : State) (port : Nat) (payload : List Byte) : State :=
  let x := s.portAt port
  (s.setPort port { x with txcnt := x.txcnt + 1, stream := x.stream + 72, kept := x.kept ++ [(x.txcnt, payload)] }).emit
    (.flit port x.txcnt (Config.gcmSeal x.txkey (flitIv x.txsalt x.txcnt) payload) x.nextLanes)

/-- The packet of a link control flit (R312). -/
def linkPacket (op arg : Nat) : Packet := { blankPacket with kind := 7, dst := 0xFFF, op := op, aux := BitVec.ofNat 32 arg }

/-- A link control flit, encrypted like a data flit (R326). -/
def State.linkNow (s : State) (port op arg : Nat) : State :=
  (packetFlits (linkPacket op arg)).foldl (fun s f => s.flitNow port f) (s.emit (.control port op arg))

/-- KEYSWITCH, then flit 0 under the staged key (R327). Flits of the old key, KEYSWITCH among them, stay for REPLAY (R326; log 46, DESIGN
CHOICE). -/
def State.switchKey (s : State) (port : Nat) : State :=
  let s := s.linkNow port 9 0
  s.updPort port fun x =>
    { x with txkey := x.stagedTx, txsalt := x.saltTx, txcnt := 0, goTx := false, kept := [], keptOld := x.kept, keyWait := none, keyreq := false }

/-- A write of the management core's wake code by the device (R195, R327). -/
def State.mgmtWake (s : State) (code : Word) : State :=
  ({ s with pkg := { s.pkg with mwake := code } } : State).emit (.mgmtVector code)

/-- The port enters key wait and asks for a key: a flit in clear text with a CRC-64 check (R327). -/
def State.keyWaits (s : State) (port : Nat) : State :=
  let s := s.updPort port fun x => { x with keyWait := some s.ran, keyreq := true }
  let s := (packetFlits (linkPacket 10 0)).foldl (fun s f =>
    let x := s.portAt port
    (s.setPort port { x with stream := x.stream + 72 }).emit (.clearFlit port (dieFlitBytes f) x.nextLanes)) (s.emit (.control port 10 0))
  s.mgmtWake (BitVec.ofNat 32 (port + 0x100))

/-- Whether a port keeps its flits back until a key is staged (R327). -/
def Port.waits (x : Port) : Bool := x.keyWait.isSome || decide (lastCount ≤ x.txcnt)

/-- A flit for a port: under the staged key once one is staged; kept back while the port waits for a key (R327). -/
def State.gateFlit (s : State) (port : Nat) (payload : List Byte) : State :=
  if !(s.portAt port).up then s
  else
    let s := if (s.portAt port).goTx then s.switchKey port else s
    if (s.portAt port).waits then s.updPort port fun x => { x with pending := x.pending ++ [.flit payload] } else s.flitNow port payload

/-- A port waits for a key as soon as its next counter value carries only KEYSWITCH (R327). -/
def State.checkKey (s : State) (port : Nat) : State :=
  let x := s.portAt port
  if x.up && x.keyWait.isNone && decide (lastCount ≤ x.txcnt) then s.keyWaits port else s

/-- A flit through the gate of its port. -/
def State.sendFlit (s : State) (port : Nat) (payload : List Byte) : State := (s.gateFlit port payload).checkKey port

/-- A link control flit through the same gate. -/
def State.sendLink (s : State) (port op arg : Nat) : State :=
  (packetFlits (linkPacket op arg)).foldl (fun s f => s.sendFlit port f) (s.emit (.control port op arg))

/-- A new lane mask, in its place among what waits for a key: the stream begins again under it (R309, R310). -/
def State.newMask (s : State) (port : Nat) (mask : BitVec 16) : State :=
  s.updPort port fun x =>
    if x.keyWait.isSome then { x with pending := x.pending ++ [.mask mask] } else { x with mask := mask, stream := 0 }

/-- Packets that a flow first sends now (R368). -/
def Kept.leave (now : Nat) (k : Kept) : Kept := { k with sentAt := some (k.sentAt.getD now) }

/-- What waited for a key goes out, in order; packets among it are sent now (R368). -/
def State.drainPending (s : State) (port : Nat) : State :=
  let waiting := (s.portAt port).pending
  let t := waiting.foldl (fun s i => match i with | .flit f => s.sendFlit port f | .mask m => s.newMask port m)
    (s.updPort port fun x => { x with pending := [] })
  let note := fun f : OutFlow => if f.port == some port then { f with kept := f.kept.map (Kept.leave s.ran) } else f
  { t with fab := { t.fab with outflows := t.fab.outflows.map note } }

/-! ### Flows (R307, R313, R315) -/

/-- What tells flows of this package apart (R313). -/
structure FlowKey where
  dst : Nat
  ctx : Nat
  sctx : Nat
  tc : Nat
  dom : Nat
  deriving DecidableEq, Repr

def OutFlow.key (f : OutFlow) : FlowKey := { dst := f.dst, ctx := f.ctx, sctx := f.sctx, tc := f.tc, dom := f.dom }

/-- A flow; one that has carried nothing yet begins at SEQ 0. -/
def State.outFlow (s : State) (k : FlowKey) : OutFlow :=
  match s.fab.outflows.find? fun f => f.key == k with
  | some f => f
  | none => { dst := k.dst, ctx := k.ctx, sctx := k.sctx, tc := k.tc, dom := k.dom, port := none, next := 0, kept := [], lost := none }

def State.setOutFlow (s : State) (f : OutFlow) : State :=
  let fs := s.fab.outflows
  let put := fun g : OutFlow => if g.key = f.key then f else g
  { s with fab := { s.fab with outflows := if fs.any (fun g => g.key == f.key) then fs.map put else fs ++ [f] } }

/-- The port of a flow: the one it keeps while that is up, else a new one by R307. -/
def State.flowPort (s : State) (f : OutFlow) : Option Nat :=
  match f.port with
  | some p => if (s.portAt p).up then some p else portFor s f.dst f.tc f.dom
  | none => portFor s f.dst f.tc f.dom

/-- A packet leaves by a port; over a die link first where the port lies on another die (R307). -/
def State.transmit (s : State) (die port : Nat) (p : Packet) : State :=
  let s := if portDie port = die then s else (packetFlits p).foldl (fun s f => s.dieSend die (portDie port) f) s
  (packetFlits p).foldl (fun s f => s.sendFlit port f) (s.emit (.packet port p))

/-- A packet with the fields that its flow gives it. -/
def State.stamp (s : State) (k : FlowKey) (seq : Nat) (p : Packet) : Packet :=
  { p with src := s.fab.pkgid.toNat % 4096, dst := k.dst, ctx := k.ctx, sctx := k.sctx, tc := k.tc, dom := k.dom, seq := seq }

/-- The time at which a packet that goes to a port now leaves it; nothing where it waits for a port or a key (R368). -/
def State.leaving (s : State) (port : Option Nat) : Option Nat :=
  match port with
  | some x => if (s.portAt x).waits && !(s.portAt x).goTx then none else some s.ran
  | none => none

/-- A packet that a flow carries in order: it takes the next SEQ and stays with the source until it is acknowledged (R313, R315). An error
response may hold the acknowledgement of the packet that it answers (R308). -/
def State.sendHolding (s : State) (die : Nat) (k : FlowKey) (op : Option Nat) (unit : Nat) (holds : Option Nat) (p : Packet) : State :=
  let f := s.outFlow k
  let port := s.flowPort f
  let q := s.stamp k f.next p
  let lost := if port.isSome then none else some (f.lost.getD s.ran)
  let s := s.setOutFlow { f with
    port := port, next := (f.next + 1) % 2 ^ 32, lost := lost,
    kept := f.kept ++ [{ die := die, packet := q, op := op, unit := unit, sentAt := s.leaving port, holds := holds }] }
  match port with
  | some x => s.transmit die x q
  | none => s

/-- Such a packet that holds no acknowledgement. -/
def State.send (s : State) (die : Nat) (k : FlowKey) (op : Option Nat) (unit : Nat) (p : Packet) : State := s.sendHolding die k op unit none p

/-- A packet outside the order of its flow: ACK, NAK, DROPNOTE and bulk data (R314, R315, R318). The flow keeps the port it takes; without
one the packet is lost, and the flow's time without a port runs. -/
def State.sendFree (s : State) (die : Nat) (k : FlowKey) (p : Packet) : State :=
  let f := s.outFlow k
  let port := s.flowPort f
  let s := s.setOutFlow { f with port := port, lost := if port.isSome then none else some (f.lost.getD s.ran) }
  match port with
  | some x => s.transmit die x (s.stamp k 0 p)
  | none => s

/-- Send kept packets of a flow again, in order, each from the die that issued it (R307); one that has not left before leaves now (R368). -/
def State.resend (s : State) (k : FlowKey) (port : Nat) (ks : List Kept) : State :=
  let f := s.outFlow k
  let note := fun x : Kept => if (s.leaving (some port)).isSome && ks.contains x then x.leave s.ran else x
  ks.foldl (fun s k => s.transmit k.die port k.packet) (if ks.isEmpty then s else s.setOutFlow { f with kept := f.kept.map note })

/-- A flow whose port is gone takes another and sends again from the first unacknowledged SEQ (R315). -/
def State.reroute (s : State) (k : FlowKey) : State :=
  let f := s.outFlow k
  match portFor s f.dst f.tc f.dom with
  | none => s.setOutFlow { f with port := none, lost := some (f.lost.getD s.ran) }
  | some x => (s.setOutFlow { f with port := some x, lost := none }).resend k x f.kept

/-- Flows that a test picks take new ports. -/
def State.rerouteAll (s : State) (pick : OutFlow → Bool) : State :=
  ((s.fab.outflows.filter pick).map OutFlow.key).foldl State.reroute s

/-! ### Operations and their flows -/

/-- An entry of a context's group table (R320, R322): members, own rank and root; nothing where it is invalid. -/
def groupEntry (s : State) (ctx group : Nat) : Option (Nat × Nat × Nat) :=
  let c := s.ctxAt ctx
  if c.rgcnt.toNat ≤ group then none
  else
    let bs := s.bytesAt (c.rgtab.toNat + 16 * group) 16
    let n := field bs 0 2
    let rank := field bs 2 2
    if field bs 6 1 % 2 = 0 || n = 0 || 4096 < n || n ≤ rank then none else some (n, rank, field bs 4 2 % 4096)

/-- The flow of a route word for a context; nothing where the peer is unreachable (R313, R320). -/
def routeFlow (s : State) (ctx : Nat) (r : Route) : Option FlowKey :=
  (peerOf s ctx r.peer).map fun p => { dst := p.1, ctx := p.2, sctx := ctx, tc := r.tc, dom := r.dom }

/-- A flow to a package for packets that no route word names (log 8, DESIGN CHOICE). -/
def innerFlow (dst ctx sctx : Nat) : FlowKey :=
  { dst := dst, ctx := ctx, sctx := sctx, tc := Config.innerClass % 8, dom := Config.innerDomain % 16 }

/-- The flow that a fabric operation's packets take. -/
def State.opFlow (s : State) (o : Op) : Option FlowKey :=
  let ctx := (s.launchAt o.launch).ctx
  match o.kind with
  | .fput _ _ _ r _ | .fget _ _ _ r _ | .fatom _ _ _ _ r _ | .fresv r _ _ | .fbulk _ _ _ r _ => routeFlow s ctx r
  | .fred _ _ _ g _ _ _ => (groupEntry s ctx g).map fun e => innerFlow e.2.2 ctx ctx
  | _ => none

/-- Bulk units that were on their way over a flow whose port is gone count as dropped (R318; log 9, DESIGN CHOICE). -/
def State.bulkLost (s : State) (k : FlowKey) : State :=
  let owe := fun o : Op =>
    match o.kind with
    | .fbulk _ _ _ _ _ =>
      if o.status == .active && s.opFlow o == some k then
        let flying := ((List.range o.sent).drop o.pc).filter fun u => !o.acked.contains u && !o.owed.contains u
        { o with owed := o.owed ++ flying }
      else o
    | _ => o
  { s with ops := s.ops.map owe }

/-- A port goes down (R309, R310, R315, R327): its flows take other ports. -/
def State.portDown (s : State) (port : Nat) (downkey : Bool) : State :=
  let s := s.updPort port fun x => { x with up := false, downkey := x.downkey || downkey, keyreq := false, keyWait := none, pending := [] }
  let gone := (s.fab.outflows.filter fun f => f.port == some port).map OutFlow.key
  gone.foldl (fun s k => (s.reroute k).bulkLost k) s

/-- The lane mask that a port works towards: the last one that waits, else the present one. -/
def Port.goal (x : Port) : BitVec 16 :=
  x.pending.foldl (fun m i => match i with | .mask k => k | .flit _ => m) x.mask

/-- A port's stripe changes: RESTRIPE under the old mask, then the stream begins again under the new one, KEYREQ flits included; without
a lane the port is down (R309, R310). -/
def State.restripe (s : State) (port : Nat) (mask : BitVec 16) : State :=
  if (s.portAt port).goal = mask then s
  else
    let t := (packetFlits (linkPacket 8 mask.toNat)).foldl (fun s f => s.gateFlit port f) (s.emit (.control port 8 mask.toNat))
    let u := (t.newMask port mask).checkKey port
    if mask = 0 then u.portDown port false else u

/-- A lane leaves the stripe that a port works towards, or rejoins it (R310). -/
def State.stripeLane (s : State) (port lane : Nat) (on : Bool) : State :=
  if (s.portAt port).up then s.restripe port (setBit (s.portAt port).goal lane on) else s

/-! ### Link events -/

/-- REPLAY (R326): that flit and the later ones again, under new counter values. A number that the present key has not reached names a flit
of the key before it (log 46, DESIGN CHOICE). -/
def execReplay (port flit : Nat) (s : State) : Result :=
  let x := s.portAt port
  let old := x.keptOld.filter fun f => decide (flit ≤ f.1)
  if x.txcnt ≤ flit && !old.isEmpty then
    let t := s.updPort port fun x => { x with keptOld := [], kept := [] }
    .next ((old ++ x.kept).foldl (fun s f => s.sendFlit port f.2) t)
  else
    let again := x.kept.filter fun f => decide (flit ≤ f.1)
    let t := s.updPort port fun x => { x with kept := x.kept.filter fun f => decide (f.1 < flit) }
    .next (again.foldl (fun s f => s.sendFlit port f.2) t)

/-- RESTRIPE (R310): the receiver's mask from the next flit on. -/
def execRestripe (port : Nat) (mask : BitVec 16) (s : State) : Result := .next (s.updPort port fun x => { x with rxmask := mask })

/-- KEYSWITCH (R327): the staged receive key from the next flit on; without one the port goes down. -/
def execKeyswitch (port : Nat) (s : State) : Result :=
  let x := s.portAt port
  if !x.up then .next s
  else if x.goRx then .next (s.setPort port { x with rxkey := x.stagedRx, rxsalt := x.saltRx, rxcnt := 0, goRx := false })
  else .next (s.portDown port false)

/-- KEYREQ (R327): the far port asks its own side for a key; this port only hears it (log 9, DESIGN CHOICE). -/
def execKeyreq (_port : Nat) (s : State) : Result := .next s

/-- CREDIT (R312): credit of a virtual channel comes back (log 9, DESIGN CHOICE). -/
def execCredit (port cls amount : Nat) (s : State) : Result :=
  .next (s.updPort port fun x => { x with credits := Table.put cls (Table.get 0 cls x.credits + amount) x.credits })

/-- KEY_WAIT_TIMEOUT (R327): after 1 ms in key wait the port goes down with DOWNKEY. -/
def execKeyWaitTimeout (port : Nat) (s : State) : Result :=
  match (s.portAt port).keyWait with
  | some since => .next (if since + 1000000 ≤ s.ran then s.portDown port true else s)
  | none => .next s

/-- YKEYGO (R327, R328): keys are staged; an up port switches its transmit key at the next flit boundary. -/
def execYkeygo (port : Nat) (v : Word) (s : State) : Result :=
  let t := s.updPort port fun x => { x with goTx := v.getLsbD 0, goRx := v.getLsbD 1 }
  .next (if (t.portAt port).up && (t.portAt port).goTx then (t.switchKey port).drainPending port else t)

/-- YPCTL_ENABLE (R328): ENABLE trains the port, which is down meanwhile; ignored while PKGID is unset (log 31, DEDUCED). -/
def execYpctlEnable (port : Nat) (s : State) : Result :=
  .next (if s.fab.pkgid.toNat % 4096 = 0xFFF || 18 ≤ port then s
         else
           let t := if (s.portAt port).up then s.portDown port false else s
           t.updPort port fun x => { x with enable := true, training := true })

/-- PORT_TRAINING_COMPLETE (R328): the port comes up with its lanes and the staged keys; flows without a port take it. -/
def execPortTrainingComplete (port : Nat) (mask : BitVec 16) (s : State) : Result :=
  let x := s.portAt port
  if !x.training || x.up || mask = 0 then .next s
  else
    let t := s.setPort port { x with
      up := true, training := false, downkey := false, keyreq := false, mask := mask, rxmask := mask, txkey := x.stagedTx, rxkey := x.stagedRx,
      txsalt := x.saltTx, rxsalt := x.saltRx, txcnt := 0, rxcnt := 0, goTx := false, goRx := false, keyWait := none, kept := [],
      keptOld := [], pending := [], stream := 0 }
    .next (t.rerouteAll fun f => f.port.isNone)

end Sys2Proof.Machine
end

