-- ==== Sys2Proof/Machine/Coherence.lean ====
section
/-!
DEFINITION. Sys2Proof/Machine/Coherence.lean: fabric-coherent windows (R323, R324, R270): the requests of this package's parties, the
home directory of lines homed here, and the lines that this package holds.
-/

namespace Sys2Proof.Machine

/-- How a gateway ends with a packet (R308): applied, stopped by a missing translation of a context, or to be tried again. -/
inductive Applied where
  | done (s : State)
  | page (ctx : Nat) (va : DWord) (k : Kind)
  | wait (s : State)

/-! ### Requests of this package -/

/-- The accesses that a request stands for get their error reply (R134, R270, R323). -/
def State.lineError (s : State) (ctx : Nat) (line : DWord) : State :=
  let mine := fun c : CohWait => c.ctx == ctx && c.line == line
  let reqs := ((s.fab.cohWaits.filter mine).flatMap CohWait.planned).map Prod.fst
  let errs := reqs.eraseDups.map fun r => (CohError.mk ctx line r)
  { s with fab := { s.fab with cohWaits := s.fab.cohWaits.filter (fun c => !mine c), cohErrors := s.fab.cohErrors ++ errs } }

/-- What an access of a diverted gang does to the line once it is served (R134). -/
def lateBytes (data : List Byte) (w : LateWrite) : List Byte :=
  let off := w.va.toNat % 64
  match w.atomic with
  | none => overlay data off w.bytes
  | some (op, n, a, b) => overlay data off (atomicBytes op ((data.drop off).take n) a b)

/-- A packet about a line of a window (R312). -/
def State.cohSend (s : State) (die : Nat) (k : FlowKey) (op : Nat) (line : DWord) (xfer : Nat) (data : List Byte) : State :=
  s.send die k none 0 { blankPacket with kind := 5, resp := op == 4 || op == 5, op := op, addr := line, xfer := xfer, data := data }

/-- A held line goes back to its home unasked (R278, R324). -/
def State.writeBack (s : State) (h : HeldLine) : State :=
  let t := { s with fab := { s.fab with held := s.fab.held.filter fun x => !(x.ctx == h.ctx && x.line == h.line) } }
  match (windowAt s h.ctx h.line).bind fun w => peerOf s h.ctx w.home.toNat with
  | some (pkg, hctx) => t.cohSend h.die (innerFlow pkg hctx h.ctx) 2 h.line 0 h.data
  | none => t

/-- Whether a party keeps its turn at a line until it has tried its access: gangs, engine operations and gateways do; Lamplighters try again
as their next event comes (log 8, DESIGN CHOICE). -/
def keepsTurn (req : Nat) : Bool := decide (req < 2 ^ 62) || decide (2 ^ 63 ≤ req)

/-- The turns at a line of the parties that asked for it. -/
def turnsOf (cs : List CohWait) : List Turn :=
  (cs.flatMap CohWait.planned).filterMap fun p =>
    if keepsTurn p.1 then some { req := p.1, access := p.2, used := false, late := false } else none

/-- How many lines a die cache holds (R278). -/
def dieCacheLines : Nat := 2097152

/-- A full die cache writes the line back that it has held longest, of those that no party of this package still has its turn at (R278; log
43, DESIGN CHOICE) (log 43, DESIGN CHOICE). -/
def State.roomForLine (s : State) (die : Nat) : State :=
  let mine := s.fab.held.filter fun h => h.die == die
  if mine.length < dieCacheLines then s else match mine.find? fun h => h.turn.isEmpty with | some h => s.writeBack h | none => s

/-- A line of a remote window arrives: this package holds it, and what waited for it goes on, each party in its turn (R278, R323, R324) (log 31, DEDUCED). -/
def State.holdLine (s : State) (ctx : Nat) (line : DWord) (home : Nat) (data : List Byte) : State :=
  let mine := fun c : CohWait => c.ctx == ctx && c.line == line
  let here := s.fab.cohWaits.filter mine
  let late := here.flatMap CohWait.late
  let die := match s.fab.cohWaits.find? mine with | some c => c.die | none => 0
  let s := s.roomForLine die
  let held : HeldLine := { ctx := ctx, line := line, home := home, die := die, data := late.foldl lateBytes data, turn := turnsOf here }
  { s with fab := { s.fab with
      cohWaits := s.fab.cohWaits.filter (fun c => !mine c),
      held := s.fab.held.filter (fun h => !(h.ctx == ctx && h.line == line)) ++ [held] } }

/-! ### The home directory (R324) -/

/-- A line's physical address. -/
def linePa (line : Nat) : Nat := 64 * line

/-- The die whose directory keeps a line: that of its stack; companion memory has its directory at die 0 (log 8, DESIGN CHOICE). -/
def homeDie (line : Nat) : Nat := if linePa line < 0x8000000000 then stackOf (linePa line) / 2 else 0

/-- The flow back to a requester (R314) (log 8, DESIGN CHOICE). -/
def DirRequest.flow (r : DirRequest) : FlowKey := { dst := r.pkg, ctx := r.ctx, sctx := r.hctx, tc := r.tc, dom := r.dom }

/-- This package's own number. -/
def State.ownPkg (s : State) : Nat := s.fab.pkgid.toNat

/-- The number that stands for the companion where a request names a context: a companion reaches window memory by physical addresses
(R324; log 8, DESIGN CHOICE). -/
def companionCtx : Nat := 64

/-- A request receives its error reply (R270). -/
def State.replyError (s : State) (line : Nat) (r : DirRequest) : State :=
  if r.pkg ≠ s.ownPkg then s.cohSend (homeDie line) r.flow 5 r.line r.xfer []
  else if r.link.isSome then s.emit (.linkError line)
  else s.lineError r.ctx r.line

/-- COHTMO in force, in ns (R325). -/
def State.snoopTime (s : State) : Nat := max 1000 (min 10000000 s.fab.cohtmo.toNat)

/-- The owner of a line is snooped, and the timer starts. -/
def State.snoop (s : State) (line : Nat) : State :=
  let d := s.dirAt line
  match d.state, d.holder with
  | .excl p, some h =>
    (s.setDir line { d with state := .snoop p, timer := s.ran + s.snoopTime }).cohSend (homeDie line) h.flow 3 h.line h.xfer []
  | _, _ => s

/-- A companion's access takes effect on memory (R192, R324). -/
def State.linkServe (s : State) (x : LinkAccess) : State :=
  match x.data with
  | some bs => s.putBytes x.pa bs
  | none => s.emit (.loaded x.pa (s.bytesAt x.pa x.len))

/-- A request of this package is served: a companion's access and those of diverted gangs take effect, and gangs and engine operations
have their turn (log 8, DESIGN CHOICE). -/
def State.serveLocal (s : State) (line : Nat) (r : DirRequest) : State × List Turn :=
  match r.link with
  | some x => (s.linkServe x, [])
  | none =>
    let mine := fun c : CohWait => c.ctx == r.ctx && c.line == r.line
    let here := s.fab.cohWaits.filter mine
    let late := here.flatMap CohWait.late
    let turn := turnsOf here
    let s := { s with fab := { s.fab with cohWaits := s.fab.cohWaits.filter fun c => !mine c } }
    (if late.isEmpty then s else s.putBytes (linePa line) (late.foldl lateBytes (s.bytesAt (linePa line) 64)), turn)

/-- Serve the queue of a home-owned line (R324): local requests one after the other, each until its parties have tried their accesses, the
first remote one with the line; what still waits snoops it back. -/
def State.serveLine (s : State) (line : Nat) : List DirRequest → State
  | [] => s.setDir line { s.dirAt line with state := .home, holder := none, queue := [], turn := [] }
  | r :: rest =>
    if r.pkg = s.ownPkg then
      let t := s.serveLocal line r
      if t.2.isEmpty then t.1.serveLine line rest
      else t.1.setDir line { s.dirAt line with state := .home, holder := none, queue := rest, turn := t.2 }
    else
      let data := s.bytesAt (linePa line) 64
      let s := s.setDir line { state := .excl r.pkg, holder := some r, queue := rest, timer := 0, turn := [] }
      let s := s.cohSend (homeDie line) r.flow 4 r.line r.xfer data
      if rest.isEmpty then s else s.snoop line

/-- Whether the party of a number can still try its access: one that is saved asks again when it is restored. -/
def State.partyLives (s : State) (req : Nat) : Bool :=
  if 2 ^ 63 ≤ req then s.fab.inflows.any fun f => f.ctx == req - 2 ^ 63 && (match f.stalled with | some w => w.fault.isNone | none => false)
  else if 2 ^ 61 ≤ req then s.ops.any fun o => o.id == req - 2 ^ 61 && (s.gangAt o.gang).place != .saved
  else (s.gangAt req).alive && (s.gangAt req).place != .saved

/-- The turn at a line ends once every party has tried its access, is gone, or was diverted, whose access then takes effect; the queue goes
on (R134, R324). -/
def State.passTurn (s : State) (line : Nat) (d : DirLine) : State :=
  let late := (d.turn.filter fun t => t.late && !t.used).filterMap Turn.access
  let s := if late.isEmpty then s else s.putBytes (linePa line) (late.foldl lateBytes (s.bytesAt (linePa line) 64))
  let left := d.turn.filter fun t => !t.used && !t.late && s.partyLives t.req
  if left.isEmpty then s.serveLine line d.queue else s.setDir line { d with turn := left }

/-- The same at a line that this package holds. -/
def State.passHeld (s : State) (h : HeldLine) : HeldLine :=
  { h with data := ((h.turn.filter fun t => t.late && !t.used).filterMap Turn.access).foldl lateBytes h.data,
           turn := h.turn.filter fun t => !t.used && !t.late && s.partyLives t.req }

/-- The same at every line. -/
def State.passTurns (s : State) : State :=
  let s := if s.fab.held.all fun h => h.turn.isEmpty then s else { s with fab := { s.fab with held := s.fab.held.map s.passHeld } }
  (s.fab.dir.filter fun kd => !kd.2.turn.isEmpty).foldl (fun s kd => s.passTurn kd.1 kd.2) s

/-- A request reaches the directory (R324) (log 8, DESIGN CHOICE). -/
def State.dirRequest (s : State) (line : Nat) (r : DirRequest) : State :=
  let d := s.dirAt line
  match d.state with
  | .home => if d.turn.isEmpty then s.serveLine line (d.queue ++ [r]) else s.setDir line { d with queue := d.queue ++ [r] }
  | .excl _ => (s.setDir line { d with queue := d.queue ++ [r] }).snoop line
  | .snoop _ => s.setDir line { d with queue := d.queue ++ [r] }
  | .lost _ => s.replyError line r

/-- The owner gives a line back, with its data or after an earlier write-back (R324). -/
def State.lineBack (s : State) (line p : Nat) (data : Option (List Byte)) : State :=
  let d := s.dirAt line
  let install := match data with | some bs => s.putBytes (linePa line) bs | none => s
  match d.state with
  | .excl q => if q = p && data.isSome then install.setDir line { d with state := .home, holder := none } else s
  | .snoop q => if q = p then install.serveLine line d.queue else s
  | _ => s

/-- COH_SNOOP_TIMEOUT (R324, R270): the line is owner-lost and poisoned; every waiting request gets its error reply, in order of
arrival (log 31, DEDUCED). -/
def execCohSnoopTimeout (line : Nat) (s : State) : Result :=
  let d := s.dirAt line
  match d.state with
  | .snoop p =>
    if s.ran < d.timer then .next s
    else
      let marks := (List.range 8).map fun i => PoisonMark.memory (8 * line + i)
      let t := s.setDir line { d with state := .lost p, holder := none, queue := [], turn := [] }
      let t := { t with poison := t.poison ++ marks.filter fun m => !t.poison.contains m }
      .next (d.queue.foldl (fun s r => s.replyError line r) t)
  | _ => .next s

/-! ### Requests on their way (R320, R323) -/

/-- A request of this package goes to the directory: over the fabric, or at once where the line is homed here. A home that cannot be
reached and an access that the home denies answer with an error. -/
def State.sendAsk (s : State) (c : CohWait) : State :=
  match peerOf s c.ctx c.home with
  | none => s.lineError c.ctx c.line
  | some (pkg, hctx) =>
    let k : Kind := if c.write then .write else .read
    if pkg ≠ s.ownPkg then s.cohSend c.die (innerFlow pkg hctx c.ctx) (if c.write then 1 else 0) c.line 0 []
    else
      match translate s (dieAgent hctx c.die 0) c.line k with
      | .error .page => s.newFault hctx c.line k.code 4 none none 0 0
      | .error _ => s.lineError c.ctx c.line
      | .ok pa =>
        let flow := innerFlow pkg c.ctx hctx
        s.dirRequest (pa / 64)
          { pkg := pkg, ctx := c.ctx, hctx := hctx, tc := flow.tc, dom := flow.dom, line := c.line, xfer := 0, link := none }

/-- Requests that a move has made leave for their directories. -/
def State.sendAsks (s : State) : State :=
  let fresh := s.fab.cohWaits.filter fun c => !c.sent
  let note := fun c : CohWait => { c with sent := true }
  fresh.foldl State.sendAsk { s with fab := { s.fab with cohWaits := s.fab.cohWaits.map note } }

/-! ### Packets about lines (R324) -/

/-- The flow back to the source of a packet (R314). -/
def backFlow (p : Packet) : FlowKey := { dst := p.src, ctx := p.sctx, sctx := p.ctx, tc := p.tc, dom := p.dom }

/-- The party that a gateway acts as for packets of a context. -/
def gateAgent (ctx port : Nat) : Agent := dieAgent ctx (portDie port) (2 ^ 63 + ctx)

/-- A request of another package at the directory. -/
def State.applyRequest (s : State) (port : Nat) (p : Packet) : Applied :=
  let k : Kind := if p.op = 1 then .write else .read
  let refuse := s.cohSend (portDie port) (backFlow p) 5 (lineOf p.addr) p.xfer []
  match translate s (gateAgent p.ctx port) (lineOf p.addr) k with
  | .error .page => .page p.ctx (lineOf p.addr) k
  | .error _ => .done refuse
  | .ok pa =>
    if carved s (gateAgent p.ctx port) pa then .done refuse
    else
      .done (s.dirRequest (pa / 64)
        { pkg := p.src, ctx := p.sctx, hctx := p.ctx, tc := p.tc, dom := p.dom, line := lineOf p.addr, xfer := p.xfer, link := none })

/-- A line comes back to the directory. -/
def State.applyBack (s : State) (port : Nat) (p : Packet) (data : Option (List Byte)) : Applied :=
  match translate s (gateAgent p.ctx port) (lineOf p.addr) .read with
  | .error .page => .page p.ctx (lineOf p.addr) .read
  | .error _ => .done s
  | .ok pa => .done (s.lineBack (pa / 64) p.src data)

/-- A snoop of a line that this package holds: once the parties that asked for the line have tried their accesses, it answers with the line
and drops it; or that it is gone (R324). -/
def State.applySnoop (s : State) (port : Nat) (p : Packet) : Applied :=
  let line := lineOf p.addr
  match heldLine s p.ctx line with
  | some h =>
    let t := { s with fab := { s.fab with held := s.fab.held.filter fun x => !(x.ctx == p.ctx && x.line == line) } }
    if !h.turn.isEmpty then .wait s
    else .done (t.cohSend (portDie port) (backFlow p) 2 line p.xfer h.data)
  | none => .done (s.cohSend (portDie port) (backFlow p) 6 line p.xfer [])

/-- A COH packet by its operation (log 31, DEDUCED). -/
def State.applyCoh (s : State) (port : Nat) (p : Packet) : Applied :=
  match p.op with
  | 0 | 1 => s.applyRequest port p
  | 2 => s.applyBack port p (some p.data)
  | 3 => s.applySnoop port p
  | 4 => .done (s.holdLine p.ctx (lineOf p.addr) p.src p.data)
  | 5 => .done (s.lineError p.ctx (lineOf p.addr))
  | 6 => s.applyBack port p none
  | _ => .done s

end Sys2Proof.Machine
end

