-- ==== Sys2Proof/Machine/Remote.lean ====
section
/-!
DEFINITION. Sys2Proof/Machine/Remote.lean: fabric operations at their source and at their target (R167 to R171, R308, R313 to R322):
sending units, applying packets in the order of their flow, answers, errors, bulk transfers with their reservations, reductions.
-/

namespace Sys2Proof.Machine

/-! ### Progress of a fabric operation (R138, R168, R170, R318) -/

/-- Packets of a reduction's contribution: pieces of 256 bytes, and one that is empty where the length is 0, so that the switch can compare it
with those of the other members (R170, R321, R322) (log 45, DESIGN CHOICE). -/
def redPackets (n : Nat) : Nat := max 1 ((n + 255) / 256)

/-- Packets that carry an operation's units. -/
def Op.packets (o : Op) : Nat :=
  match o.kind with
  | .fred _ _ n _ _ _ _ => redPackets n
  | _ => o.units

/-- Units whose source reads have begun once some packets are sent (R138). -/
def Op.begun (o : Op) (sent : Nat) : Nat :=
  match o.kind with
  | .fred d _ n _ _ _ _ => blocksOf d.toNat (min n (256 * sent))
  | _ => sent

/-- P_c after the acknowledged units that follow it. -/
def climb : Nat → List Nat → Nat → Nat
  | 0, _, pc => pc
  | n + 1, acked, pc => if acked.contains pc then climb n acked (pc + 1) else pc

/-- P_c of an operation whose units, or packets of a reduction, have been answered. -/
def Op.advance (o : Op) : Op :=
  match o.kind with
  | .fred d _ n _ _ _ _ =>
    let done := 256 * climb (o.packets + 1) o.acked 0
    let pc := if n ≤ done then o.units - 1 else (d.toNat + done) / 128 - d.toNat / 128
    { o with pc := max o.pc pc }
  | _ =>
    let pc := climb (o.acked.length + 1) o.acked o.pc
    { o with pc := pc, ps := max o.ps pc, acked := o.acked.filter fun u => decide (pc ≤ u) }

/-- An operation has done everything it is to do. -/
def State.opDone (s : State) (o : Op) : State :=
  s.updOp o.id fun o => { o with status := .finished, pc := o.units, ps := max o.ps o.units }

/-- What an attempt of a fabric operation leaves: a stop at a page, a failure, or `go`. -/
def State.fabEnd (s : State) (o : Op) (e : UnitEnd) : State := s.endUnit o e id

/-- Add a value to a 64-bit word as one atomic (R168, R170). -/
def State.addWord (s : State) (a : Agent) (va : DWord) (n : Nat) : Except (AccCause × DWord) State :=
  match readGlobal s a va 8 .atomic with
  | .error c => .error (c, va)
  | .ok bs => writeRange s a va (bytesLE 8 (natLE bs + n))

/-- A reduction completes once the earlier ones of its group have (R322). -/
def State.redTurn (s : State) (o : Op) (group : Nat) : Bool :=
  !s.ops.any fun p =>
    decide (p.id < o.id) && p.status == .active && (s.launchAt p.launch).ctx == (s.launchAt o.launch).ctx &&
      (match p.kind with | .fred _ _ _ g _ _ _ => g == group | _ => false)

/-- A fabric operation finishes once its last unit has been answered: its arrival or local signal takes place (R138, R168, R170). One
that was cancelled stops once the packets it has sent are answered (R140). -/
def State.fabFinish (s : State) (id : Nat) : State :=
  match s.opAt id with
  | none => s
  | some o =>
    if o.status != .active || o.fault.isSome then s
    else if o.cancelling && decide (o.sent < o.packets) then
      let quiet := match o.kind with | .fred _ _ _ _ _ _ _ => true | _ => decide (o.sent ≤ o.pc + o.acked.length)
      if quiet then s.updOp id fun o => { o with status := .cancelled } else s
    else
      match o.kind with
      | .fput _ _ _ _ none => if o.units ≤ o.pc then s.opDone o else s
      | .fget _ _ n r arr =>
        if o.pc < o.units then s
        else if !r.arr then s.opDone o
        else s.fabEnd o (orEnd (s.opWindow o arr) fun key => .commit ((s.opArrive key arr n).opDone o))
      | .fred _ _ n g _ sig _ =>
        if !((List.range (redPackets n)).all o.acked.contains) || !s.redTurn o g then s
        else if sig = 0 then s.opDone o
        else
          match s.addWord (s.opAgent o) sig n with
          | .error (c, va) => s.fabEnd o (s.unitFail o c va .atomic)
          | .ok t => t.opDone o
      | _ => s

/-- A unit has been answered. -/
def State.unitAnswered (s : State) (id unit : Nat) : State :=
  let note := fun o : Op =>
    let old := match o.kind with | .fred _ _ _ _ _ _ _ => false | _ => decide (unit < o.pc)
    if old || o.acked.contains unit then o else ({ o with acked := o.acked ++ [unit] } : Op).advance
  (s.updOp id note).fabFinish id

/-- Whether an operation is stopped at its P_c: its gang is off-core or its context suspended (R253, R256) (log 30, DEDUCED). -/
def State.opStopped (s : State) (o : Op) : Bool := (s.gangAt o.gang).place == .saved || (s.ctxAt (s.launchAt o.launch).ctx).suspended

/-- Whether an answer to an operation waits until it goes on, behind those that wait already (R253, R256) (log 30, DEDUCED). -/
def State.opDefers (s : State) (o : Op) : Bool := s.opStopped o || !o.answers.isEmpty

/-- An answer waits. -/
def State.defer (s : State) (o : Op) (port : Nat) (p : Packet) : State :=
  s.updOp o.id fun o => { o with answers := o.answers ++ [(port, p)] }

/-! ### Sending (R307, R313, R318) -/

/-- The tag of an operation's packets (R311). -/
def Op.xfer (o : Op) : Nat := o.id % 2 ^ 32

/-- Whether an operation has handed its flow every packet that later operations stand behind (R313, R314). -/
def Op.handed (o : Op) : Bool :=
  match o.kind with
  | .fput _ _ _ _ (some _) => o.ended
  | .fbulk _ _ _ _ _ => true
  | _ => decide (o.packets ≤ o.sent)

/-- Whether an earlier operation of a flow has still packets to send (log 30, DEDUCED). -/
def State.flowBusy (s : State) (o : Op) (k : FlowKey) : Bool :=
  s.ops.any fun p =>
    p.cls == 3 && decide (p.id < o.id) && p.status == .active && !p.cancelling && !p.handed && (s.gangAt p.gang).place != .saved &&
      s.opFlow p == some k

/-- Whether an earlier bulk transfer of the same gang on the flow still lacks a BULKACK (R314) (log 30, DEDUCED). -/
def State.bulkBefore (s : State) (o : Op) (k : FlowKey) : Bool :=
  s.ops.any fun p =>
    p.gang == o.gang && decide (p.id < o.id) && p.status == .active && s.opFlow p == some k &&
      (match p.kind with | .fbulk _ _ _ _ _ => decide (p.pc < p.units) | _ => false)

/-- Whether ordered packets of earlier operations of a flow are still unacknowledged: bulk data waits for them (R314) (log 30, DEDUCED). -/
def State.orderedBefore (s : State) (o : Op) (k : FlowKey) : Bool :=
  (s.outFlow k).kept.any fun x => match x.op with | some i => decide (i < o.id) | none => false

/-- Read a unit's source bytes; the translations enter the caches (R284). -/
def State.readSource (s : State) (o : Op) (src : DWord) (n : Nat) : Except UnitEnd (State × List Byte) :=
  match readRange s (s.opAgent o) src n with
  | .error (c, va) => .error (s.unitFail o c va .read)
  | .ok bs => .ok (s.noteRange (s.opAgent o) src n, bs)

/-- An operation's position after it has sent a unit; P_s goes with it. -/
def Op.sentOne (o : Op) : Op := { o with sent := o.sent + 1, ps := max o.ps (min (o.begun (o.sent + 1)) o.units) }

/-- A reservation that carries n bytes of a bulk transfer to its peer: one whose FRESV its gang issued before (R171). -/
def State.carrier (s : State) (o : Op) (n : Nat) (k : FlowKey) : Option Reservation :=
  s.fab.reservations.find? fun r => r.gang == o.gang && decide (r.after < o.id) && r.dst == k.dst && r.ctx == k.ctx && decide (n ≤ r.bytes) && decide (s.ran < r.til)

/-- Bytes of a reservation are used (log 30, DEDUCED). -/
def State.useReservation (s : State) (r : Reservation) (n : Nat) : State :=
  let take := fun x : Reservation => if x = r then { x with bytes := x.bytes - n } else x
  { s with fab := { s.fab with reservations := s.fab.reservations.map take } }

/-- A bulk data packet (R318). -/
def bulkPacket (o : Op) (reserved : Bool) (remote : DWord) (off : Nat) (bs : List Byte) : Packet :=
  { blankPacket with drop := !reserved, rsvd := reserved, xfer := o.xfer, addr := remote + BitVec.ofNat 64 off,
                     aux := BitVec.ofNat 32 off, data := bs }

/-- Send the next packet of an operation on its flow (R312, R313, R321) (log 30, DEDUCED). A GET asks for as many bytes as the zeros it
carries (log 49, DESIGN CHOICE). -/
def State.sendUnit (s : State) (o : Op) (k : FlowKey) : UnitEnd :=
  let die := dieOf o.core
  let u := o.sent
  let next := fun s : State => s.updOp o.id Op.sentOne
  match o.kind with
  | .fput tgt src n _ _ =>
    let b := blockAt tgt.toNat n u
    orEnd (s.readSource o (src + BitVec.ofNat 64 b.1) b.2) fun r =>
      .commit (next (r.1.send die k (some o.id) u
        { blankPacket with xfer := o.xfer, addr := tgt + BitVec.ofNat 64 b.1, aux := BitVec.ofNat 32 b.1, data := r.2 }))
  | .fget d r n w _ =>
    let b := blockAt (if w.scratch then d.toNat % 2 ^ 32 else d.toNat) n u
    .commit (next (s.send die k (some o.id) u
      { blankPacket with kind := 2, xfer := o.xfer, addr := r + BitVec.ofNat 64 b.1, aux := BitVec.ofNat 32 b.1,
                         data := List.replicate b.2 0 }))
  | .fatom r op a b _ _ =>
    let n := if op / 16 % 2 = 1 then 8 else 4
    .commit (next (s.send die k (some o.id) u
      { blankPacket with kind := 3, xfer := o.xfer, addr := r, op := op, data := bytesLE n a.toNat ++ bytesLE n b.toNat }))
  | .fresv _ bytes _ =>
    .commit (next (s.send die k (some o.id) u { blankPacket with kind := 6, xfer := o.xfer, aux := BitVec.ofNat 32 bytes }))
  | .fred _ src n g code _ number =>
    let rank := ((groupEntry s (s.launchAt o.launch).ctx g).map fun e => e.2.1).getD 0
    let off := 256 * u
    orEnd (s.readSource o (src + BitVec.ofNat 64 off) (min 256 (n - off))) fun r =>
      .commit (next (r.1.send die k (some o.id) u
        { blankPacket with kind := 4, xfer := g, addr := BitVec.ofNat 64 (off + n * 2 ^ 32), op := code,
                           aux := BitVec.ofNat 32 (rank + number * 65536), data := r.2 }))
  | .fbulk src tgt n _ _ =>
    let b := blockAt tgt.toNat n u
    orEnd (s.readSource o (src + BitVec.ofNat 64 b.1) b.2) fun r =>
      let s := r.1
      let owe := fun t : State => if (s.flowPort (s.outFlow k)).isSome then t else t.updOp o.id fun x => { x with owed := x.owed ++ [u] }
      match s.carrier o b.2 k with
      | some c => .commit (owe (next ((s.useReservation c b.2).sendFree die k (bulkPacket o true tgt b.1 r.2))))
      | none => .commit (owe (next (s.sendFree die k (bulkPacket o false tgt b.1 r.2))))
  | _ => .wait s

/-- The end packet of a transfer: its signal, or BULKEND (R168, R314, R318). -/
def State.sendEnd (s : State) (o : Op) (k : FlowKey) (sig : DWord) (n : Nat) : State :=
  let p : Packet :=
    if sig = 0 then { blankPacket with kind := 7, op := 4, xfer := o.xfer }
    else { blankPacket with kind := 1, xfer := o.xfer, addr := sig, data := bytesLE 8 n }
  (s.send (dieOf o.core) k (some o.id) o.units p).updOp o.id fun o => { o with ended := true }

/-- The end of a transfer that has one and has not sent it. -/
def Op.endSignal (o : Op) : Option (DWord × Nat) :=
  if o.ended then none
  else
    match o.kind with
    | .fput _ _ n _ (some sig) => some (sig, n)
    | .fbulk _ _ n _ sig => some (sig, n)
    | _ => none

/-- Whether the end packet may go: an FSPUT's bytes stand before it in the flow, an FBULK's have their BULKACKs (R314, R318). -/
def Op.mayEnd (o : Op) : Bool :=
  match o.kind with
  | .fbulk _ _ _ _ _ => decide (o.units ≤ o.pc)
  | _ => decide (o.units ≤ o.sent)

/-- The bytes that a transfer still owes (R318). -/
def Op.owedBytes (o : Op) : Nat :=
  match o.kind with
  | .fbulk _ r n _ _ => (o.owed.map fun u => (blockAt r.toNat n u).2).sum
  | _ => 0

/-- Ask the destination to reserve the bytes that a transfer owes (R318). -/
def State.askReserve (s : State) (o : Op) : State :=
  match s.opFlow o with
  | none => s.opFail o failFabric o.pc 0
  | some k =>
    let t := s.send (dieOf o.core) k none 0 { blankPacket with kind := 6, xfer := o.xfer, aux := BitVec.ofNat 32 o.owedBytes }
    t.updOp o.id fun o => { o with resv := .asked o.owedBytes, grant := none }

/-- Send owed units again under a grant, as far as its bytes and its window go; what is still owed needs a new request (R318,
R319). While no port reaches the peer, everything stays owed. -/
def State.resendOwed (s : State) (o : Op) (k : FlowKey) : List Nat → State
  | [] => s.updOp o.id fun x => { x with grant := none }
  | u :: us =>
    match o.kind, o.grant with
    | .fbulk src r n _ _, some (bytes, til) =>
      let b := blockAt r.toNat n u
      let f := s.outFlow k
      if (s.flowPort f).isNone then s.setOutFlow { f with port := none, lost := some (f.lost.getD s.ran) }
      else if bytes < b.2 || til ≤ s.ran then
        match (s.updOp o.id fun x => { x with grant := none }).opAt o.id with
        | some x => s.askReserve x
        | none => s
      else
        match s.readSource o (src + BitVec.ofNat 64 b.1) b.2 with
        | .error e => s.fabEnd o e
        | .ok (s, bs) =>
          let used := fun x : Op => { x with owed := x.owed.filter (fun v => v != u), grant := some (bytes - b.2, til) }
          ((s.sendFree (dieOf o.core) k (bulkPacket o true r b.1 bs)).updOp o.id used).resendOwed (used o) k us
    | _, _ => s

/-- A fabric operation moves on: it meets an unreachable peer, sends its next packet, sends its end, sends owed bytes again, or
finishes. One that was cancelled sends no further unit, but its sent ones again until they are applied (R140). -/
def State.fabUnit (s : State) (o : Op) : State :=
  match s.opFlow o with
  | none =>
    match o.kind with
    | .fresv _ _ result =>
      match writeRange s (s.opAgent o) result (bytesLE 8 2) with
      | .error (c, va) => s.fabEnd o (s.unitFail o c va .write)
      | .ok t => t.opDone o
    | _ => s.opFail o failFabric o.pc 0
  | some k =>
    let bulk := match o.kind with | .fbulk _ _ _ _ _ => true | _ => false
    let ends := o.cancelling && decide (o.sent < o.packets)
    if !ends && decide (o.sent < o.packets) then
      if s.flowBusy o k || (bulk && s.orderedBefore o k) || decide (o.pc + 4 < o.begun (o.sent + 1)) then s
      else s.fabEnd o (s.sendUnit o k)
    else if o.grant.isSome && !o.owed.isEmpty then s.resendOwed o k o.owed
    else if o.resv == .idle && !o.owed.isEmpty then s.askReserve o
    else if ends then s.fabFinish o.id
    else
      match o.endSignal with
      | some (sig, n) => if o.mayEnd && !s.bulkBefore o k && (bulk || !s.flowBusy o k) then s.sendEnd o k sig n else s
      | none => s.fabFinish o.id

/-! ### Errors at the source (R139, R308, R322) -/

/-- The fabric operation that a tag names in a context. -/
def State.xferOp (s : State) (ctx xfer : Nat) : Option Op :=
  s.ops.find? fun o => o.cls == 3 && o.xfer == xfer && o.status == .active && (s.launchAt o.launch).ctx == ctx

/-- The reductions that a result belongs to. -/
def State.redOps (s : State) (ctx group number : Nat) : List Op :=
  s.ops.filter fun o =>
    o.status == .active && (s.launchAt o.launch).ctx == ctx &&
      (match o.kind with | .fred _ _ _ g _ _ i => g == group && i == number | _ => false)

/-- The unit of an operation that an offset lies in. -/
def Op.unitAt (o : Op) (off : Nat) : Nat :=
  match o.kind with
  | .fput r _ _ _ _ | .fbulk _ r _ _ _ => (r.toNat + off) / 128 - r.toNat / 128
  | .fget d _ _ w _ =>
    let lo := if w.scratch then d.toNat % 2 ^ 32 else d.toNat
    (lo + off) / 128 - lo / 128
  | _ => 0

/-- An error response fails its operation with REMOTE, a reduction with FABRIC (R139, R308, R322). -/
def State.applyError (s : State) (p : Packet) : State :=
  if p.kind = 4 then (s.redOps p.ctx (p.xfer % 4096) (p.aux.toNat / 65536)).foldl (fun s o => s.opFail o failFabric o.pc 0) s
  else
    match s.xferOp p.ctx p.xfer with
    | some o => s.opFail o failRemote (o.unitAt p.aux.toNat) p.addr
    | none => s

/-! ### Applying packets at the target (R308, R314) -/

/-- Whether a packet is bulk data (R314). -/
def isBulk (p : Packet) : Bool := p.kind == 0 && !p.resp && (p.drop || (p.rsvd && p.seq == 0))

/-- Whether a receiving side is that of a packet's flow. -/
def InFlow.takes (f : InFlow) (p : Packet) : Bool := f.src == p.src && f.sctx == p.sctx && f.ctx == p.ctx && f.tc == p.tc && f.dom == p.dom

/-- Note the refusal of a PUT, or the end of a transfer (R168). -/
def State.noteRefused (s : State) (p : Packet) (on : Bool) : State :=
  let note := fun f : InFlow =>
    let rest := f.refused.filter fun x => x != p.xfer
    if f.takes p then { f with refused := if on then p.xfer :: rest else rest } else f
  { s with fab := { s.fab with inflows := s.fab.inflows.map note } }

/-- Whether a PUT of a transfer was refused (R168). -/
def State.refusedBefore (s : State) (p : Packet) : Bool := s.fab.inflows.any fun f => f.takes p && f.refused.contains p.xfer

/-- An error response to a request. An ordered request is acknowledged once its source has the response, so that a refused PUT never counts
as applied there (R168, R308) (log 31, DEDUCED). -/
def State.refuse (s : State) (port : Nat) (p : Packet) : State :=
  let t := if p.kind = 0 then s.noteRefused p true else if p.kind = 1 then s.noteRefused p false else s
  t.sendHolding (portDie port) (backFlow p) none 0 (if isBulk p then none else some p.seq)
    { p with resp := true, drop := false, rsvd := false, op := errorOp, data := [] }

/-- An access of a gateway does not happen. -/
def State.gateFail (s : State) (port : Nat) (p : Packet) (c : AccCause) (va : DWord) (k : Kind) : Applied :=
  let a := gateAgent p.ctx port
  match c with
  | .page => .page p.ctx va k
  | .wait => .wait ((s.unplan a.req).askLine a va k.writes none)
  | _ => .done ((s.eatError a va).refuse port p)

/-- A response packet (R312, R314). -/
def State.respond (s : State) (port : Nat) (p : Packet) (data : List Byte) : State :=
  s.send (portDie port) (backFlow p) none 0 { p with resp := true, data := data }

/-- A transfer has ended at this target (R318). -/
def State.noteEnd (s : State) (port : Nat) (p : Packet) : State :=
  let note := fun f : InFlow => if f.takes p then { f with ended := p.xfer :: f.ended.filter fun x => x != p.xfer } else f
  if port < 18 then { s with fab := { s.fab with inflows := s.fab.inflows.map note } } else s

/-- The attempt of a local write for an answer to an operation. -/
def State.answerEnd (s : State) (o : Op) (e : UnitEnd) : Applied :=
  match e with
  | .commit t => .done t
  | .wait t => .wait t
  | .page va k => .page (s.launchAt o.launch).ctx va k
  | .fail cause addr t => .done (t.opFail o cause o.pc addr)

/-- A write of answer bytes at a global address of an operation. -/
def State.answerWrite (s : State) (o : Op) (va : DWord) (bs : List Byte) (go : State → State) : Applied :=
  match writeRange s (s.opAgent o) va bs with
  | .error (c, at_) => s.answerEnd o (s.unitFail o c at_ .write)
  | .ok t => .done (go t)

/-- The answer of a GET: bytes for the local destination (R168). -/
def State.applyGot (s : State) (p : Packet) : Applied :=
  match s.xferOp p.ctx p.xfer with
  | none => .done s
  | some o =>
    match o.kind with
    | .fget d _ _ r _ =>
      let e : Endpoint := { space := if r.scratch then 1 else 0, addr := d }
      s.answerEnd o (orEnd (s.endKey o e) fun key =>
        orEnd (s.writeEnd o e key p.aux.toNat p.data) fun t => .commit (t.unitAnswered o.id (o.unitAt p.aux.toNat)))
    | _ => .done s

/-- The answer of an atomic: the old value (R169). -/
def State.applyOld (s : State) (p : Packet) : Applied :=
  match s.xferOp p.ctx p.xfer with
  | none => .done s
  | some o =>
    match o.kind with
    | .fatom _ _ _ _ _ result => s.answerWrite o result p.data fun t => t.opDone o
    | _ => .done s

/-- The result of a reduction (R170, R321). -/
def State.applyResult (s : State) (p : Packet) : Applied :=
  match s.redOps p.ctx (p.xfer % 4096) (p.aux.toNat / 65536) with
  | [] => .done s
  | o :: _ =>
    match o.kind with
    | .fred d _ _ _ _ _ _ =>
      let off := p.addr.toNat % 2 ^ 32
      s.answerWrite o (d + BitVec.ofNat 64 off) p.data fun t => t.unitAnswered o.id (off / 256)
    | _ => .done s

/-- Bytes of the reservations open on a port (R319). -/
def State.openBytes (s : State) (port : Nat) : Nat :=
  ((s.fab.grants.filter fun g => g.port == port && decide (s.ran < g.til)).map Grant.bytes).sum

/-- The window of a reservation in µs (R319). -/
def resvWindow (bytes : Nat) : Nat := (bytes + 3999) / 4000 + 10

/-- Bytes that a quarter of a port's ingress rate carries in a time (R309, R319): a lane brings 28,000 bytes in a µs. -/
def quarterBytes (lanes micros : Nat) : Nat := 7000 * lanes * micros

/-- A request for a reservation: granted or refused (R319). -/
def State.applyResv (s : State) (port : Nat) (p : Packet) : State :=
  let bytes := p.aux.toNat
  let w := resvWindow bytes
  if s.openBytes port + bytes ≤ quarterBytes (stripe (s.portAt port).rxmask).length w then
    let g : Grant := { id := s.fab.nextGrant, port := port, src := p.src, xfer := p.xfer, bytes := bytes, til := s.ran + 1000 * w }
    let t := { s with fab := { s.fab with grants := s.fab.grants ++ [g], nextGrant := s.fab.nextGrant + 1 } }
    t.respond port { p with op := 1, aux := BitVec.ofNat 32 w } []
  else s.respond port { p with op := 2 } []

/-- A granted reservation at the source (R171, R318). -/
def State.applyGrant (s : State) (p : Packet) : Applied :=
  let w := p.aux.toNat
  match s.xferOp p.ctx p.xfer with
  | none => .done s
  | some o =>
    match o.kind, o.resv with
    | .fresv _ bytes result, _ =>
      s.answerWrite o result (bytesLE 8 (w * 2 ^ 32)) fun t =>
        let r : Reservation := { gang := o.gang, after := o.id, dst := p.src, ctx := p.sctx, bytes := bytes, til := s.ran + 1000 * w }
        ({ t with fab := { t.fab with reservations := t.fab.reservations ++ [r] } } : State).opDone o
    | .fbulk _ _ _ _ _, .asked bytes =>
      let x := { o with grant := some (bytes, s.ran + 1000 * w), resv := .idle }
      let t := s.updOp o.id fun o => { o with grant := x.grant, resv := .idle }
      match s.opFlow o with
      | some k => .done (t.resendOwed x k x.owed)
      | none => .done (t.opFail o failFabric o.pc 0)
    | _, _ => .done s

/-- A refused reservation at the source (R171, R318). -/
def State.applyRefusal (s : State) (p : Packet) : Applied :=
  match s.xferOp p.ctx p.xfer with
  | none => .done s
  | some o =>
    match o.kind with
    | .fresv _ _ result => s.answerWrite o result (bytesLE 8 1) fun t => t.opDone o
    | .fbulk _ _ _ _ _ => .done (s.updOp o.id fun o => { o with resv := .refused s.ran })
    | _ => .done s

/-- What a packet does at its place in its flow (R312, R314), answers included. A signal follows only PUTs that were all applied (R168). -/
def State.applyHere (s : State) (port : Nat) (p : Packet) : Applied :=
  let a := gateAgent p.ctx port
  if p.resp && p.op == errorOp then .done (s.applyError p)
  else
    match p.kind, p.resp with
    | 0, false =>
      match writeRange s a p.addr p.data with
      | .error (c, va) => s.gateFail port p c va .write
      | .ok t => .done (if p.aux = 0 then t.noteRefused p false else t)
    | 1, false =>
      if s.refusedBefore p then .done (s.refuse port p)
      else
        match s.addWord a p.addr (natLE (p.data.take 8)) with
        | .error (c, va) => s.gateFail port p c va .atomic
        | .ok t => .done (t.noteEnd port p)
    | 2, false =>
      match readRange s a p.addr p.data.length with
      | .error (c, va) => s.gateFail port p c va .read
      | .ok bs => .done ((s.noteRange a p.addr p.data.length).respond port p bs)
    | 2, true => s.applyGot p
    | 3, false =>
      let n := if p.op / 16 % 2 = 1 then 8 else 4
      match readGlobal s a p.addr n .atomic with
      | .error c => s.gateFail port p c p.addr .atomic
      | .ok old =>
        let x := BitVec.ofNat 64 (natLE (p.data.take n))
        let y := BitVec.ofNat 64 (natLE ((p.data.drop n).take n))
        match writeGlobal s a p.addr (atomicBytes (p.op % 16) old x y) with
        | .error c => s.gateFail port p c p.addr .atomic
        | .ok t => .done (t.respond port p old)
    | 3, true => s.applyOld p
    | 4, true => s.applyResult p
    | 5, _ => s.applyCoh port p
    | 6, _ =>
      match p.op with
      | 0 => .done (s.applyResv port p)
      | 1 => s.applyGrant p
      | 2 => s.applyRefusal p
      | _ => .done s
    | 7, _ =>
      match p.op with
      | 3 =>
        match s.xferOp p.ctx p.xfer with
        | some o =>
          let u := o.unitAt p.aux.toNat
          .done ((s.updOp o.id fun o => { o with owed := o.owed.filter fun v => v != u }).unitAnswered o.id u)
        | none => .done s
      | 4 => .done (s.noteEnd port p)
      | _ => .done s
    | _, _ => .done s

/-- The operation that a packet answers. -/
def State.answered (s : State) (p : Packet) : Option Op :=
  let toXfer := (p.resp && (p.kind == 2 || p.kind == 3 || p.op == errorOp)) || (p.kind == 6 && p.op != 0) || (p.kind == 7 && p.op == 3)
  if p.resp && p.kind == 4 then (s.redOps p.ctx (p.xfer % 4096) (p.aux.toNat / 65536)).head? else if toXfer then s.xferOp p.ctx p.xfer else none

/-- A packet at its place in its flow; the answer to an operation that is stopped at its P_c waits for it (R253, R256, R312, R314). -/
def State.applyPacket (s : State) (port : Nat) (p : Packet) : Applied :=
  match s.answered p with
  | some o => if s.opDefers o then .done (s.defer o port p) else s.applyHere port p
  | none => s.applyHere port p

/-- A packet of an operation has been applied at its target: a unit, or its end (R168, R318). -/
def State.ownApplied (s : State) (o : Op) (p : Packet) (unit : Nat) : State :=
  match p.kind with
  | 0 => s.unitAnswered o.id unit
  | 1 | 7 => if o.status == .active then s.opDone o else s
  | _ => s

/-- Whether a packet is one of those whose acknowledgement counts for its operation. -/
def ownPacket (p : Packet) : Bool := !p.resp && (p.kind == 0 || p.kind == 1 || (p.kind == 7 && p.op == 4))

/-- The answers that an operation finds when it goes on, in the order in which they came. -/
def State.replay (s : State) (id : Nat) : List (Nat × Packet) → State
  | [] => s
  | (port, p) :: rest =>
    match s.opAt id with
    | none => s
    | some o =>
      let keep := fun t : State => t.updOp id fun o => { o with answers := (port, p) :: rest }
      if ownPacket p then (s.ownApplied o p (o.unitAt p.aux.toNat)).replay id rest
      else
        match s.applyHere port p with
        | .done t => t.replay id rest
        | .wait t => keep t
        | .page _ va k => keep (s.opPage o va k)

/-- Operations that go on take the answers that came meanwhile (R253, R256) (log 30, DEDUCED). -/
def State.replayAnswers (s : State) : State :=
  (s.ops.filter fun o => !o.answers.isEmpty && !s.opStopped o && o.fault.isNone).foldl
    (fun s o => (s.updOp o.id fun o => { o with answers := [] }).replay o.id o.answers) s

/-! ### Receiving in order, once (R308, R315) -/

/-- The receiving side of a packet's flow. -/
def State.inFlow (s : State) (p : Packet) : InFlow :=
  match s.fab.inflows.find? fun f => f.takes p with
  | some f => f
  | none => { src := p.src, sctx := p.sctx, ctx := p.ctx, tc := p.tc, dom := p.dom, expected := 0, ended := [], refused := [], stalled := none,
              behind := [] }

def State.setInFlow (s : State) (f : InFlow) : State :=
  let same := fun g : InFlow => g.src == f.src && g.sctx == f.sctx && g.ctx == f.ctx && g.tc == f.tc && g.dom == f.dom
  let fs := s.fab.inflows
  { s with fab := { s.fab with inflows := if fs.any same then fs.map (fun g => if same g then f else g) else fs ++ [f] } }

/-- Whether a sequence number comes at or after another, modulo 2^32. -/
def seqReached (a b : Nat) : Bool := decide ((b + 2 ^ 32 - a) % 2 ^ 32 < 2 ^ 31)

/-- An acknowledgement or a request to send again (R315). -/
def State.control (s : State) (port : Nat) (p : Packet) (op seq : Nat) : State :=
  s.sendFree (portDie port) (backFlow p) { blankPacket with kind := 7, op := op, xfer := p.xfer, aux := BitVec.ofNat 32 seq }

/-- Whether this package takes a packet in: it came by a port that is up, is whole, and is for this package (R311). -/
def State.heard (s : State) (port : Nat) (p : Packet) : Bool := (s.portAt port).up && packetOk p && p.dst == s.ownPkg

/-- A packet that this package does not take in: one with a reserved value is reported as a header error (R311; log 46, DESIGN CHOICE). -/
def State.unheard (s : State) (port : Nat) (p : Packet) : State :=
  if (s.portAt port).up && !packetOk p then s.emit (.headerError port p) else s

/-- Bytes of a grant are used by a reserved packet (R319). -/
def State.useGrant (s : State) (p : Packet) : State :=
  let mine := s.fab.grants.find? fun g => g.src == p.src && g.xfer == p.xfer
  let any := s.fab.grants.find? fun g => g.src == p.src
  match (match mine with | some g => some g | none => any) with
  | none => s
  | some g =>
    let take := fun x : Grant => if x = g then { x with bytes := x.bytes - p.data.length } else x
    { s with fab := { s.fab with grants := (s.fab.grants.map take).filter fun x => x.bytes != 0 } }

/-- A packet that a missing translation stops: the fault is posted, and the flow waits with it (R308). -/
def State.stall (s : State) (port : Nat) (p : Packet) (ctx : Nat) (va : DWord) (k : Kind) : State :=
  let id := s.pkg.nextFault
  (s.newFault ctx va k.code 4 none none 0 0).setInFlow { s.inFlow p with stalled := some { fault := some id, port := port, packet := p } }

/-- A packet that meets a pinned line, or one under way, is tried again; the flow waits for it (R295, R308). -/
def State.hold (s : State) (port : Nat) (p : Packet) : State :=
  s.setInFlow { s.inFlow p with stalled := some { fault := none, port := port, packet := p } }

/-- The SEQ up to which a flow is acknowledged: none from a refused packet on whose source does not have the response yet (R308, R315) (log
31, DEDUCED) (log 31, DEDUCED). -/
def State.ackTo (s : State) (p : Packet) (seq : Nat) : Nat :=
  match (s.outFlow (backFlow p)).kept.findSome? Kept.holds with
  | some q => (q + 2 ^ 32 - 1) % 2 ^ 32
  | none => seq

/-- The flow is acknowledged (R315). -/
def State.acknowledge (s : State) (port : Nat) (p : Packet) (seq : Nat) : State := s.control port p 0 (s.ackTo p seq)

/-- A packet of the flow at its place: applied, acknowledged, counted (log 31, DEDUCED). -/
def State.takePacket (s : State) (port : Nat) (p : Packet) : State :=
  match s.applyPacket port p with
  | .done t => (t.setInFlow { t.inFlow p with expected := (p.seq + 1) % 2 ^ 32 }).acknowledge port p p.seq
  | .page ctx va k => s.stall port p ctx va k
  | .wait t => t.hold port p

/-- A bulk packet of a transfer that has not ended is applied and acknowledged (R318). -/
def State.takeBulk (s : State) (port : Nat) (p : Packet) : State :=
  if (s.inFlow p).ended.contains p.xfer then s
  else
    match writeRange s (gateAgent p.ctx port) p.addr p.data with
    | .ok t =>
      let t := if p.rsvd then t.useGrant p else t
      t.send (portDie port) (backFlow p) none 0 { blankPacket with kind := 7, op := 3, xfer := p.xfer, aux := p.aux }
    | .error (c, va) =>
      match s.gateFail port p c va .write with
      | .done t => t
      | .page ctx va k => s.stall port p ctx va k
      | .wait t => t.hold port p

/-- RECEIVING A PACKET OF A FLOW (R308, R315): one that is due is applied, or waits behind the packet at which the flow waits; an earlier one
is acknowledged again; a later one asks for what is missing (log 31, DEDUCED). -/
def State.receive (s : State) (port : Nat) (p : Packet) : State :=
  let f := s.setInFlow (s.inFlow p)
  let due := (s.inFlow p).expected
  if p.seq = due then
    if (s.inFlow p).stalled.isSome then s.setInFlow { s.inFlow p with behind := (s.inFlow p).behind ++ [(port, p)] }
    else f.takePacket port p
  else if seqReached p.seq due then f.acknowledge port p ((due + 2 ^ 32 - 1) % 2 ^ 32)
  else f.control port p 1 due

/-- RECEIVING BULK DATA (R308, R318): it may be dropped where it is droppable, and its source is told; where its flow waits, it waits. -/
def State.receiveBulk (s : State) (port : Nat) (p : Packet) (dropIt : Bool) : State :=
  let f := s.setInFlow (s.inFlow p)
  if (s.inFlow p).ended.contains p.xfer then f
  else if dropIt && p.drop then f.control port p 2 p.aux.toNat
  else if (s.inFlow p).stalled.isSome then s.setInFlow { s.inFlow p with behind := (s.inFlow p).behind ++ [(port, p)] }
  else f.takeBulk port p

/-- Packets that came while their flow waited, in turn. -/
def State.receiveBehind (s : State) : List (Nat × Packet) → State
  | [] => s
  | (port, p) :: rest => (if isBulk p then s.receiveBulk port p false else s.receive port p).receiveBehind rest

/-- A flow tries the packet at which it waits; once that is done, those behind it follow (R308). -/
def State.resumeFlow (s : State) (f : InFlow) : State :=
  match f.stalled with
  | none => s
  | some w =>
    let t := s.setInFlow { f with stalled := none, behind := [] }
    (if isBulk w.packet then t.takeBulk w.port w.packet else t.takePacket w.port w.packet).receiveBehind f.behind

/-- Flows that wait for a pinned line, or for one under way, try again (R308). -/
def State.retryFlows (s : State) : State :=
  (s.fab.inflows.filter fun f => match f.stalled with | some w => w.fault.isNone | none => false).foldl State.resumeFlow s

/-- A denied fault refuses the packet (R193, R308, R323); those behind it follow. -/
def State.denyFlow (s : State) (f : InFlow) : State :=
  match f.stalled with
  | none => s
  | some w =>
    let p := w.packet
    let t := s.setInFlow { f with stalled := none, behind := [] }
    let u :=
      if p.kind = 5 then t.cohSend (portDie w.port) (backFlow p) 5 (lineOf p.addr) p.xfer []
      else if p.resp then
        let o := if p.kind = 4 then (t.redOps p.ctx (p.xfer % 4096) (p.aux.toNat / 65536)).head? else t.xferOp p.ctx p.xfer
        match o with | some o => t.opFail o failProt o.pc p.addr | none => t
      else t.refuse w.port p
    (if isBulk p then u else (u.setInFlow { u.inFlow p with expected := (p.seq + 1) % 2 ^ 32 }).acknowledge w.port p p.seq).receiveBehind
      f.behind

/-! ### Acknowledgements (R315, R318) -/

/-- A kept packet that has been acknowledged: the round trip is sampled (R368), its unit or end has been applied at the target; a stopped
operation hears of it when it goes on (R253, R256). -/
def State.released (s : State) (port : Option Nat) (k : Kept) : State :=
  let s := match port, k.sentAt with | some x, some t => s.record (portDie x) 3 x (s.ran - t) | _, _ => s
  match k.op.bind s.opAt with
  | none => s
  | some o => if !ownPacket k.packet then s else if s.opDefers o then s.defer o 0 k.packet else s.ownApplied o k.packet k.unit

/-- ACK (R315): every packet up to a SEQ is released; a refusal among them lets the refused packet be acknowledged. -/
def execAck (p : Packet) (port : Nat) (s : State) : Result :=
  if !s.heard port p then .next (s.unheard port p)
  else
    let f := s.outFlow (backFlow p)
    let gone := f.kept.filter fun k => seqReached k.packet.seq p.aux.toNat
    let t := if gone.isEmpty then s else s.setOutFlow { f with kept := f.kept.filter fun k => !seqReached k.packet.seq p.aux.toNat }
    let u := gone.foldl (fun s k => s.released f.port k) t
    .next (if gone.any fun k => k.holds.isSome then u.acknowledge port p (((u.inFlow p).expected + 2 ^ 32 - 1) % 2 ^ 32) else u)

/-- NAK (R315): the flow again, in order, from a SEQ. -/
def execNak (p : Packet) (port : Nat) (s : State) : Result :=
  if !s.heard port p then .next (s.unheard port p)
  else
    let f := s.outFlow (backFlow p)
    match s.flowPort f with
    | some x => .next (s.resend f.key x (f.kept.filter fun k => seqReached p.aux.toNat k.packet.seq))
    | none => .next s

/-- DROPNOTE (R318): a bulk packet was dropped; its bytes are owed, and a reservation is asked for. -/
def execDropnote (p : Packet) (port : Nat) (s : State) : Result :=
  if !s.heard port p then .next (s.unheard port p)
  else
    match s.xferOp p.ctx p.xfer with
    | none => .next s
    | some o =>
      let u := o.unitAt p.aux.toNat
      match o.kind with
      | .fbulk _ _ _ _ _ =>
        if u < o.pc || o.acked.contains u || o.owed.contains u then .next s
        else
          let t := s.updOp o.id fun o => { o with owed := o.owed ++ [u] }
          match t.opAt o.id with
          | some x => .next (if x.resv == .idle && x.grant.isNone && !t.opStopped x then t.askReserve x else t)
          | none => .next t
      | _ => .next s

/-! ### Packets of a flow -/

/-- A packet event acts where the packet is of its kind. -/
def State.onPacket (s : State) (fits : Bool) (port : Nat) (p : Packet) : Result :=
  .next (if !s.heard port p then s.unheard port p else if fits then s.receive port p else s)

/-- Whether a packet is an error response. -/
def isError (p : Packet) : Bool := p.resp && p.op == errorOp

/-- PUT (R314, R318). -/
def execPut (p : Packet) (port : Nat) (dropIt : Bool) (s : State) : Result :=
  if isBulk p then .next (if s.heard port p then s.receiveBulk port p dropIt else s.unheard port p)
  else s.onPacket (p.kind == 0 && !p.resp) port p
/-- SPUT (R314, R317). -/
def execSput (p : Packet) (port : Nat) (s : State) : Result := s.onPacket (p.kind == 1 && !p.resp) port p
/-- GET (R312, R314). -/
def execGet (p : Packet) (port : Nat) (s : State) : Result := s.onPacket (p.kind == 2 && !p.resp) port p
/-- GET_RESPONSE (R168). -/
def execGetResponse (p : Packet) (port : Nat) (s : State) : Result := s.onPacket (p.kind == 2 && p.resp && !isError p) port p
/-- ATOM (R169). -/
def execAtom (p : Packet) (port : Nat) (s : State) : Result := s.onPacket (p.kind == 3 && !p.resp) port p
/-- ATOM_RESPONSE (R169). -/
def execAtomResponse (p : Packet) (port : Nat) (s : State) : Result := s.onPacket (p.kind == 3 && p.resp && !isError p) port p
/-- RED_RESULT (R170, R321). -/
def execRedResult (p : Packet) (port : Nat) (s : State) : Result := s.onPacket (p.kind == 4 && p.resp && !isError p) port p
/-- REMOTE_ERROR_RESPONSE (R139, R308). -/
def execRemoteErrorResponse (p : Packet) (port : Nat) (s : State) : Result := s.onPacket (isError p) port p
/-- COH_RD (R324). -/
def execCohRd (p : Packet) (port : Nat) (s : State) : Result := s.onPacket (p.kind == 5 && p.op == 0) port p
/-- COH_RDX (R324). -/
def execCohRdx (p : Packet) (port : Nat) (s : State) : Result := s.onPacket (p.kind == 5 && p.op == 1) port p
/-- COH_WB (R324). -/
def execCohWb (p : Packet) (port : Nat) (s : State) : Result := s.onPacket (p.kind == 5 && p.op == 2) port p
/-- COH_SNP (R324). -/
def execCohSnp (p : Packet) (port : Nat) (s : State) : Result := s.onPacket (p.kind == 5 && p.op == 3) port p
/-- COH_DATA (R324). -/
def execCohData (p : Packet) (port : Nat) (s : State) : Result := s.onPacket (p.kind == 5 && p.op == 4) port p
/-- COH_ERR (R270). -/
def execCohErr (p : Packet) (port : Nat) (s : State) : Result := s.onPacket (p.kind == 5 && p.op == 5) port p
/-- COH_GONE (R324). -/
def execCohGone (p : Packet) (port : Nat) (s : State) : Result := s.onPacket (p.kind == 5 && p.op == 6) port p
/-- RESV_REQUEST (R319). -/
def execResvRequest (p : Packet) (port : Nat) (s : State) : Result := s.onPacket (p.kind == 6 && p.op == 0) port p
/-- RESV_GRANT (R318). -/
def execResvGrant (p : Packet) (port : Nat) (s : State) : Result := s.onPacket (p.kind == 6 && p.op == 1) port p
/-- RESV_REFUSAL (R318). -/
def execResvRefusal (p : Packet) (port : Nat) (s : State) : Result := s.onPacket (p.kind == 6 && p.op == 2) port p
/-- BULKACK (R318). -/
def execBulkack (p : Packet) (port : Nat) (s : State) : Result := s.onPacket (p.kind == 7 && p.op == 3) port p
/-- BULKEND (R318). -/
def execBulkend (p : Packet) (port : Nat) (s : State) : Result := s.onPacket (p.kind == 7 && p.op == 4) port p

/-! ### Timers (R315, R318, R319) -/

/-- RESV_RETRY_TIMER (R318): 10 µs after a refusal the source asks again. -/
def execResvRetryTimer (xfer : Nat) (s : State) : Result :=
  match s.ops.find? fun o => o.cls == 3 && o.xfer == xfer && o.status == .active && !o.owed.isEmpty with
  | some o =>
    match o.resv with
    | .refused t => .next (if t + 10000 ≤ s.ran && !s.opStopped o then s.askReserve o else s)
    | _ => .next s
  | none => .next s

/-- RESV_GRANT_EXPIRY (R319). -/
def execResvGrantExpiry (grant : Nat) (s : State) : Result :=
  .next { s with fab := { s.fab with grants := s.fab.grants.filter fun g => !(g.id == grant && decide (g.til ≤ s.ran)) } }

/-- FLOW_PORT_TIMEOUT (R315): a flow without a working port for 1 ms fails its operations with FABRIC. Its packets stay until they are
acknowledged. -/
def execFlowPortTimeout (flow : Nat) (s : State) : Result :=
  match s.fab.outflows[flow]? with
  | none => .next s
  | some f =>
    match f.lost with
    | none => .next s
    | some since =>
      if s.ran < since + 1000000 || (portFor s f.dst f.tc f.dom).isSome then .next s
      else
        let t := s.setOutFlow { f with lost := none }
        let hit := t.ops.filter fun o => o.cls == 3 && o.status == .active && t.opFlow o == some f.key
        .next (hit.foldl (fun s o => s.opFail o failFabric o.pc 0) t)

/-! ### In-switch reduction (R234, R321, R322) -/

/-- The combination of two values (R170, R234). -/
def redCombine (code : Nat) (x y : Word) : Word :=
  match code with
  | 0 => add32 x y
  | 1 => x + y
  | _ => max32 x y

/-- The combination of two lists of values. -/
def redBytes (code : Nat) : Nat → List Byte → List Byte → List Byte
  | 0, _, _ => []
  | n + 1, xs, ys =>
    bytesLE 4 (redCombine code (BitVec.ofNat 32 (natLE (xs.take 4))) (BitVec.ofNat 32 (natLE (ys.take 4)))).toNat ++
      redBytes code n (xs.drop 4) (ys.drop 4)

/-- Whether two nodes belong to one reduction, to one tree of it. -/
def RedNode.sameRed (a b : RedNode) : Bool := a.ctx == b.ctx && a.group == b.group && a.number == b.number
def RedNode.sameTree (a b : RedNode) : Bool := a.sameRed b && a.off == b.off

/-- The ranks below n that a node covers. -/
def RedNode.ranks (x : RedNode) (n : Nat) : List Nat :=
  (List.range n).filter fun r => decide (x.index * 2 ^ x.level ≤ r) && decide (r < (x.index + 1) * 2 ^ x.level)

/-- A node goes up as far as the nodes at the switch let it: past an empty sibling unchanged, with its sibling combined; at the top it
is the result (R321). Nothing is left where it came to the top. -/
def climbTree (n : Nat) : Nat → List RedNode → RedNode → List RedNode × Option RedNode
  | 0, ns, x => (ns ++ [x], none)
  | fuel + 1, ns, x =>
    if n ≤ 2 ^ x.level then (ns, some x)
    else
      let other := if x.index % 2 = 0 then x.index + 1 else x.index - 1
      if n ≤ other * 2 ^ x.level then climbTree n fuel ns { x with level := x.level + 1, index := x.index / 2 }
      else
        match ns.find? fun y => y.sameTree x && y.level == x.level && y.index == other with
        | none => (ns ++ [x], none)
        | some y =>
          let lo := if x.index % 2 = 0 then x else y
          let hi := if x.index % 2 = 0 then y else x
          let z := { lo with level := x.level + 1, index := x.index / 2, data := redBytes x.code (x.data.length / 4) lo.data hi.data,
                             members := lo.members ++ hi.members }
          climbTree n fuel (ns.filter fun w => w != y) z

/-- The package and context of every member of a group of n: of a rank whose contribution the switch has met, the source of that
(R321; log 45, DESIGN CHOICE). -/
def groupMembers (ctx group n : Nat) (known : List (Nat × Nat × Nat)) : List (Nat × Nat) :=
  (List.range n).map fun r =>
    match known.find? fun m => m.1 == r with
    | some m => m.2
    | none => Config.groupMember ctx group r

/-- A packet from the switch to members of a reduction (R321, R322). -/
def State.toMembers (s : State) (port : Nat) (ms : List (Nat × Nat)) (p : Packet) : State :=
  ms.eraseDups.foldl (fun s m => s.emit (.packet port { p with resp := true, src := p.dst, sctx := p.ctx, dst := m.1, ctx := m.2 })) s

/-- A node that comes to the switch in a RED packet (R312, R321). -/
def redNode (p : Packet) : RedNode :=
  let a := p.aux.toNat
  let x : RedNode :=
    { ctx := p.ctx, group := p.xfer % 4096, number := a / 65536, off := p.addr.toNat % 2 ^ 32, level := a / 4096 % 16, index := a % 4096,
      code := p.op, total := p.addr.toNat / 2 ^ 32, data := p.data, members := [] }
  if x.level = 0 then { x with members := [(x.index, p.src, p.sctx)] } else x

/-- The RED packet of a node that the switch passes on: from the node's member, or from the switch where the node covers several. -/
def nodePacket (p : Packet) (z : RedNode) : Packet :=
  { p with aux := BitVec.ofNat 32 (z.number * 65536 + z.level * 4096 + z.index), data := z.data }

/-- A failed reduction hears of further ranks; it is forgotten once all n have contributed (R322). -/
def State.noteFailed (s : State) (x : RedNode) (n : Nat) (seen : List Nat) : State :=
  let others := s.fab.failedReds.filter fun f => !(f.ctx == x.ctx && f.group == x.group && f.number == x.number)
  let all := (seen ++ x.ranks n).eraseDups
  let mine := if n ≤ all.length then [] else [{ ctx := x.ctx, group := x.group, number := x.number, seen := all }]
  { s with fab := { s.fab with failedReds := others ++ mine } }

/-- RED (R321, R322): a switch combines nodes; one that does not form the root passes each on toward ROOT as it comes (log 45, DESIGN
CHOICE). The members of a reduction that disagree all get an error, also those that contribute later (log 31, DEDUCED). -/
def execRed (p : Packet) (port : Nat) (s : State) : Result :=
  if p.kind != 4 || p.resp then .next s
  else if !packetOk p then .next (s.unheard port p)
  else
    let x := redNode p
    let group := x.group
    match groupEntry s p.ctx group with
    | none => .next s
    | some (n, _, root) =>
      let wrong := { p with op := errorOp, data := [] }
      match s.fab.failedReds.find? fun f => f.ctx == x.ctx && f.group == x.group && f.number == x.number with
      | some f => .next ((s.noteFailed x n f.seen).toMembers port (x.members.map Prod.snd) wrong)
      | none =>
        let kin := s.fab.nodes.filter fun y => y.sameRed x
        if kin.any fun y => y.code != x.code || y.total != x.total then
          let t := { s with fab := { s.fab with nodes := s.fab.nodes.filter fun y => !kin.contains y } }
          .next ((t.noteFailed x n (kin.flatMap fun y => y.ranks n)).toMembers port
            (groupMembers x.ctx group n ((kin.flatMap RedNode.members) ++ x.members)) wrong)
        else if root ≠ Config.switchId % 4096 then
          let r := climbTree n 13 [] x
          .next (s.emit (.packet port (nodePacket p (match r.2 with | some z => z | none => r.1.headD x))))
        else
          let r := climbTree n 13 s.fab.nodes x
          let t := { s with fab := { s.fab with nodes := r.1 } }
          match r.2 with
          | none => .next t
          | some z =>
            .next (t.toMembers port (groupMembers x.ctx group n z.members)
              { p with aux := BitVec.ofNat 32 (x.number * 65536 + z.level * 4096), data := z.data })

/-! ### The units of every operation (R138, R140) -/

/-- The next unit of an operation of a local engine. -/
def State.localUnit (s : State) (o : Op) : UnitEnd :=
  match o.kind with
  | .bcopy d r n => s.copyUnit o d r n 1 0 0
  | .bcopy2d d r row rows ds ss => s.copyUnit o d r row rows ds ss
  | .blist list _ arr => s.listUnit o list arr
  | .bkick g => s.gatherUnit o g
  | .mma zero b ta tb row0 => s.mmaUnit o zero b ta tb row0
  | .mjob _ twin => match o.card with | some c => s.jobUnit o c twin | none => .wait s
  | .mfill b row0 add rows =>
    let ws := rows.getD o.pc []
    s.rowUnit o b (row0 + o.pc) fun old => if add then (old.zip ws).map fun p => add32 p.1 p.2 else ws
  | .mzero b row0 _ => s.rowUnit o b (row0 + o.pc) fun _ => List.replicate 32 0
  | .lattn _ _ arr => s.lattnUnit o arr
  | _ => .wait s

/-- Whether the unit at P_c is the last entry of a BLIST: its engine reads no more references (R217). -/
def Op.lastEntry (o : Op) : Bool := match o.kind with | .blist _ n _ => o.pc + 1 == n | _ => false

/-- ENGINE_UNIT_COMMIT (R138): the unit at P_c finishes and P_c passes it; a fabric operation sends its next packet, and P_c passes its
units as they are answered. A cancelled operation stops here (R140) (log 29, DEDUCED). -/
def execEngineUnitCommit (op : Nat) (s : State) : Result :=
  match s.opAt op with
  | none => .next s
  | some o =>
    let s := s.unplan (2 ^ 61 + op)
    if !s.opRuns o then .next s
    else if o.cls = 3 then .next (s.fabUnit o)
    else if o.cancelling && !o.midUnit then .next (s.opCancelled o)
    else if o.units ≤ o.pc then .next s
    else
      match o.kind with
      | .bkickAt ref => .next (s.endUnit o (s.requestRead o ref) id)
      | _ =>
        let seen := { o with ps := max o.ps (o.pc + 1) }
        .next ((s.updOp op fun _ => seen).endUnit seen ((s.updOp op fun _ => seen).localUnit seen) fun t =>
          let u := t.updOp op fun x => { x with pc := x.pc + 1, ps := max x.ps (x.pc + 1) }
          if o.lastEntry then u.freeWindows o.launch else u)

end Sys2Proof.Machine
end

