-- ==== Sys2Proof/Machine/Gangs.lean ====
section
/-!
DEFINITION. Sys2Proof/Machine/Gangs.lean: gangs between their chains: results and synchronous instructions that finish (R26, R136, R148),
parks, sleeps, supersteps and holds that end (R67, R71, R76, R130, R206, R248), placement, pre-emption and restore (R203, R218, R253 to
R257, R275 to R277, R362), suspension of a context (R256).
-/

namespace Sys2Proof.Machine

/-! ### Results and services that finish -/

/-- LOOKAHEAD_RESULT_COMMIT (R26, R28): windows that have counted all their instructions close. A window whose class 7 flags call for a
trap closes as the next instruction issues, which takes the trap (R229) (log 11, DEDUCED). -/
def execLookaheadResultCommit (gang : Nat) (s : State) : Result :=
  .next (s.updGang gang fun g =>
    g.closeWhere g.liveMask (fun w => w.left == 0 && w.flags &&& g.fptrap == 0) fun w => w.left == 0)

/-- The same for the die that a gang stands on. -/
def State.lampsFor (s : State) (key : Nat) : Bool := s.lampsOn (dieOf (s.gangAt key).core)

/-- Whether an agent that runs holds the ticket of a gang's service (R181, R206, R248). -/
def State.served (s : State) (key : Nat) : Bool := s.works (dieOf (s.gangAt key).core) (.service key)

/-- STACK_SERVICE_DONE (R205, R206): the spill or fill is done; a snuff that waited for it strikes. -/
def execStackServiceDone (gang : Nat) (s : State) : Result :=
  .next (if (s.gangAt gang).service && s.served gang then
      (((s.writeSpills gang).endService gang).updGang gang fun g => { g with service := false }).strikeMarked gang
    else s)

/-- Rows of a bank as a drain delivers them: lane c receives column c (R148, R336). -/
def Gang.drainRows (g : Gang) (lanes : LaneMask) (t : Nat) (row : Nat → List Word) (n : Nat) : Gang :=
  (List.range n).foldl (fun g i =>
    let ws := row i
    g.updLanes lanes fun l x => x.setV (t + i) (ws.getD l 0)) g

/-- Drain cycles of a drain, `n` of them from row `first` of its rows on: the port reads a row whole, its lanes get it, and with `.clr` it
becomes 0 (R148, R336). -/
def State.drainCycles (s : State) (key : Nat) (lanes : LaneMask) (bank row0 t : Nat) (clear : Bool) (first n : Nat) : State :=
  let dome := domeOf (s.gangAt key).core
  let k := s.bankAt dome bank
  let s := s.updGang key fun g => g.drainRows lanes (t + first) (fun i => k.row (row0 + first + i)) n
  if clear then
    s.updBank dome bank fun k => (List.range n).foldl (fun k i => k.setRow (row0 + first + i) (List.replicate 32 0)) k
  else s

/-- What a synchronous instruction leaves as it finishes (R136, R148, R164, R172): of a drain, the rows that the port has not read yet. -/
def State.finishSync (s : State) (key : Nat) (y : SyncOp) : State :=
  match y.kind with
  | .result reg v => s.updGang key fun g => g.setS reg v
  | .mdrain bank row0 n t clear => s.drainCycles key y.lanes bank row0 t clear y.rows (n - y.rows)

/-- Whether another gang's drain holds the drain port of a gang's dome, or comes before that of the gang (R336). -/
def State.portTaken (s : State) (key : Nat) : Bool :=
  let mine := (s.gangAt key).syncs.head?
  s.gangs.any fun kg =>
    kg.1 != key && domeOf kg.2.core == domeOf (s.gangAt key).core &&
      (match kg.2.syncs.head?, mine with
       | some y, some z => y.bank.isSome && (decide (0 < y.rows) || (z.rows == 0 && y.first z))
       | _, _ => false)

/-- One cycle of the drain port on the oldest drain of a gang, its last row apart, which the instruction's finish reads (R336) (log 29, DEDUCED). -/
def State.drainCycle (s : State) (gang : Nat) : State :=
  match (s.gangAt gang).syncs with
  | [] => s
  | y :: ys =>
    match y.kind with
    | .mdrain bank row0 n t clear =>
      if n ≤ y.rows + 1 || s.portTaken gang then s
      else
        (s.drainCycles gang y.lanes bank row0 t clear y.rows 1).updGang gang fun g =>
          { g with syncs := { y with rows := y.rows + 1 } :: ys }
    | .result _ _ => s

/-- Whether a synchronous instruction can finish: a drain needs the port (R336). -/
def State.canFinish (s : State) (gang : Nat) (y : SyncOp) : Bool :=
  match y.kind with
  | .mdrain _ _ _ _ _ => !s.portTaken gang
  | .result _ _ => true

/-- SYNCHRONOUS_INSTRUCTION_FINISH (R136): the oldest one in progress finishes and its lane group goes on; a snuff that waited for it
strikes (R141). -/
def execSynchronousInstructionFinish (gang : Nat) (s : State) : Result :=
  match (s.gangAt gang).syncs with
  | [] => .next s
  | y :: ys =>
    if !s.canFinish gang y then .next s
    else
    let t := s.finishSync gang y
    let wakeLane := fun (_ : Nat) (x : Lane) =>
      match x.wait with
      | .engine resume => { x with wait := .ready, pc := resume }
      | _ => x
    .next ((t.updGang gang fun g => { g.updLanes y.lanes wakeLane with syncs := ys }).strikeMarked gang)

/-! ### Parks, sleeps, supersteps, holds -/

/-- SVC_RING_ROOM (R67): a parked SVC writes its record once the ring has room (log 26, DEDUCED). -/
def execSvcRingRoom (gang : Nat) (s : State) : Result :=
  match (s.gangAt gang).park with
  | some (.svcRoom num lanes pc words) => .next (s.svcWrite gang num pc lanes words)
  | _ => .next s

/-- A park whose cause is served: the gang waits for its place (R248). `st` is its STATE of R356. -/
def State.servePark (s : State) (key st : Nat) : State :=
  (s.updGang key fun g => { g with park := some (.served st) }).postService key true

/-- A parked ENQ.PARK ends with a status (R76, R185). -/
def State.endEnq (s : State) (key reg : Nat) (status : Word) : State :=
  (s.updGang key fun g => g.setS reg status).servePark key 4

/-- ENQ_PARK_ROOM (R76): a parked ENQ.PARK writes its packet once the store and the ring have room. -/
def execEnqParkRoom (gang : Nat) (s : State) : Result :=
  match (s.gangAt gang).park with
  | some (.enq reg queue image) =>
    let q := s.queueAt queue
    if !s.lampsFor gang || s.jobWaits (.service gang) || !q.openTo (s.ctxNum gang) || !s.enqRoom queue then .next s
    else
      match s.enqueue queue (s.gangAt gang).launch (2 ^ 62) image with
      | .ok t => .next (t.endEnq gang reg 0)
      | .error (.page, va) => .next (s.jobFault (.service gang) q.ctx va .write)
      | .error (.prot, va) => .next (s.fatal gang causeProt ((s.gangAt gang).lane 0).pc 0 va)
      | .error (.wait, va) => .next ((s.unplan (2 ^ 62)).askLine (s.slotAgent q (2 ^ 62)) va true none)
      | .error _ => .next s
  | _ => .next s

/-- SLEEP_TIMEOUT (R130): lanes whose time has come go on with reason 0. -/
def execSleepTimeout (gang : Nat) (s : State) : Result :=
  let g := s.gangAt gang
  let due := g.sleptOut s.now
  .next (if g.place == .saved || due = 0 then s else s.setGang gang (g.endSleep due 0))

/-- SNUFF_HOLD_EXPIRY (R71): a hold whose time has come ends; a snuff that waits for it strikes. -/
def execSnuffHoldExpiry (gang : Nat) (s : State) : Result :=
  match (s.gangAt gang).hold with
  | some h => .next (if h.til ≤ s.now then s.endHold gang else s)
  | none => .next s

/-- The gangs that take part in the superstep of a group: its live members outside wrap-up (R130). -/
def State.stepMembers (s : State) (launch group : Nat) : List Nat :=
  (s.gangsOf launch).filter fun k => (s.gangAt k).inGroup group && !(s.gangAt k).wrap

/-- Whether a gang has arrived at the superstep of a group in a step: a saved one that has still to pass the step before has not. -/
def Gang.arrived (g : Gang) (group step : Nat) : Bool :=
  g.stepOf group == step && (List.range 32).any fun l => (g.lane l).atStep group

/-- MERIDIAN_RELEASE (R130): every participant has arrived and, at the end of an odd step, their COPY and FAB operations of that step
have retired; a saved one passes as it is restored (R134). -/
def execMeridianRelease (launch group : Nat) (s : State) : Result :=
  let ms := s.stepMembers launch group
  match (s.launchAt launch).groups.find? fun g => g.index == group with
  | none => .next s
  | some st =>
    let arrived := ms.all fun k => (s.gangAt k).arrived group st.step
    let busy := st.step % 2 == 1 && s.ops.any fun o => ms.contains o.gang && (o.cls == 0 || o.cls == 3) && o.steps.contains (group, st.step)
    if ms.isEmpty || !arrived || busy then .next s
    else
      let t := ms.foldl (fun s k => s.updGang k fun g => if g.place == .saved then g else g.passStep group) s
      .next (t.updLaunch launch fun l =>
        { l with groups := l.groups.map fun g => if g.index = group then { g with step := g.step + 1 } else g })

/-! ### Room on a core (R203, R274 to R277) -/

/-- Whether a launch may use a die (R178, R267). -/
def State.mayUse (s : State) (l : Launch) (die : Nat) : Bool :=
  decide (die < 4) && !(s.dieAt die).fenced && (die == l.die || l.pkt.flags.getLsbD 2)

/-- Bytes of a local bank. -/
def localBank : Nat := 131072

/-- Scratchpad banks that gangs of a code object need (R275). -/
def scrNeed (scratch : Nat) : Nat := max 12 ((scratch + localBank - 1) / localBank)

/-- An empty core's banks for a launch: the needed scratchpad banks, 4 operand-buffer banks, the rest cache (R275) (log 25, DEDUCED). -/
def Core.fitted (c : Core) (need : Nat) : Option Core :=
  let working := 32 - c.retired.length
  if need + 5 ≤ working then some { c with cache := working - need - 4, scr := need, opb := 4 } else none

/-- The windows that stand on a core: base and size (R217, R276). -/
def State.windowsOn (s : State) (core : Nat) : List (Nat × Nat) :=
  (s.gangs.filter fun kg =>
    kg.2.core == core && !kg.2.lamp && !kg.2.windowFreed && kg.2.scratchSize != 0 && kg.2.place != .unplaced && kg.2.place != .saved).map
      fun kg => (kg.2.scratchBase, kg.2.scratchSize)

/-- The lowest 64-byte aligned place for n bytes in a space of `limit` bytes that no window holds (R276). -/
def firstFit (n limit : Nat) (ws : List (Nat × Nat)) : Option Nat :=
  let free := fun (b : Nat) => decide (b + n ≤ limit) && ws.all fun w => decide (b + n ≤ w.1) || decide (w.1 + w.2 ≤ b)
  let starts := 0 :: ws.map fun w => (w.1 + w.2 + 63) / 64 * 64
  (starts.filter free).foldl (fun m b => match m with | none => some b | some a => some (min a b)) none

/-- Registers that the issuing gangs of a core hold at every lane position, and how many gangs they are (R203). -/
def State.coreLoad (s : State) (core : Nat) : Nat × Nat :=
  let gs := (s.gangs.filter fun kg => !kg.2.lamp && kg.2.place == .resident core).map Prod.snd
  (gs.foldl (fun n g => n + 8 + g.dstack) 0, gs.length)

/-- Whether a core has a slot and registers for one more gang (R203) (log 25, DEDUCED). -/
def State.slotFor (s : State) (core : Nat) (g : Gang) : Bool :=
  let load := s.coreLoad core
  decide (load.2 < 24) && decide (load.1 + 8 + g.dstack ≤ 3000)

/-- Whether the banks that a saved gang and its twin jobs hold are free on a core's dome and its partner (R254). -/
def State.banksFree (s : State) (core : Nat) (g : Gang) : Bool :=
  (g.savedBanks.all fun b => (s.bankAt (domeOf core) b.1).owner.isNone) &&
    g.savedPartners.all fun b => (s.bankAt (domeOf (partnerCore core)) b.2.1).owner.isNone

/-- The room of a core for a gang: the place of its window, and the core's banks as they then are. A core with a bank under test takes
no new gang (R265). -/
def State.roomOn (s : State) (core : Nat) (g : Gang) : Option (Nat × Core) :=
  let c := s.coreAt core
  let l := s.launchAt g.launch
  let need := scrNeed l.code.scratch
  if 192 ≤ core || !s.mayUse l (dieOf core) || !c.testing.isEmpty || !s.slotFor core g || !s.banksFree core g then none
  else
    let roles :=
      if need ≤ c.scr && 4 ≤ c.opb then some c
      else if (s.gangsOn core).isEmpty && (s.windowsOn core).isEmpty then c.fitted need
      else none
    match roles with
    | none => none
    | some c' =>
      match firstFit g.scratchSize (c'.scr * localBank) (s.windowsOn core) with
      | some base => some (base, c')
      | none => none

/-- The requests for wicks of a restored gang's operations, at the tail of the Chandler's queue (R367). -/
def State.askAgain (s : State) (key : Nat) : State :=
  (s.ops.filter fun o => o.gang == key && o.wick == .notAsked && !o.reserves.isEmpty && o.status == .active && !o.cancelling).foldl
    (fun s o => s.askWick o.id o.reserves) s

/-- A gang takes its place on a core: a new gang begins, a saved one is restored. An empty dome is fused where the launch asks for it
and its cores have equal caches (R277) (log 25, DEDUCED). -/
def State.putOn (s : State) (key core : Nat) (room : Nat × Core) : State :=
  let g := s.gangAt key
  let d := domeOf core
  let four := (List.range 4).map fun k => 4 * d + k
  let empty := four.all fun c => (s.gangsOn c).isEmpty
  let s := if room.2 = s.coreAt core then s else (s.evictLines core fun _ => true).setCore core room.2
  let fused := (s.launchAt g.launch).pkt.flags.getLsbD 1 && four.all fun c => (s.coreAt c).cache == room.2.cache
  let s := if empty then s.setDome d { s.domeAt d with fused := fused } else s
  let s := s.updGang key fun g => { g with scratchBase := room.1 }
  if g.place == .saved then (s.loadGang key core).askAgain key
  else (s.updGang key fun g => { g with place := .resident core, core := core }).dropPlaced (s.launchAt g.launch).die

/-! ### The list of gangs that wait for a place (R362) -/

/-- Whether a gang waits for a place on a die. -/
def State.waitsFor (s : State) (die key : Nat) : Bool :=
  let g := s.gangAt key
  let l := s.launchAt g.launch
  !g.lamp && l.phase == .running && s.mayUse l die && !(s.ctxAt l.ctx).suspend && (g.place == .unplaced || g.place == .saved)

/-- The list of a die, in the order of R363. -/
def State.waitingList (s : State) (die : Nat) : List Nat := s.ranked ((s.gangs.map Prod.fst).filter (s.waitsFor die))

/-- The co-resident group of a gang (R216). -/
def State.batchGroup (s : State) (key : Nat) : Option Nat :=
  let g := s.gangAt key
  ((s.launchAt g.launch).groups.find? fun x => x.coresident && g.inGroup x.index).map GroupState.index

/-- The gangs that come and go with a gang: its co-resident group, or itself (R218). -/
def State.batchOf (s : State) (key : Nat) : List Nat :=
  match s.batchGroup key with
  | some group => (s.gangsOf (s.gangAt key).launch).filter fun k => (s.gangAt k).inGroup group
  | none => [key]

/-- A core that has taken a gang goes to the end of the cores to try. -/
def usedCore (cores : List Nat) (c : Nat) : List Nat := cores.erase c ++ [c]

/-- Whether a gang has no place on a core. -/
def Gang.offCore (g : Gang) : Bool := g.place == .unplaced || g.place == .saved

/-- Seat the gangs of a list that stand on no core one after the other, each on the first of some cores that has room; nothing when one
finds none (R254) (log 25, DEDUCED). -/
def State.seat (s : State) (cores : List Nat) : List Nat → Option State
  | [] => some s
  | k :: ks =>
    if !(s.gangAt k).offCore then s.seat cores ks
    else
      match cores.findSome? fun c => (s.roomOn c (s.gangAt k)).map fun r => (c, r) with
      | none => none
      | some (c, r) => (s.putOn k c r).seat (usedCore cores c) ks

/-- The cores of a die, those that the event prefers first; the choice affects timing only (R362). -/
def coresFrom (die : Nat) (pref : List Nat) : List Nat :=
  pref.filter (fun c => dieOf c == die) ++ (List.range 48).map fun k => 48 * die + k

/-- The first entry of a die's list that finds room, and the package with it seated. A co-resident batch that waits at the head blocks
its class and lower ones. -/
def State.firstSeat (s : State) (cores : List Nat) : Bool → Option Nat → List Nat → Option (List Nat × State)
  | _, _, [] => none
  | head, block, k :: ks =>
    let cls := (s.launchOf k).pkt.cls
    let barred := match block with | some b => decide (cls ≤ b) | none => false
    let batch := s.batchOf k
    if barred then s.firstSeat cores false block ks
    else
      match s.seat cores batch with
      | some t => some (batch, t)
      | none => s.firstSeat cores false (if head && (s.batchGroup k).isSome then some cls else block) ks

/-- The gangs of a die's list that find room, each after those before it; a co-resident batch that waits at the head bars its class and
lower ones (R362) (log 25, DEDUCED). -/
def State.seatable (s : State) (cores : List Nat) : Bool → Option Nat → List Nat → List Nat
  | _, _, [] => []
  | head, block, k :: ks =>
    let cls := (s.launchOf k).pkt.cls
    let barred := match block with | some b => decide (cls ≤ b) | none => false
    if barred then s.seatable cores false block ks
    else
      match s.seat cores (s.batchOf k) with
      | some t => k :: t.seatable cores false block ks
      | none => s.seatable cores false (if head && (s.batchGroup k).isSome then some cls else block) ks

/-- A new gang takes a place on a die now, where every gang that stands before it in the die's list keeps the room that it can have (R362)
(log 25, DEDUCED) (log 24, DEDUCED). -/
def State.seatNew (s : State) (key die : Nat) (pref : List Nat) : Option State :=
  let cores := coresFrom die pref
  let list := s.waitingList die
  let before := list.takeWhile fun k => k != key
  if !list.contains key || !(s.seatable cores true none (before ++ [key])).contains key then none
  else
    let first := s.seatable cores true none before
    cores.findSome? fun c =>
      match s.seat [c] [key] with
      | some t => if t.seatable cores true none before = first then some t else none
      | none => none

/-- Whether every gang of a list is new. -/
def State.allNew (s : State) (ks : List Nat) : Bool := ks.all fun k => (s.gangAt k).place == .unplaced

/-- Whether an agent that runs holds the placement ticket of a gang (R181). -/
def State.placing (s : State) (key : Nat) : Bool :=
  let d := s.dieAt (s.launchOf key).die
  !d.fenced && d.tickets.any fun t =>
    match t.job, t.agent with
    | .placement first n, some c => decide (first ≤ key) && decide (key < first + n) && (s.coreAt c).slot == .running
    | _, _ => false

/-- Place gangs in order until none finds room, or a saved one or one whose ticket no agent holds stands before them. `n` bounds the
rounds (log 25, DEDUCED) (log 26, DEDUCED). -/
def State.placeAll (die : Nat) : Nat → List Nat → State → State
  | 0, _, s => s
  | n + 1, cores, s =>
    match s.firstSeat cores true none (s.waitingList die) with
    | some (batch, t) =>
      if s.allNew batch && batch.all s.placing then
        t.placeAll die n ((batch.map fun k => (t.gangAt k).core).foldl usedCore cores)
      else s
    | none => s

/-- GANG_PLACEMENT (R362): the Lamplighters of a die place new gangs that wait. -/
def execGangPlacement (die : Nat) (cores : List Nat) (s : State) : Result :=
  .next (if s.lampsOn die then s.placeAll die (s.waitingList die).length (coresFrom die cores) else s)

/-- GANG_RESTORE (R254, R362): a saved gang, with its co-resident group, goes back to cores with room when its turn has come. -/
def execGangRestore (gang : Nat) (cores : List Nat) (s : State) : Result :=
  let die := match cores with | c :: _ => dieOf c | [] => (s.launchOf gang).die
  if !s.lampsOn die then .next s
  else
    match s.firstSeat (coresFrom die cores) true none (s.waitingList die) with
    | some (batch, t) => .next (if batch.contains gang && (s.gangAt gang).place == .saved then t else s)
    | none => .next s

/-! ### Pre-emption (R253, R362) -/

/-- The gangs of a batch that stand on cores. -/
def State.onCoreBatch (s : State) (key : Nat) : List Nat := (s.batchOf key).filter fun k => (s.gangAt k).onCore

/-- Whether a gang and its co-resident group can be saved now (R218, R253, R256). -/
def State.canSaveBatch (s : State) (key : Nat) : Bool :=
  let b := s.onCoreBatch key
  b.all s.canSave &&
    (s.takePieces (s.ctxNum key) (b.foldl (fun n k => n + s.imagePieces k) 0)).isSome

/-- Save a gang with its co-resident group. -/
def State.saveBatch (s : State) (key : Nat) : State :=
  (s.onCoreBatch key).foldl (fun s k => if s.canSave k then s.saveGang k else s) s

/-- The order in which victims are taken: lowest class, most slack, youngest (R362). -/
def State.victimRank (s : State) (key : Nat) : List Int :=
  let g := s.gangAt key
  let l := s.launchAt g.launch
  match l.slack with
  | some t => [(l.pkt.cls : Int), 1, -t, -(g.born : Int)]
  | none => [(l.pkt.cls : Int), 0, 0, -(g.born : Int)]

/-- Put a gang into a list of victims. -/
def State.victimInsert (s : State) (key : Nat) : List Nat → List Nat
  | [] => [key]
  | k :: ks => if rankBefore (s.victimRank k) (s.victimRank key) then k :: s.victimInsert key ks else key :: k :: ks

/-- Whether a snuff hold is open (R71). -/
def Gang.holdOpen (g : Gang) (now : Nat) : Bool := match g.hold with | some h => decide (now < h.til) | none => false

/-- The gangs on some cores that a waiting gang may pre-empt: any outside wrap-up for a gang that goes into wrap-up, those of lower
classes for another; none with an open snuff hold (R362) (log 25, DEDUCED). -/
def State.victims (s : State) (cores : List Nat) (key : Nat) : List Nat :=
  let urgent := (s.gangAt key).wrapping
  let cls := (s.launchOf key).pkt.cls
  let may := fun k =>
    let b := s.batchOf k
    b.all fun v => !(s.gangAt v).wrapping && !(s.gangAt v).holdOpen s.now && (urgent || decide ((s.launchOf v).pkt.cls < cls))
  ((cores.flatMap s.gangsOn).eraseDups.filter may).foldl (fun ks k => s.victimInsert k ks) []

/-- Save victims in order until a test holds; nothing when it never does (log 25, DEDUCED). -/
def State.makeRoom (s : State) (fits : State → Bool) : List Nat → Option State
  | [] => if fits s then some s else none
  | v :: vs =>
    if fits s then some s
    else if (s.gangAt v).place != .saved && s.canSaveBatch v then (s.saveBatch v).makeRoom fits vs
    else s.makeRoom fits vs

/-- PREWAIT in force, in ns (R352). -/
def State.prewaitTime (s : State) : Nat := 1000 * max 1 s.pkg.prewait

/-- Whether a waiting gang may pre-empt now: it has stood PREWAIT at the head of its die's list, or it goes into wrap-up (R362). -/
def State.mayPreempt (s : State) (die key : Nat) : Bool :=
  (s.gangAt key).wrapping ||
    (match (s.dieAt die).headSince with
     | some (h, since) => h == key && (s.waitingList die).head? == some key && decide (since + s.prewaitTime ≤ s.ran)
     | none => false)

/-- PREWAIT_EXPIRY (R362): the first gang of a die's list that may pre-empt and can get room: gangs are pre-empted until it finds it. -/
def execPrewaitExpiry (die : Nat) (s : State) : Result :=
  if !s.lampsOn die then .next s
  else
    let cores := coresFrom die []
    let room := fun k => s.makeRoom (fun t : State => (t.seat cores (t.batchOf k)).isSome) (s.victims cores k)
    .next ((((s.waitingList die).filter (s.mayPreempt die)).findSome? room).getD s)

/-- GANG_UNPARK (R248, R355): a gang whose park is served goes back to its slot once its core has room; one in wrap-up pre-empts for
it. -/
def execGangUnpark (gang : Nat) (s : State) : Result :=
  let g := s.gangAt gang
  let back := fun t : State =>
    (t.endService gang).updGang gang fun g => { g with place := .resident g.core, park := none }
  match g.place, g.park with
  | .parked core, some (.served _) =>
    if !s.served gang || (s.launchAt g.launch).phase != .running then .next s
    else if s.slotFor core g then .next (back s)
    else if g.wrap then
      match s.makeRoom (fun t => t.slotFor core g) ((s.victims [core] gang).filter fun v => v != gang) with
      | some t => .next (back t)
      | none => .next s
    else .next s
  | _, _ => .next s

/-! ### Suspension (R256) -/

/-- The gangs of a context that stand on cores. -/
def State.onCores (s : State) (ctx : Nat) : List Nat :=
  (s.gangs.filter fun kg =>
    !kg.2.lamp && (s.launchAt kg.2.launch).ctx == ctx && kg.2.onCore).map Prod.fst

/-- Save what can be saved of a context that is to be suspended, co-resident groups whole (R218); SUSPENDED once nothing of it stands on
a core, NOROOM while the pool lacks room for an image (log 13, DEDUCED). -/
def State.trySuspend (s : State) (ctx : Nat) : State :=
  let t := (s.onCores ctx).foldl (fun s k => if s.canSaveBatch k then s.saveBatch k else s) s
  let left := t.onCores ctx
  t.updCtx ctx fun c => { c with suspended := left.isEmpty, noroom := left.any fun k => !t.imageRoom k }

/-- SUSPEND (R256). -/
def execSuspend (ctx : Nat) (s : State) : Result :=
  .next (if (s.ctxAt ctx).suspend then s else (s.updCtx ctx fun c => { c with suspend := true }).trySuspend ctx)

/-- SUSPEND_CLEAR (R256). -/
def execSuspendClear (ctx : Nat) (s : State) : Result :=
  .next (s.updCtx ctx fun c => { c with suspend := false, suspended := false, noroom := false })

/-- Suspensions that had to wait go on. -/
def State.suspendMore (s : State) : State :=
  ((s.ctxs.filter fun kc => kc.2.suspend && !kc.2.suspended).map Prod.fst).foldl State.trySuspend s

/-- Each die notes since when the gang at the head of its list stands there (R362). -/
def State.noteHeads (s : State) : State :=
  (List.range 4).foldl (fun s d =>
    let head := (s.waitingList d).head?
    let same := match head, (s.dieAt d).headSince with
      | some k, some (h, _) => k == h
      | none, none => true
      | _, _ => false
    if same then s else s.updDie d fun x => { x with headSince := head.map fun k => (k, s.ran) }) s

end Sys2Proof.Machine
end

