-- ==== Sys2Proof/Machine/Lamps.lean ====
section
/-!
DEFINITION. Sys2Proof/Machine/Lamps.lean: the Lamplighters' work on queues and launches: intake (R175 to R177), the code object and the
packet at admission (R37 to R40, R178, R179, R182, R187, R361), completion and markers (R178, R180, R184), leases and reclaims (R181,
R271).
-/

namespace Sys2Proof.Machine

/-! ### Accesses of a Lamplighter -/

/-- How an attempt of a Lamplighter at memory ends: done, a missing translation, refused, or to be tried again. -/
inductive Tried (α : Type) where
  | ok (a : α)
  | page (va : DWord)
  | bad (s : State)
  | wait (s : State)

/-- The attempt, from how its accesses went. -/
def State.tried {α : Type} (s : State) (a : Agent) (k : Kind) (x : Except (AccCause × DWord) α) : Tried α :=
  match x with
  | .ok v => .ok v
  | .error (.page, va) => .page va
  | .error (.wait, va) => .wait ((s.unplan a.req).askLine a va k.writes none)
  | .error (.memerr, va) => .bad (s.eatError a va)
  | .error _ => .bad s

/-- Bytes of a context as a Lamplighter reads them. -/
def State.lampRead (s : State) (a : Agent) (va : DWord) (n : Nat) : Tried (List Byte) :=
  s.tried a .read (readRange s a va n)

/-- Bytes of a context as a Lamplighter writes them. -/
def State.lampWrite (s : State) (a : Agent) (va : DWord) (bs : List Byte) : Tried State :=
  s.tried a .write (writeRange s a va bs)

/-- The decrement of a signal, modulo 2^64 (R184). -/
def State.lampDecrement (s : State) (a : Agent) (va : DWord) : Tried State :=
  match s.tried a .atomic ((readGlobal s a va 8 .atomic).mapError fun c => (c, va)) with
  | .ok bs => s.tried a .atomic (writeRange s a va (bytesLE 8 ((natLE bs + 2 ^ 64 - 1) % 2 ^ 64)))
  | .page va => .page va
  | .bad t => .bad t
  | .wait t => .wait t

/-! ### Queues (R175, R177, R185) -/

/-- Whether a gang waits at ENQ.PARK for room in a queue, and its status register. -/
def Gang.waitsEnq (g : Gang) (queue : Nat) : Option Nat :=
  match g.park with
  | some (.enq reg q _) => if q = queue then some reg else none
  | _ => none

/-- A queue leaves ACTIVE, or breaks: packets that ENQ wrote and that stand in the ring are lost to their parents, and gangs that wait
for room in it resume with status 1 (R76, R175, R185) (log 23, DEDUCED). -/
def State.closeQueue (s : State) (queue : Nat) (st : QState) (reason : Nat) : State :=
  let q := s.queueAt queue
  let s := s.setQueue queue { q with state := st, reason := reason, enqueued := [] }
  let s := q.enqueued.foldl (fun s e => s.spawnDown e.parent) s
  s.gangs.foldl (fun s kg => match kg.2.waitsEnq queue with | some reg => s.endEnq kg.1 reg 1 | none => s) s

/-- The device stops an ACTIVE queue with a reason (R177) (log 23, DEDUCED). -/
def State.stopQueue (s : State) (queue reason : Nat) : State :=
  if (s.queueAt queue).state == .active then s.closeQueue queue .stopped reason else s

/-- A queue's vector (R175) (log 23, DEDUCED). -/
def State.sendVector (s : State) (queue : Nat) (code : Option Word) : State := s.emit (.vector queue (s.queueAt queue).vec code)

/-- Type and alignment of a packet at intake: the reason for which the queue stops, if there is one (R177 to R179). -/
def intakeReason (bs : List Byte) : Option Nat :=
  let t := field bs 0 1 / 2 % 8
  if t ≠ 1 && t ≠ 2 then some 1
  else if field bs 48 8 % 8 ≠ 0 || (t = 1 && field bs 56 8 % 16 ≠ 0) then some 2
  else none

/-- The fields of a launch packet (R178). -/
def PacketFields.ofBytes (bs : List Byte) : PacketFields :=
  { rscope := field bs 0 1 / 16 % 8, prio := field bs 1 1, flags := BitVec.ofNat 16 (field bs 2 2), seed := field bs 4 4,
    code := BitVec.ofNat 64 (field bs 8 8), snuffe := field bs 16 4, budget := field bs 20 4, deadline := field bs 24 8,
    estimate := field bs 32 4, stackBytes := (List.range 4).map fun k => field bs (36 + k) 1, karg := BitVec.ofNat 64 (field bs 40 8),
    signal := BitVec.ofNat 64 (field bs 48 8), vrec := BitVec.ofNat 64 (field bs 56 8) }

/-- Slack at a time, a signed 64-bit value; none is infinite (R360) (log 23, DEDUCED). -/
def PacketFields.slackAt (p : PacketFields) (now : Nat) : Option Int :=
  if p.deadline = 0 then none else some (BitVec.ofInt 64 ((p.deadline : Int) - now - p.estimate)).toInt

/-- Take a slot whose bytes have been read (R177 steps 2 and 3). -/
def State.takeSlot (s : State) (queue : Nat) (bs : List Byte) : State :=
  let q := s.queueAt queue
  let child := q.enqueued.find? fun e => e.index == q.ridx
  let p : Pending := { die := q.home, queue := queue, ctx := q.ctx, index := q.ridx, bytes := bs, parent := child.map Enqueued.parent,
                       intake := s.nextIntake, slack := (PacketFields.ofBytes bs).slackAt s.now, denied := none }
  let s := { s with nextIntake := s.nextIntake + 1 }
  let s := s.setQueue queue { q with ridx := q.ridx + 1, enqueued := q.enqueued.filter fun e => e.index != q.ridx }
  let s := { s with pendings := s.pendings ++ [p] }
  let s := if q.widx ≤ q.ridx + 1 then s.unpost q.home (.intake queue) else s
  if field bs 0 1 / 2 % 8 = 1 then s.post q.home (.admission p.intake) else s

/-- QUEUE_INTAKE (R177): the slot at RIDX, once it is VALID, goes into the pending-launch store, or stops the queue. An access that is
refused otherwise is tried again (log 23, DEDUCED). -/
def execQueueIntake (queue : Nat) (s : State) : Result :=
  let q := s.queueAt queue
  let entry := q.enqueued.any fun e => e.index == q.ridx
  if 1024 ≤ queue || !s.works q.home (.intake queue) || q.state != .active || q.widx ≤ q.ridx || (s.ctxAt q.ctx).suspend ||
      s.jobWaits (.intake queue) || (!entry && 4096 ≤ s.storeUsed q.home) then .next s
  else
    let va := q.slotAddr q.ridx
    let s := s.renew q.home (.intake queue)
    match s.lampRead (s.lampFor q.ctx q.home (.intake queue)) va 64 with
    | .page at_ => .next (s.jobFault (.intake queue) q.ctx at_ .read)
    | .bad t | .wait t => .next t
    | .ok bs =>
      let s := s.noteRange (s.lampFor q.ctx q.home (.intake queue)) va 64
      if !((bs.headD 0).getLsbD 0) then .next s
      else
        let reason := intakeReason bs
        match s.lampWrite (s.lampFor q.ctx q.home (.intake queue)) va [if reason.isSome then bs.headD 0 &&& 0xFE else 0] with
        | .page at_ => .next (s.jobFault (.intake queue) q.ctx at_ .write)
        | .bad t | .wait t => .next t
        | .ok t =>
          match reason with
          | some r => .next (((t.stopQueue queue r).unpost q.home (.intake queue)).sendVector queue none)
          | none => .next (t.takeSlot queue bs)

/-! ### The code object (R37 to R40) -/

/-- How a check at admission ends: passed, a translation is missing, failed, or to be tried again. -/
abbrev Checked (α : Type) := Tried α

/-- Go on with a check. -/
def Tried.bind {α β : Type} (x : Tried α) (f : α → Tried β) : Tried β :=
  match x with
  | .ok a => f a
  | .page va => .page va
  | .bad s => .bad s
  | .wait s => .wait s

/-- Whether a denied address lies on a page of a range. -/
def deniedIn (denied : Option DWord) (va : DWord) (n : Nat) : Bool :=
  match denied with
  | some d => decide (va.toNat / 65536 ≤ d.toNat / 65536) && decide (d.toNat / 65536 ≤ (va.toNat + n - 1) / 65536)
  | none => false

/-- Whether every byte of a range is mapped readable in a context (R40). -/
def State.mapped (s : State) (a : Agent) (denied : Option DWord) (va : DWord) (n : Nat) : Checked Unit :=
  if n = 0 then .ok ()
  else if deniedIn denied va n then .bad s
  else
    match rangeFault s a va n .read with
    | none => .ok ()
    | some (.page, at_) => .page at_
    | some (.wait, at_) => .wait ((s.unplan a.req).askLine a at_ false none)
    | some _ => .bad s

/-- The bytes of a range that must be mapped readable. -/
def State.mappedBytes (s : State) (a : Agent) (denied : Option DWord) (va : DWord) (n : Nat) : Checked (List Byte) :=
  (s.mapped a denied va n).bind fun _ => s.lampRead a va n

/-- A table of a code object: its extent lies behind the packets, ends within 2^32 bytes of the base, and is mapped (R40). -/
def State.tableBytes (s : State) (a : Agent) (denied : Option DWord) (base : DWord) (n off size : Nat) : Checked (List Byte) :=
  if size = 0 then .ok []
  else if off < 12 * n || 2 ^ 32 < off + size then .bad s
  else s.mappedBytes a denied (base + BitVec.ofNat 64 off) size

/-- The offset past the end of a name: its first zero byte is its last one (R40). `fuel` bounds the scan. -/
def State.nameEnd (s : State) (a : Agent) (denied : Option DWord) (base : DWord) (n : Nat) : Nat → Nat → Checked Nat
  | 0, _ => .bad s
  | fuel + 1, off =>
    (s.tableBytes a denied base n off 1).bind fun b => if b.headD 0 = 0 then .ok (off + 1) else s.nameEnd a denied base n fuel (off + 1)

/-- The offset past the last name that entries name, no less than a start. -/
def State.namesEnd (s : State) (a : Agent) (denied : Option DWord) (base : DWord) (n strings : Nat) : List Nat → Nat → Checked Nat
  | [], last => .ok last
  | name :: rest, last =>
    (s.nameEnd a denied base n (2 ^ 32 - (strings + name)) (strings + name)).bind fun e =>
      s.namesEnd a denied base n strings rest (max last e)

/-- The liveness records that region entries name (R38) (log 12, DEDUCED). -/
def State.regionRecords (s : State) (a : Agent) (denied : Option DWord) (base : DWord) (n : Nat) (table : List Byte) :
    Nat → Checked (List Region)
  | 0 => .ok []
  | k + 1 =>
    (s.regionRecords a denied base n table k).bind fun rs =>
      (s.tableBytes a denied base n (field table (8 * k + 4) 4) 40).bind fun bs =>
        .ok (rs ++ [{ packet := field table (8 * k) 4, v := BitVec.ofNat 64 (field bs 0 8), s := BitVec.ofNat 96 (field bs 8 12),
                      p := BitVec.ofNat 96 (field bs 20 12), j := BitVec.ofNat 16 (field bs 32 2),
                      q := BitVec.ofNat 16 (field bs 34 2), banks := field bs 36 1 % 2 == 1 }])

/-- The magic number of a code object (R37). -/
def codeMagic : Nat := 0x39484F43

/-- THE CHECK OF A CODE OBJECT (R37, R38, R40): what admission keeps of it (log 12, DEDUCED). -/
def State.checkCode (s : State) (a : Agent) (denied : Option DWord) (base : DWord) (seed snuffe : Nat) : Checked Code :=
  (s.mappedBytes a denied (base - 128) 128).bind fun h =>
    let w := fun (off : Nat) => field h off 4
    let n := w 8
    let table := s.tableBytes a denied base n
    if w 0 ≠ codeMagic || field h 4 2 ≠ 1 then .bad s
    else
      (table (w 12) (16 * w 16)).bind fun entries =>
      (table (w 56) (8 * w 60)).bind fun groups =>
      (table (w 20) (8 * w 24)).bind fun regions =>
      (s.regionRecords a denied base n regions (w 24)).bind fun records =>
      (if w 36 ≠ 0 && (w 32 < 12 * n || 2 ^ 32 < w 32 + w 36) then .bad s
       else s.mapped a denied (base + BitVec.ofNat 64 (w 32)) (w 36)).bind fun _ =>
      (s.namesEnd a denied base n (w 64) ((List.range (w 16)).map fun i => field entries (16 * i + 8) 4) (w 64)).bind fun last =>
      (table (w 64) (last - w 64)).bind fun _ =>
        if seed % 12 ≠ 0 || snuffe % 12 ≠ 0 || 12 * n ≤ seed || 12 * n ≤ snuffe then .bad s
        else
          let kind1 := (List.range (w 16)).filter fun i => field entries (16 * i + 4) 1 == 1
          let declare := fun (t : Table Bool) i =>
            let g := field groups (8 * i) 2
            if g < 256 then Table.put g (field groups (8 * i + 2) 1 % 2 == 1) t else t
          .ok { base := base, n := n, entries := kind1.map fun i => field entries (16 * i) 4, regions := records, scratch := w 44,
                stackBytes := (List.range 4).map fun k => field h (48 + k) 1, roles := w 52 % 16,
                groups := (List.range (w 60)).foldl declare [] }

/-- Cache the translations of the tables of a code object that has passed its check (R284). -/
def State.noteCode (s : State) (a : Agent) (base : DWord) : State :=
  let s := s.noteRange a (base - 128) 128
  match readRange s a (base - 128) 128 with
  | .error _ => s
  | .ok h =>
    let w := fun (off : Nat) => field h off 4
    let bytes := fun off n => match readRange s a (base + BitVec.ofNat 64 off) n with | .ok bs => bs | .error _ => []
    let entries := bytes (w 12) (16 * w 16)
    let regions := bytes (w 20) (8 * w 24)
    let records := (List.range (w 24)).map fun k => (field regions (8 * k + 4) 4, 40)
    let names := match s.namesEnd a none base (w 8) (w 64) ((List.range (w 16)).map fun i => field entries (16 * i + 8) 4) (w 64) with
      | .ok last => [(w 64, last - w 64)]
      | _ => []
    ([(w 12, 16 * w 16), (w 56, 8 * w 60), (w 20, 8 * w 24), (w 32, w 36)] ++ records ++ names).foldl
      (fun s x => s.noteRange a (base + BitVec.ofNat 64 x.1) x.2) s

/-! ### Packets at admission (R178, R179, R182, R187) -/

/-- Whether a pending packet is a launch packet; the others are markers (R177). -/
def Pending.isLaunch (p : Pending) : Bool := field p.bytes 0 1 / 2 % 8 == 1

/-- The FENCE bit. -/
def Pending.fence (p : Pending) : Bool := decide (128 ≤ field p.bytes 0 1)

/-- Whether every packet of the queue taken in before a packet has completed (R178). -/
def State.earlierDone (s : State) (p : Pending) : Bool :=
  (s.pendings.all fun q => !(q.queue == p.queue && decide (q.intake < p.intake))) &&
    s.launches.all fun kl => !(kl.2.queue == p.queue && kl.2.phase != .done && decide (kl.2.intake < p.intake))

/-- The candidates of a die: the oldest unadmitted launch packet of each queue, with its FENCE met; none of a suspended context
(R256, R361) (log 23, DEDUCED). -/
def State.candidates (s : State) (die : Nat) : List Pending :=
  let mine := s.pendings.filter fun p => p.die == die && p.isLaunch
  mine.filter fun p =>
    (mine.all fun q => !(q.queue == p.queue && decide (q.intake < p.intake))) && (!p.fence || s.earlierDone p) &&
      !(s.ctxAt p.ctx).suspend

/-- The rank of a candidate, by its slack as last computed (R360, R361) (log 23, DEDUCED). -/
def Pending.rank (p : Pending) : List Int :=
  let f := PacketFields.ofBytes p.bytes
  match p.slack with
  | some t => [7 - (f.cls : Int), 0, t, p.intake, p.queue]
  | none => [7 - (f.cls : Int), 1, 0, p.intake, p.queue]

/-- The candidate that comes first. -/
def topCandidate : List Pending → Option Pending
  | [] => none
  | p :: ps =>
    match topCandidate ps with
    | none => some p
    | some q => if rankBefore q.rank p.rank then some q else some p

/-- A packet leaves the store, and its launch comes into being with what its fields say (R182) (log 24, DEDUCED). -/
def State.openLaunch (s : State) (p : Pending) (f : Launch → Launch) : Nat × State :=
  let id := s.nextLaunch
  let pkt := PacketFields.ofBytes p.bytes
  let l : Launch :=
    { Launch.absent with
        phase := .running, ctx := p.ctx, die := p.die, queue := p.queue, index := p.index, intake := p.intake, parent := p.parent,
        pkt := pkt, steps := 0, slack := pkt.slackAt s.now, born := s.nextBorn }
  let gone := fun q : Pending => q.queue == p.queue && q.intake == p.intake
  let s := { s with pendings := s.pendings.filter (fun q => !gone q), nextLaunch := id + 1, nextBorn := s.nextBorn + 1 }
  (id, (s.setLaunch id (f l)).unpost p.die (.admission p.intake))

/-- A launch that runs no gang: only its completion is left (R179, R354, R40). -/
def State.closedLaunch (s : State) (p : Pending) (f : Launch → Launch) : State :=
  let r := s.openLaunch p f
  r.2.post p.die (.completion r.1)

/-- Whether a packet's parent is ended by a fatal fault of its own or of an ancestor (R258) (log 23, DEDUCED). -/
def State.doomed (s : State) (p : Pending) : Bool :=
  match p.parent with
  | some k => (s.launchAt k).lerr &&& 0x44 != 0
  | none => false

/-- Whether a candidate's deadline has come (R354). -/
def State.late (s : State) (p : Pending) : Bool :=
  let d := (PacketFields.ofBytes p.bytes).deadline
  d != 0 && decide (d ≤ s.now)

/-- Whether the deadline kill of a packet's parent, or of an ancestor, strikes it (R358). -/
def State.struck (s : State) (p : Pending) : Bool :=
  match p.parent with
  | some k => (s.launchAt k).phase == .killed
  | none => false

/-- Whether a packet completes at once and runs no gang: its parent's end strikes it, wherever it stands in its queue, or it is a candidate
whose deadline has come (R258, R354, R358, R361) (log 23, DEDUCED). -/
def State.endsAtOnce (s : State) (p : Pending) : Bool :=
  p.isLaunch && (s.doomed p || s.struck p || (s.late p && (s.candidates p.die).contains p))

/-- The reason for which a packet is refused, items apart (R179). -/
def State.refusalOf (s : State) (l : Launch) : Nat :=
  let f := l.pkt
  let c := l.code
  let need := (c.scratch + localBank - 1) / localBank
  let badStack := (List.range 4).any fun k =>
    let b := f.stackBytes.getD k 0
    b == 1 || decide (9 ≤ b) || (b == 0 && c.declares k && c.stackBytes.getD k 0 == 0)
  let deep := (List.range 4).any fun k =>
    let b := f.stackBytes.getD k 0
    c.declares k && decide (3000 < 8 + 32 * (if b = 0 then c.stackBytes.getD k 0 else b))
  if f.rscope = 0 || 6 ≤ f.rscope then 1
  else if badStack then 2
  else if f.karg = 0 || f.karg.toNat % 16 ≠ 0 then 3
  else if (List.range 192).all fun k => !s.mayUse l (dieOf k) || decide (27 < need + (s.coreAt k).retired.length) then 4
  else if deep then 4
  else 0

/-- Why a launch admitted now stands in wrap-up (R353): an ancestor does, or its own snuff time has come. -/
def State.wrapAt (s : State) (l : Launch) : Option Nat :=
  let up := match l.parent with | some k => (s.launchAt k).wrap.isSome | none => false
  let f := l.pkt
  if up then some 2
  else if f.deadline ≠ 0 && f.deadline - min f.budget f.deadline ≤ s.now then some 1
  else none

/-- The item queue of a launch (R187): its array and count, when the packet has ITEMS. -/
def State.readItems (s : State) (a : Agent) (denied : Option DWord) (f : PacketFields) : Checked (DWord × Nat) :=
  if !f.flags.getLsbD 3 then .ok (0, 0)
  else (s.mappedBytes a denied f.karg 12).bind fun bs => .ok (BitVec.ofNat 64 (field bs 0 8), field bs 8 4)

/-- A packet that passes every check becomes a launch with its seed gang 0, which has no place yet, and the ticket for that place (R181,
R182). -/
def State.openSeed (s : State) (p : Pending) (code : Code) (items : DWord × Nat) : State :=
  let f := PacketFields.ofBytes p.bytes
  let o := s.openLaunch p fun l =>
    { l with code := code, spawn := 1, nextGang := 1, itemAddr := items.1, itemCount := items.2, wrap := s.wrapAt l,
             groups := code.groups.map fun g => { index := g.1, coresident := g.2, fixed := false, step := 0 } }
  (o.2.createGang o.1 0 code.seedRole f.seed []).post p.die (.placement (gangKey o.1 0) 1)

/-- Admit a packet: checks, launch, seed gang 0 and its place; it waits where its seed finds no room that a gang before it leaves (R182,
R361, R362) (log 24, DEDUCED). -/
def State.admitPacket (s : State) (p : Pending) (cores : List Nat) : State :=
  let f := PacketFields.ofBytes p.bytes
  let job := Job.admission p.intake
  if s.jobWaits job then s
  else
    match s.checkCode (s.lampFor p.ctx p.die job) p.denied f.code f.seed f.snuffe with
    | .page va => s.jobFault job p.ctx va .read
    | .wait t => t
    | .bad t => t.closedLaunch p fun l => { l with faulted := true, lerr := l.lerr ||| 2 }
    | .ok code =>
      let s := s.noteCode (s.lampFor p.ctx p.die job) f.code
      let probe : Launch := { Launch.absent with pkt := f, code := code, die := p.die, parent := p.parent }
      let r := s.refusalOf probe
      if r ≠ 0 then s.closedLaunch p fun l => { l with refusal := r }
      else
        match s.readItems (s.lampFor p.ctx p.die job) p.denied f with
        | .page va => s.jobFault job p.ctx va .read
        | .wait t => t
        | .bad t => t.closedLaunch p fun l => { l with refusal := 6 }
        | .ok items =>
          let s := if f.flags.getLsbD 3 then s.noteRange (s.lampFor p.ctx p.die job) f.karg 12 else s
          let t := s.openSeed p code items
          let dies := (cores.map dieOf ++ p.die :: List.range 4).eraseDups
          (dies.findSome? fun d => t.seatNew (gangKey s.nextLaunch 0) d cores).getD s

/-- Whether an agent that runs holds the admission ticket of a packet (R181). -/
def State.admitting (s : State) (p : Pending) : Bool := s.works p.die (.admission p.intake)

/-- LAUNCH_ADMISSION (R182, R354, R358, R361): packets that run no gang complete at once; else the first candidate is admitted. `cores` are
those that the Lamplighters prefer for its seed. -/
def execLaunchAdmission (die : Nat) (cores : List Nat) (s : State) : Result :=
  if !s.lampsOn die then .next s
  else
    let now := s.pendings.filter fun p => p.die == die && s.endsAtOnce p
    if now.isEmpty then
      match topCandidate (s.candidates die) with
      | none => .next s
      | some p => .next (if s.admitting p then (s.renew die (.admission p.intake)).admitPacket p cores else s)
    else
      .next ((now.filter s.admitting).foldl (fun s p =>
        s.closedLaunch p fun l =>
          if s.doomed p then { l with faulted := true, lerr := l.lerr ||| 0x40 } else { l with timed := true, isPartial := true }) s)

/-! ### Completion (R180, R184) -/

/-- STATUS of a launch (R180). -/
def Launch.status (l : Launch) : Nat := if l.faulted then 1 else if l.refusal ≠ 0 then 3 else if l.timed then 2 else 0

/-- The validity record (R180). -/
def Launch.recordBytes (l : Launch) : List Byte :=
  let partBit := if l.isPartial && l.status != 3 then 256 else 0
  bytesLE 8 l.valid.toNat ++ bytesLE 4 (l.status + partBit + (if l.status = 3 then l.refusal * 4096 else 0)) ++ bytesLE 4 l.lerr.toNat

/-- Whether the device knows a queue's vector: not after an error in its entry (R269). -/
def Queue.vectorKnown (q : Queue) : Bool := !(q.state == .broken && q.reason == 5)

/-- The next completion step is done. -/
def State.stepDone (s : State) (launch : Nat) : State := s.updLaunch launch fun l => { l with steps := l.steps + 1 }

/-- A completion write is skipped: the queue stops with reason 7 (R184). -/
def State.skipWrite (s : State) (launch : Nat) : State := (s.stopQueue (s.launchAt launch).queue 7).stepDone launch

/-- A completion write has been tried. -/
def State.wrote (s : State) (launch : Nat) (k : Kind) (x : Tried State) : State :=
  match x with
  | .ok t => t.stepDone launch
  | .page va => s.jobFault (.completion launch) (s.launchAt launch).ctx va k
  | .bad t => t.skipWrite launch
  | .wait t => t

/-- One completion step (R184) (log 24, DEDUCED). -/
def State.completionStep (s : State) (launch : Nat) : State :=
  let l := s.launchAt launch
  let a := s.lampFor l.ctx l.die (.completion launch)
  match l.steps with
  | 0 => if l.pkt.vrec = 0 then s.stepDone launch else s.wrote launch .write (s.lampWrite a l.pkt.vrec l.recordBytes)
  | 1 => if l.pkt.signal = 0 then s.stepDone launch else s.wrote launch .atomic (s.lampDecrement a l.pkt.signal)
  | 2 =>
    let send := l.pkt.flags.getLsbD 0 && (s.queueAt l.queue).vectorKnown
    (if send then s.sendVector l.queue none else s).stepDone launch
  | _ =>
    let s := s.updLaunch launch fun l => { l with phase := .done, steps := 4 }
    let s := s.unpost l.die (.completion launch)
    match l.parent with
    | some p => s.spawnDown p
    | none => s

/-- Completion steps until one has to wait. -/
def State.completionSteps (launch : Nat) : Nat → State → State
  | 0, s => s
  | n + 1, s =>
    let l := s.launchAt launch
    let t := s.completionStep launch
    if (t.launchAt launch).steps = l.steps then t else t.completionSteps launch n

/-- Whether a launch's completion can run: its counter is 0, nothing stops it any more, and someone does the work; on a fenced die the
boot ROM does (R184, R258, R267). -/
def State.completes (s : State) (launch : Nat) : Bool :=
  let l := s.launchAt launch
  (l.phase == .running || l.phase == .killed) && l.spawn == 0 && !s.jobWaits (.completion launch) &&
    (s.works l.die (.completion launch) || (s.dieAt l.die).fenced)

/-- LAUNCH_COMPLETION (R184) (log 24, DEDUCED). -/
def execLaunchCompletion (launch : Nat) (s : State) : Result :=
  .next (if s.completes launch then (s.renew (s.launchAt launch).die (.completion launch)).completionSteps launch 4 else s)

/-- A marker is complete: its entry frees, its vector is sent, a parent loses it (R178, R185). -/
def State.markerDone (s : State) (p : Pending) : State :=
  let send := field p.bytes 2 1 % 2 == 1 && (s.queueAt p.queue).vectorKnown
  let s := if send then s.sendVector p.queue none else s
  let s := { s with pendings := s.pendings.filter fun q => !(q.queue == p.queue && q.intake == p.intake) }
  match p.parent with
  | some k => s.spawnDown k
  | none => s

/-- The oldest marker of a queue. -/
def State.oldestMarker (s : State) (queue : Nat) : Option Pending :=
  let ms := s.pendings.filter fun p => p.queue == queue && !p.isLaunch
  ms.find? fun p => ms.all fun q => decide (p.intake ≤ q.intake)

/-- SIGNAL_MARKER (R178): a marker acts once every earlier packet of its queue is complete (log 24, DEDUCED). -/
def execSignalMarker (queue : Nat) (s : State) : Result :=
  match s.oldestMarker queue with
  | none => .next s
  | some p =>
    if !s.lampsOn p.die || s.jobWaits (.marker queue) || !s.earlierDone p then .next s
    else
      let signal : DWord := BitVec.ofNat 64 (field p.bytes 48 8)
      if signal = 0 then .next (s.markerDone p)
      else
        match s.lampDecrement (s.lampFor p.ctx p.die (.marker queue)) signal with
        | .ok t => .next (t.markerDone p)
        | .page va => .next (s.jobFault (.marker queue) p.ctx va .atomic)
        | .bad t => .next ((t.stopQueue queue 7).markerDone p)
        | .wait t => .next t

/-! ### Tickets, leases and reclaims (R181, R271) -/

/-- Whether a batch with a placement ticket finds its place now on a die that it may use. -/
def State.placeable (s : State) (first n : Nat) : Bool :=
  (List.range 4).any fun d =>
    match s.firstSeat (coresFrom d []) true none (s.waitingList d) with
    | some (batch, _) => batch.any fun k => decide (first ≤ k) && decide (k < first + n)
    | none => false

/-- Whether a job can go on now (log 26, DEDUCED). -/
def State.canGoOn (s : State) (j : Job) : Bool :=
  !s.jobWaits j &&
    match j with
    | .intake queue =>
      let q := s.queueAt queue
      !(s.ctxAt q.ctx).suspend && ((q.enqueued.any fun e => e.index == q.ridx) || decide (s.storeUsed q.home < 4096))
    | .admission intake =>
      match s.pendings.find? fun p => p.intake == intake with
      | some p =>
        s.endsAtOnce p || topCandidate (s.candidates p.die) == some p
      | none => true
    | .placement first n => s.placeable first n
    | .service key =>
      let g := s.gangAt key
      g.service || g.wrap || (match g.place with | .parked core => s.slotFor core g | _ => false)
    | .completion _ | .marker _ | .reclaim _ => true

/-- The agents of a die give back the tickets of jobs that cannot go on, and idle ones claim the lowest of the others (R181) (log 26, DEDUCED). -/
def State.settleTickets (s : State) (die : Nat) : State :=
  if (s.dieAt die).tickets.isEmpty then s
  else
    let giveBack := fun t : Ticket => if t.agent.isSome && !s.canGoOn t.job then { t with agent := none, til := 0 } else t
    let t := s.updDie die fun d => { d with tickets := d.tickets.map giveBack }
    let fit := fun c (k : Ticket) => t.serves c k && t.canGoOn k.job
    t.updDie die fun d => { d with tickets := claimTickets fit (t.ran + leaseTime) (t.idleAgents die) d.tickets }

/-- TICKET_LEASE_EXPIRY (R181): a ticket whose lease has lapsed goes to a peer of its agent, which goes on from the last recorded step (log 26, DEDUCED). -/
def execTicketLeaseExpiry (die ticket : Nat) (s : State) : Result :=
  let lapsed := fun t : Ticket => t.num == ticket && t.agent.isSome && decide (t.til ≤ s.ran)
  let old := ((s.dieAt die).tickets.filter lapsed).map Ticket.agent
  if old.isEmpty || (s.dieAt die).fenced then .next s
  else
    let free := (s.dieAt die).tickets.map fun t => if lapsed t then { t with agent := none, taken := true } else t
    let peers := ((s.updDie die fun d => { d with tickets := free }).idleAgents die).filter fun c => !old.contains (some c)
    .next (s.updDie die fun d => { d with tickets := claimTickets s.serves (s.ran + leaseTime) peers free })

/-- The die whose Lamplighters hold the reclaim ticket of a context: the first that works. -/
def State.reclaimDie (s : State) (ctx : Nat) : Option Nat :=
  (List.range 4).find? fun d => s.works d (.reclaim ctx)

/-- RECLAIM_EXECUTE (R271): the agent checks alignment, executes COHREC and writes RCSTAT. -/
def execReclaimExecute (ctx : Nat) (s : State) : Result :=
  let c := s.ctxAt ctx
  match s.reclaimDie ctx with
  | none => .next s
  | some d =>
    if !c.rcbusy then .next s
    else
      let done := fun (r : Nat × State) =>
        (r.2.updCtx ctx fun c => { c with rcbusy := false, rcstatus := BitVec.ofNat 8 r.1 }).unpost d (.reclaim ctx)
      if c.rcline.toNat % 64 ≠ 0 || c.rcdata.toNat % 64 ≠ 0 then .next (done (0xFF, s))
      else
        let a := s.lampFor ctx d (.reclaim ctx)
        match s.reclaim a c.rcline c.rcdata with
        | some r => .next (done r)
        | none => .next ((s.renew d (.reclaim ctx)).askLine a c.rcdata false none)

end Sys2Proof.Machine
end

