-- ==== Sys2Proof/Machine/Deadline.lean ====
section
/-!
DEFINITION. Sys2Proof/Machine/Deadline.lean: snuff times, the kill at the deadline and slack (R353, R355, R358 to R360), pins that reach
their limit (R295), walks of page tables that complete (R284).
-/

namespace Sys2Proof.Machine

/-- Snuff time of a launch (R353). -/
def PacketFields.snuffAt (p : PacketFields) : Nat := p.deadline - min p.budget p.deadline

/-- A launch enters wrap-up: every gang of it is snuffed (R353, R355). -/
def State.wrapUp (s : State) (launch reason : Nat) : State :=
  if (s.launchAt launch).wrap.isSome || (s.launchAt launch).phase != .running then s
  else (s.gangsOf launch).foldl (fun s k => s.snuff k reason) (s.updLaunch launch fun l => { l with wrap := some reason })

/-- SNUFF_TIME (R353, R355): the launch and its descendants enter wrap-up. -/
def execSnuffTime (launch : Nat) (s : State) : Result :=
  let l := s.launchAt launch
  if l.phase != .running || l.wrap.isSome || l.pkt.deadline = 0 || s.now < l.pkt.snuffAt then .next s
  else .next ((s.descendants launch).foldl (fun s k => s.wrapUp k 2) (s.wrapUp launch 1))

/-- DEADLINE_KILL (R358, R359): gangs stop with their windows discarded, operations are cancelled, and the launch and every descendant
that has not completed are left to complete TIMED, their gangs' resources once those operations have stopped. A launch that a fatal fault ended is left alone (R258) (log 18, DEDUCED). -/
def execDeadlineKill (launch : Nat) (s : State) : Result :=
  let l := s.launchAt launch
  if l.phase != .running || l.pkt.deadline = 0 || s.now < l.pkt.deadline || l.spawn = 0 || l.lerr &&& 0x44 != 0 then .next s
  else
    let fam := (launch :: s.descendants launch).filter fun k => (s.launchAt k).phase == .running && (s.launchAt k).lerr &&& 0x44 == 0
    let s := s.stopGangs fam true
    let s := (fam.flatMap s.gangsOf).foldl (fun s k => (s.abandon k).performAll k) s
    let s := s.dropOps fam
    let s := if s.opsLeft fam then s else s.exitGangs fam
    .next (fam.foldl (fun s k => s.updLaunch k fun l => { l with phase := .killed, timed := true, isPartial := true }) s)

/-- The slack of every launch of a die, admitted or not, as it stands now (R360). -/
def State.recomputeSlack (s : State) (die : Nat) : State :=
  let now := s.now
  let f := fun l : Launch => if l.die = die && l.phase != .done then { l with slack := l.pkt.slackAt now } else l
  let g := fun p : Pending => if p.die = die then { p with slack := (PacketFields.ofBytes p.bytes).slackAt now } else p
  { s with launches := s.launches.map (fun kl => (kl.1, f kl.2)), pendings := s.pendings.map g }

/-- SLACK_RECOMPUTE (R360): every 10 microseconds. -/
def execSlackRecompute (die : Nat) (s : State) : Result :=
  .next (if s.lampsOn die && decide ((s.dieAt die).slackAt + 10000 ≤ s.ran) then
      (s.recomputeSlack die).updDie die fun d => { d with slackAt := s.ran }
    else s)

/-- PIN_LIMIT_EXPIRY (R295): a pin of a line reaches its limit: the line is performed at system scope and every pin on it ends. -/
def execPinLimitExpiry (line : Nat) (s : State) : Result :=
  if s.pins.any fun p => p.line == line && decide (p.til ≤ s.ran) then
    .next (s.endPins line)
  else .next s

/-- The access kind of a code of R193. -/
def kindOf (n : Nat) : Kind := match n with | 0 => .read | 1 => .write | 2 => .atomic | _ => .fetch

/-- TRANSLATION_WALK (R284, R286): a walk of a die that finds a translation leaves it in the die's TLB; one that ends in PAGE or PROT leaves nothing
there, and the access that asked for it takes its fault as it is carried out (R131, R138) (log 27, DEDUCED). -/
def execTranslationWalk (ctx : Nat) (va : DWord) (kind die : Nat) (s : State) : Result :=
  let a := dieAgent ctx die 0
  .next (match translate s a va (kindOf kind) with | .ok _ => s.noteTlb a va | .error _ => s)

end Sys2Proof.Machine
end

