-- ==== Sys2Proof/Machine/Doorbell.lean ====
section
/-!
DEFINITION. Sys2Proof/Machine/Doorbell.lean: registers of the management window whose write does something: queues (R175, R176, R195),
service replies (R67, R194), fault answers (R133, R193), contexts (R243, R259, R271, R285, R296), the pool (R346), Chronographs and
error counters (R369, R370), the snoop limit (R325).
-/

namespace Sys2Proof.Machine

/-! ### Queues -/

/-- QUEUE_ACTIVATE (R175): from OFF or STOPPED; a slot count out of range stops the queue at once with reason 4 (log 23, DEDUCED). -/
def execQueueActivate (queue : Nat) (s : State) : Result :=
  let q := s.queueAt queue
  if 1024 ≤ queue || (q.state != .off && q.state != .stopped) then .next s
  else
    let t := s.setQueue queue { q with ridx := 0, widx := 0, state := .active }
    .next (if q.slots < 6 || 16 < q.slots then t.stopQueue queue 4 else t)

/-- QUEUE_TURN_OFF (R175). -/
def execQueueTurnOff (queue : Nat) (s : State) : Result :=
  let q := s.queueAt queue
  .next (if q.state == .active || q.state == .stopped then (s.closeQueue queue .off 0).unpost q.home (.intake queue) else s)

/-- QUEUE_STOP (R175). -/
def execQueueStop (queue : Nat) (s : State) : Result :=
  let q := s.queueAt queue
  .next (if q.state == .active then (s.closeQueue queue .stopped 0).unpost q.home (.intake queue) else s)

/-- NOTIFY_REGISTER (R176, R360): a higher write index is accepted, or stops the queue when it lies beyond the ring. -/
def execNotifyRegister (queue : Nat) (v : DWord) (s : State) : Result :=
  let q := s.queueAt queue
  if 1024 ≤ queue || q.state != .active then .next s
  else
    let s := if s.lampsOn q.home then s.recomputeSlack q.home else s
    if v.toNat ≤ q.widx then .next s
    else if q.ridx + 2 ^ q.slots < v.toNat then .next ((s.stopQueue queue 3).unpost q.home (.intake queue))
    else .next ((s.setQueue queue { q with widx := v.toNat }).post q.home (.intake queue))

/-- WAKE (R195): the code is stored and the queue's vector sent with it. -/
def execWake (queue : Nat) (code : Word) (s : State) : Result :=
  if 1024 ≤ queue then .next s
  else .next ((s.updQueue queue fun q => { q with wake := code }).sendVector queue (some code))

/-! ### Service replies (R67, R194) -/

/-- Bytes of a context as the device reads them, at addresses that the companion keeps resident; zeros where it does not (log 33, DEDUCED).
An address at which a pin or a line under way holds the read up, and what the read is tried again from (R295). -/
def State.ctxRead (s : State) (a : Agent) (va : DWord) (n : Nat) : Except State (List Byte) :=
  match readRange s a va n with
  | .ok bs => .ok bs
  | .error (.wait, at_) => .error ((s.unplan a.req).askLine a at_ false none)
  | .error _ => .ok (List.replicate n 0)

/-- The lanes that wait for the reply of a record, with their gang. -/
def State.replyTo (s : State) (r : SvcRecord) : Option (Nat × List Nat) :=
  match r.gang with
  | none => none
  | some key =>
    match (s.gangAt key).park with
    | some (.svcReply lanes off) =>
      if off = r.at_ && (s.launchAt (s.gangAt key).launch).phase == .running then some (key, lanesOf lanes) else none
    | _ => none

/-- What the device finds in a record: whether the companion has set DONE, which a pad carries from the start, and then the reply blocks of
the lanes that wait for them (R194). -/
def State.readRecord (s : State) (ctx die : Nat) (r : SvcRecord) : Except State (SvcRecord × Bool × List Byte) :=
  let c := s.ctxAt ctx
  let who := s.replyTo r
  let a := match who with | some k => s.lampNear ctx (s.gangAt k.1).core | none => s.lampOf ctx die
  match s.ctxRead a (c.ringAddr (r.at_ + 6)) 1 with
  | .error t => .error t
  | .ok b =>
    if !(b.headD 0).getLsbD 0 then .ok (r, false, [])
    else
      match who with
      | none => .ok (r, true, [])
      | some k =>
        match s.ctxRead a (c.ringAddr (r.at_ + 64)) (32 * k.2.length) with
        | .error t => .error t
        | .ok bs => .ok (r, true, bs)

/-- Every record, in ring order. -/
def State.readRecords (s : State) (ctx die : Nat) : List SvcRecord → Except State (List (SvcRecord × Bool × List Byte))
  | [] => .ok []
  | r :: rs =>
    match s.readRecord ctx die r with
    | .error t => .error t
    | .ok x => match s.readRecords ctx die rs with | .error t => .error t | .ok xs => .ok (x :: xs)

/-- The reply block of the i-th waiting lane goes into its `v0` to `v7`. -/
def Gang.replyLanes (g : Gang) (lanes : List Nat) (bs : List Byte) : Gang :=
  ((List.range lanes.length).zip lanes).foldl (fun g il =>
    g.updLane il.2 fun x => (List.range 8).foldl (fun x n => x.setV n (BitVec.ofNat 32 (field bs (32 * il.1 + 4 * n) 4))) x) g

/-- A record whose reply is complete: its gang, if it still waits for it, gets the reply and waits for its place. -/
def State.takeReply (s : State) (ctx : Nat) (r : SvcRecord) (bs : List Byte) : State :=
  match s.replyTo r with
  | none => s
  | some (key, lanes) =>
    let s := s.noteRange (s.lampNear ctx (s.gangAt key).core) ((s.ctxAt ctx).ringAddr (r.at_ + 64)) bs.length
    (s.updGang key fun g => g.replyLanes lanes bs).servePark key 3

/-- Free records in ring order while they are done (R194). -/
def freeRecords : List (SvcRecord × Bool × List Byte) → List SvcRecord
  | [] => []
  | (r, done, _) :: rs => if done then freeRecords rs else r :: rs.map fun x => if x.2.1 then { x.1 with gang := none } else x.1

/-- SDOOR (R67, R194): records that are done are replies, and the first ones free their space. It is looked at again where a pin holds a
record up (R295) (log 26, DEDUCED). -/
def execSdoor (ctx : Nat) (s : State) : Result :=
  let c := s.ctxAt ctx
  match s.readRecords ctx (((List.range 4).find? s.lampsOn).getD 0) c.records with
  | .error t => .next { t with agenda := t.agenda ++ [.records ctx], clock := t.clock.advance 1 }
  | .ok found =>
    let t := (found.filter fun x => x.2.1).foldl (fun s x => s.takeReply ctx x.1 x.2.2) s
    let left := freeRecords found
    let freed := ((c.records.take (c.records.length - left.length)).map SvcRecord.size).sum
    .next (t.updCtx ctx fun c => { c with records := left, sfree := c.sfree + freed })

/-! ### Fault answers (R133, R138, R187, R193, R286) -/

/-- A gang's fault is served: once none is left its park ends (R133, R248). -/
def State.servedGang (s : State) (key id : Nat) : State :=
  match (s.gangAt key).park with
  | some (.page faults lanes) =>
    let left := faults.filter fun f => f != id
    if left.isEmpty then s.servePark key 5 else s.updGang key fun g => { g with park := some (.page left lanes) }
  | _ => s

/-- A gang's fault is denied: PROT, fatal (R131, R193). -/
def State.deniedGang (s : State) (key : Nat) (f : FaultRec) : State :=
  match (s.gangAt key).park with
  | some (.page _ _) => s.fatal key causeProt f.pc f.lane f.va
  | _ => s

/-- A Lamplighter's job hears that its fault was denied (R40, R184, R187). An intake asks again. -/
def State.deniedJob (s : State) (j : Job) (va : DWord) : State :=
  match j with
  | .admission intake =>
    let mark := fun p : Pending => if p.intake = intake then { p with denied := some va } else p
    { s with pendings := s.pendings.map mark }
  | .completion launch => s.skipWrite launch
  | .marker queue =>
    match s.oldestMarker queue with
    | some p => (s.stopQueue queue 7).markerDone p
    | none => s
  | .service key =>
    match (s.gangAt key).park with
    | some (.enq _ _ _) => s.fatal key causeProt ((s.gangAt key).lane 0).pc 0 va
    | _ => s
  | _ => s

/-- Requests of this package's directory that a fault held up: asked again, or answered with an error (R323). -/
def State.answerLocal (s : State) (f : FaultRec) (denied : Bool) : State :=
  let home := s.ownPkg
  let mine := fun c : CohWait => c.line == f.va && (match peerOf s c.ctx c.home with | some (p, h) => p == home && h == f.ctx | none => false)
  if denied then (s.fab.cohWaits.filter mine).foldl (fun s c => s.lineError c.ctx c.line) s
  else
    let again := fun c : CohWait => if mine c then { c with sent := false } else c
    { s with fab := { s.fab with cohWaits := s.fab.cohWaits.map again } }

/-- Flows whose packet waits for a fault (R308). -/
def State.answerFlows (s : State) (id : Nat) (denied : Bool) : State :=
  (s.fab.inflows.filter fun f => match f.stalled with | some w => w.fault == some id | none => false).foldl
    (fun s f => if denied then s.denyFlow f else s.resumeFlow f) s

/-- The answer to one fault (log 24, DEDUCED). -/
def State.answerFault (s : State) (f : FaultRec) (denied : Bool) : State :=
  let s := { s with pkg := { s.pkg with faults := s.pkg.faults.filter fun x => x.id != f.id } }
  match f.op, f.gang, f.job with
  | some id, _, _ =>
    match s.opAt id with
    | some o =>
      if o.fault ≠ some f.id then s
      else if denied then s.opFail o failProt o.pc f.va
      else s.updOp id fun o => { o with fault := none }
    | none => s
  | none, some key, _ => if denied then s.deniedGang key f else s.servedGang key f.id
  | none, none, some j => if denied then s.deniedJob j f.va else s
  | none, none, none => (s.answerFlows f.id denied).answerLocal f denied

/-- FDONE (R193): bits 31:0 name the fault, bit 32 denies it; bits 63:33, which R193 does not name, read 0 (log 33, DEDUCED). The answer to
a record that was never posted is no answer. -/
def execFdone (v : DWord) (s : State) : Result :=
  let s := { s with pkg := { s.pkg with fdone := v &&& 0x1FFFFFFFF } }
  match s.pkg.faults.find? fun f => f.id == v.toNat % 2 ^ 32 && f.posted with
  | some f => .next (s.answerFault f (v.getLsbD 32))
  | none => .next s

/-- FQTAIL (R193): records consumed; a count ahead of FQHEAD, or that leaves more than the ring holds, is ignored. -/
def execFqtail (v : Word) (s : State) : Result :=
  if 2 ^ s.pkg.fqsize < (s.pkg.fqhead - v).toNat then .next s
  else .next ({ s with pkg := { s.pkg with fqtail := v } } : State).postFaults

/-! ### Contexts -/

/-- CTXTRAP (R243). -/
def execCtxtrap (ctx : Nat) (v : Word) (s : State) : Result := .next (s.updCtx ctx fun c => { c with ctxtrap := v, trapent := v })

/-- CTXPIN (R296). -/
def execCtxpin (ctx : Nat) (v : Word) (s : State) : Result := .next (s.updCtx ctx fun c => { c with ctxpin := v, pinlim := v })

/-- FABTMO (R325). -/
def execFabtmo (v : Word) (s : State) : Result := .next { s with fab := { s.fab with fabtmo := v, cohtmo := v } }

/-- DUMPACK (R258, R259): the dump and the spill areas it names are freed; a waiting dump is written (log 36, DEDUCED). -/
def execDumpack (ctx : Nat) (s : State) : Result :=
  let s := s.updCtx ctx fun c => { c with dumphead := 0, splused := c.splused - c.dumpSpill, dumpSpill := 0 }
  let s := s.dropAreas ctx fun o => !(s.gangAt (o / 32)).alive
  match (s.ctxAt ctx).dumpWait with
  | [] => .next s
  | l :: rest => .next ((s.updCtx ctx fun c => { c with dumpWait := rest }).finishStop l)

/-- RCGO (R271): 1 while idle starts a reclaim; its ticket stands in the first die whose Lamplighters run, or in die 0
(log 49, DESIGN CHOICE). -/
def execRcgo (ctx : Nat) (v : Word) (s : State) : Result :=
  if v ≠ 1 || (s.ctxAt ctx).rcbusy then .next s
  else
    let die := ((List.range 4).find? s.lampsOn).getD 0
    .next ((s.updCtx ctx fun c => { c with rcbusy := true }).post die (.reclaim ctx))

/-- TLBINV (R285): an invalidation begins; ignored while one runs. -/
def execTlbinv (ctx : Nat) (v : DWord) (s : State) : Result :=
  if (s.ctxAt ctx).tlbbusy then .next s
  else .next (s.updCtx ctx fun c => { c with tlbinv := v &&& 0x0000FFFFFFFF0003, tlbbusy := true })

/-- The range that a TLBINV names: its first address and size, or every address (R285). -/
def tlbRange (v : DWord) : Option (Nat × Nat) :=
  let size := match v.toNat % 4 with | 0 => 2 ^ 16 | 1 => 2 ^ 21 | _ => 2 ^ 27
  if v.toNat % 4 = 3 then none else some (v.toNat % 2 ^ 48 / size * size, size)

/-- Whether a cached translation belongs to an invalidation. -/
def TlbEntry.named (e : TlbEntry) (ctx : Nat) (v : DWord) : Bool :=
  e.ctx == ctx && (match tlbRange v with | none => true | some (a, n) => decide (a < e.va + e.size) && decide (e.va < a + n))

/-- Whether an address lies in the range of an invalidation. -/
def vaNamed (va : Nat) (v : DWord) : Bool :=
  match tlbRange v with | none => true | some (a, n) => decide (a ≤ va % 2 ^ 48) && decide (va % 2 ^ 48 < a + n)

/-- Whether an access that used a translation of the range is still under way: a request to a Lantern, or one in a directory's queue (R285)
(log 42, DESIGN CHOICE). -/
def State.rangeUsed (s : State) (ctx : Nat) (v : DWord) : Bool :=
  (s.lanternQueue.any fun r =>
    match s.opAt r.op with
    | some o =>
      s.asksStill r && r.lantern.isSome && (s.launchAt o.launch).ctx == ctx &&
        (match tripleOf o.entries r.unit with | some (e, i) => vaNamed (e.blocks.getD i 0).toNat v | none => false)
    | none => false) ||
    s.fab.dir.any fun kd => kd.2.queue.any fun r => r.hctx == ctx && r.link.isNone && vaNamed r.line.toNat v

/-- TLB_INVALIDATION_COMPLETE (R285): once no access that used a translation of the range is under way, no TLB holds one, the stores of the
context are performed at system scope, and BUSY clears (log 42, DESIGN CHOICE). -/
def execTlbInvalidationComplete (ctx : Nat) (s : State) : Result :=
  let c := s.ctxAt ctx
  if !c.tlbbusy || s.rangeUsed ctx c.tlbinv then .next s
  else
    let mine := fun k => s.ctxNum k == ctx
    let t := (((s.pins.filter fun p => mine p.gang).map Pin.line).eraseDups).foldl State.endPins s
    .next (({ t with tlb := t.tlb.filter (fun e => !e.named ctx c.tlbinv), dirty := t.dirty.filter fun d => !mine d.gang } : State).updCtx
      ctx fun c => { c with tlbbusy := false })

/-! ### The pool (R346, R347) -/

/-- POOL_ENABLE (R346): EN = 1 makes every block free, in ascending order. -/
def execPoolEnable (ctx : Nat) (s : State) : Result :=
  let p := s.poolAt ctx
  if (p.bsz ≠ 14 && p.bsz ≠ 15) || p.count = 0 || 16777216 < p.count then .next s
  else .next (s.setPool ctx { p with enabled := true, free := [(0, p.count)], held := [] })

/-- DROPALL (R346): every tag is dropped in ascending order. -/
def execDropall (ctx : Nat) (s : State) : Result :=
  let p := s.poolAt ctx
  let tags := (p.held.filterMap Block.tag).foldl (fun (t : Table Unit) k => Table.put k () t) []
  .next (s.setPool ctx ((tags.map Prod.fst).foldl (fun p k => (p.drop k).2) p))

/-! ### Chronographs and error counters (R369, R370) -/

/-- CHCFG_CLR (R369): the write's fields, then the Chronograph is empty. -/
def execChcfgClr (die chrono : Nat) (v : Word) (s : State) : Result :=
  .next (s.updDie die fun d => d.setChrono chrono ((d.chrono chrono).config v).clear)

/-- ERRCLR (R370). -/
def execErrclr (die : Nat) (s : State) : Result := .next (s.updDie die fun d => { d with errs := [] })

end Sys2Proof.Machine
end

