-- ==== Sys2Proof/Machine/Bringup.lean ====
section
/-!
DEFINITION. Sys2Proof/Machine/Bringup.lean: reset, the boot ROM's check of the firmware image and the start of the Lamplighter slots
(R188 to R191).
-/

namespace Sys2Proof.Machine

/-- RESET (R188): every register at its reset value. Memory keeps its bytes, and what the package has sent stays sent (log 19, DESIGN CHOICE). -/
def execReset (s : State) : Result :=
  .next { State.reset with mem := s.mem, poison := s.poison, agenda := s.agenda, out := s.out, free := s.free }

/-- FWGO (R188): a write of 1 in WAITIMG starts the check. -/
def execFwgo (v : Word) (s : State) : Result :=
  if v = 1 && s.pkg.fwstate == .waitImg then .next { s with pkg := { s.pkg with fwgo := v, fwstate := .check } }
  else .next { s with pkg := { s.pkg with fwgo := v } }

/-! ### The image (R189) -/

/-- Bytes of the header and of the signature. -/
def fwHeader : Nat := 128
def fwSignature : Nat := 29792

/-- The physical address of the image. -/
def Pkg.fwAt (p : Pkg) : Nat := p.fwbase.toNat

/-- Bytes of the body, as the header gives them. -/
def State.fwBody (s : State) : Nat := s.numAt (s.pkg.fwAt + 8) 4

/-- Header and body of the image, and the signature behind them. -/
def State.fwSigned (s : State) : List Byte := s.bytesAt s.pkg.fwAt (fwHeader + s.fwBody)
def State.fwSignatureBytes (s : State) : List Byte := s.bytesAt (s.pkg.fwAt + fwHeader + s.fwBody) fwSignature

/-- Why the image fails its check: 0 where it passes (log 7, DESIGN CHOICE). -/
def State.fwFailure (s : State) : Nat :=
  if s.numAt s.pkg.fwAt 4 ≠ 0x49574648 || s.numAt (s.pkg.fwAt + 4) 2 ≠ 1 then 1
  else if s.pkg.fwlen.toNat < fwHeader + s.fwBody + fwSignature then 2
  else if !Config.signatureOk s.fwSigned s.fwSignatureBytes then 3
  else 0

/-- Eight words of 8 bytes of a digest. -/
def digestWords (bs : List Byte) : List DWord := (List.range 8).map fun (k : Nat) => BitVec.ofNat 64 (natLE ((bs.drop (8 * k)).take 8))

/-- The measurements (R189). -/
def State.measured (s : State) : Table DWord :=
  (List.range 8).foldl (fun t k => Table.set 0 (8 + k) (Config.keyDigest k) t)
    (Table.setList 0 0 (digestWords (Config.shake256 s.fwSigned)) [])

/-- The 64 MiB units that the boot ROM closes: 1 to 255, and no fewer than the image takes; the room of the journals is the firmware's
(R190; log 7, DESIGN CHOICE). -/
def Pkg.carveUnits (p : Pkg) : Nat := min 255 (max (max 1 ((p.fwlen.toNat + 2 ^ 26 - 1) / 2 ^ 26)) Config.carveSize)

/-- CARVE as the boot ROM sets it (R188, R190). -/
def Pkg.carved (p : Pkg) : Word :=
  BitVec.ofNat 32 (p.fwAt / 2 ^ 26 % 2 ^ 13 * 2 ^ 19 + p.carveUnits * 2 ^ 11 + 1)

/-! ### Lamplighter slots (R188, R191, R203) -/

/-- The gang of a slot at the firmware's restart entry (log 7, DESIGN CHOICE). -/
def lampGang (core : Nat) : Gang :=
  { Gang.absent with
      launch := 2 ^ 59, num := core, lamp := true, place := .resident core, core := core,
      lanes := (List.range 32).map fun k => (k, { Lane.vacant with live := true }) }

/-- A slot starts. -/
def State.startLamp (s : State) (core : Nat) : State :=
  (s.updCore core fun c => { c with slot := .running }).setGang (lampKey core) (lampGang core)

/-- Every slot of the package starts. -/
def State.startLamps (s : State) : State := (List.range 192).foldl State.startLamp s

/-- FIRMWARE_CHECK_COMPLETE (R188, R189): RUN with the measurements, the carve-out closed and the slots started, or FAILED with the
cause, which leads back to WAITIMG (log 7, DESIGN CHOICE). -/
def execFirmwareCheckComplete (s : State) : Result :=
  if s.pkg.fwstate != .check then .next s
  else if s.fwFailure ≠ 0 then .next { s with pkg := { s.pkg with fwstate := .failed, fwcause := s.fwFailure } }
  else
    let p := { s.pkg with fwstate := .run, fwcause := 0, meas := s.measured, carve := s.pkg.carved, carveSet := true }
    .next ({ s with pkg := p } : State).startLamps

/-- LAMPCTL (R191): core + 0x100 restarts a halted or fenced slot, which claims tickets again. -/
def execLampctl (v : Word) (s : State) : Result :=
  let core := v.toNat - 0x100
  let s := { s with pkg := { s.pkg with lampctl := v } }
  let slot := (s.coreAt core).slot
  if v.toNat < 0x100 || 192 ≤ core || (slot != .halted && slot != .fenced) then .next s
  else .next ((s.startLamp core).claim (dieOf core))

end Sys2Proof.Machine
end

