-- ==== Sys2Proof/Machine/Clocks.lean ====
section
/-!
DEFINITION. Sys2Proof/Machine/Clocks.lean: steps of EPH (R349, R351, R352) and the package as a PTP slave (R350, R351): Sync and
Follow_Up, the delay request and its response, Announce, loss of Sync.
-/

namespace Sys2Proof.Machine

/-- Whether an admitted launch has a deadline (R351). -/
def State.deadlineHeld (s : State) : Bool := s.launches.any fun kl => kl.2.phase != .done && kl.2.pkt.deadline != 0

/-- EPH steps to a value (log 20, DEDUCED). -/
def State.stepEph (s : State) (v : DWord) : State :=
  { s with clock := { s.clock with eph := v, frac := 0, stepped := s.clock.stepped + ((v.toNat : Int) - s.clock.eph.toNat) } }

/-- EPHSET (R352): ignored while an admitted launch has a deadline. -/
def execEphset (v : DWord) (s : State) : Result := .next (if s.deadlineHeld then s else s.stepEph v)

/-! ### The slave (R350) -/

/-- Whether a message of a domain is for this slave: PTPCFG has EN set and names the domain (log 34, DEDUCED). -/
def Ptp.hears (p : Ptp) (domain : Nat) : Bool := p.cfg.getLsbD 8 && p.cfg.toNat % 128 == domain

/-- 1 ms, beyond which an offset is stepped away (R351); 2 s, after which LOCK clears (R350). -/
def stepLimit : Nat := 1000000
def syncLimit : Nat := 2000000000

/-- Whether the Lamplighter firmware, which runs the servo, runs (R350). -/
def State.firmwareRuns (s : State) : Bool := (List.range 4).any s.lampsOn

/-- A complete Sync, with the times at which it arrived and left: the offset is measured, then EPH steps or its rate changes (R351). A
step needs that no admitted launch has a deadline; a delay measurement under way is given up then. Without its firmware the servo
stands still; without a Sync for 2 s nothing sets LOCK (log 20, DEDUCED) (log 34, DEDUCED). -/
def State.ptpServo (s : State) (arrived origin : Nat) : State :=
  let p := s.ptp
  if !s.firmwareRuns then { s with ptp := { p with sync := none } }
  else
  let recent := decide (s.ran < p.syncAt + syncLimit)
  let offset : Int := (arrived : Int) - (origin : Int) - p.path
  let p := { p with offset := min (2 ^ 31 - 1) offset.natAbs, sync := none, last := some (arrived, origin) }
  if (!p.locked || decide (stepLimit < offset.natAbs)) && !s.deadlineHeld then
    let eph := s.clock.eph - BitVec.ofInt 64 offset
    ({ s with ptp := { p with lock := recent, locked := true, delayReq := none,
                              last := some ((arrived - offset).toNat, origin) } } : State).stepEph eph
  else
    let lock := recent && (p.lock || decide (offset.natAbs ≤ stepLimit))
    { s with ptp := { p with lock := lock, locked := p.locked || lock }, clock := { s.clock with adj := Config.servo offset } }

/-- PTP_SYNC (R350): a one-step Sync drives the servo; a two-step one waits for its Follow_Up (log 34, DEDUCED). -/
def execPtpSync (twoStep : Bool) (domain seq origin : Nat) (s : State) : Result :=
  if !s.ptp.hears domain then .next s
  else if twoStep then .next { s with ptp := { s.ptp with sync := some (seq, s.now), syncAt := s.ran } }
  else .next (({ s with ptp := { s.ptp with syncAt := s.ran } } : State).ptpServo s.now origin)

/-- PTP_FOLLOW_UP (R350): the origin time of the Sync with its number. -/
def execPtpFollowUp (domain seq origin : Nat) (s : State) : Result :=
  match s.ptp.sync with
  | some (n, arrived) => .next (if s.ptp.hears domain && n == seq then s.ptpServo arrived origin else s)
  | none => .next s

/-- PTP_DELAY_REQ_TIMER (R350): a Delay_Req leaves, with its time. -/
def execPtpDelayReqTimer (s : State) : Result :=
  if !s.ptp.cfg.getLsbD 8 then .next s
  else
    let n := s.ptp.nextSeq
    .next (({ s with ptp := { s.ptp with delayReq := some (n, s.now), nextSeq := (n + 1) % 65536 } } : State).emit (.delayReq n))

/-- PTP_DELAY_RESP (R350): the response to the pending Delay_Req gives the mean path delay: half the sum of the two ways (log 34, DEDUCED). -/
def execPtpDelayResp (domain seq received : Nat) (s : State) : Result :=
  match s.ptp.delayReq, s.ptp.last with
  | some (n, sent), some (arrived, origin) =>
    if s.ptp.hears domain && n == seq then
      let there : Int := (received : Int) - (sent : Int)
      let back : Int := (arrived : Int) - (origin : Int)
      .next { s with ptp := { s.ptp with path := (there + back) / 2, delayReq := none } }
    else .next s
  | _, _ => .next s

/-- PTP_MANAGEMENT (R350): received and ignored. -/
def execPtpManagement (s : State) : Result := .next s

/-- PTP_ANNOUNCE (R350): the master that the slave follows. -/
def execPtpAnnounce (domain master : Nat) (s : State) : Result :=
  .next (if s.ptp.hears domain then { s with ptp := { s.ptp with master := some master } } else s)

/-- SYNC_LOSS_TIMEOUT (R350): 2 s without a Sync clear LOCK; the rate stays. -/
def execSyncLossTimeout (s : State) : Result :=
  .next (if s.ptp.syncAt + syncLimit ≤ s.ran then { s with ptp := { s.ptp with lock := false } } else s)

end Sys2Proof.Machine
end

