-- ==== Sys2Proof/Machine/Errors.lean ====
section
/-!
DEFINITION. Sys2Proof/Machine/Errors.lean: corrected and uncorrectable errors, the self-tests they start and what a failed test retires
(R265 to R270, R274, R310, R345, R370).
-/

namespace Sys2Proof.Machine

/-! ### Counters and tests (R265, R370) -/

/-- The structure of R370 that a unit under test belongs to (log 10, DESIGN CHOICE). -/
def structureOf : TestUnit → Nat
  | .sramBank _ _ => 0
  | .arrayRow _ _ => 1
  | .portLane _ _ | .dieModule _ _ _ => 2
  | .carveRegion _ _ => 3
  | .lantern _ _ => 4

/-- Bits 31:8 of ERRLAST for a unit (R370; log 10, DESIGN CHOICE). -/
def unitNumber : TestUnit → Nat
  | .sramBank core bank => 32 * core + bank
  | .arrayRow _ row => row
  | .portLane port lane => 16 * port + lane
  | .dieModule low high module => Config.moduleUnit low high module % 2 ^ 24
  | .carveRegion _ region => region
  | .lantern stack index => 32 * stack + index

/-- Change the counters of a structure of a die. -/
def State.countError (s : State) (die structure_ : Nat) (f : ErrCount → ErrCount) : State :=
  s.updDie die fun d => { d with errs := Table.modify ErrCount.zero structure_ f d.errs }

/-- A 16-bit field that saturates, one higher. -/
def sat16 (n : Nat) : Nat := min 65535 (n + 1)

/-- The working bank with a place in the order of roles (R274). -/
def Core.workingBank (c : Core) (i : Nat) : Option Nat := ((List.range 32).filter fun b => !c.retired.contains b)[i]?

/-- The role of a bank: whether it is a cache, scratchpad or operand-buffer bank, or retired (R274). -/
inductive BankRole where
  | cache
  | scratch
  | opbuf
  | gone
  deriving DecidableEq, Repr

def Core.bankRole (c : Core) (bank : Nat) : BankRole :=
  let working := (List.range 32).filter fun b => !c.retired.contains b
  match (List.range working.length).find? fun i => working[i]? == some bank with
  | none => .gone
  | some i => if i < c.cache then .cache else if i < c.cache + c.scr then .scratch else .opbuf

/-- Take a module out of both directions of a die link, or put it back (R305, R310). -/
def DieLink.without (x : DieLink) (m : Nat) : DieLink := { x with modules := x.modules.filter fun k => k != m }
def DieLink.with_ (x : DieLink) (m : Nat) : DieLink :=
  { x with modules := (List.range 9).filter fun k => x.modules.contains k || k == m }
def State.updLinks (s : State) (low high : Nat) (f : DieLink → DieLink) : State :=
  let s := s.setLink low high (f (s.linkAt low high))
  s.setLink high low (f (s.linkAt high low))

/-- A self-test of a unit begins: a stripe runs without the lane meanwhile, a core with a scratchpad or operand-buffer bank under test
takes no new gang (R265, R310) (log 32, DEDUCED). -/
def State.startTest (s : State) (die : Nat) (u : TestUnit) : State :=
  if (s.dieAt die).testing.contains u then s
  else
    let s := s.updDie die fun d => { d with testing := d.testing ++ [u] }
    match u with
    | .sramBank core bank =>
      match (s.coreAt core).bankRole bank with
      | .scratch | .opbuf => s.updCore core fun c => { c with testing := c.testing ++ [bank] }
      | .cache => s.evictLines core fun _ => true
      | .gone => s
    | .portLane port lane => s.stripeLane port lane false
    | .dieModule low high m => s.updLinks low high fun x => x.without m
    | _ => s

/-- CORRECTED_ERROR (R265): counted, and its structure is tested (log 10, DESIGN CHOICE). -/
def execCorrectedError (die : Nat) (u : TestUnit) (s : State) : Result :=
  if 4 ≤ die then .next s
  else
    .next ((s.countError die (structureOf u) fun e => { e with corrected := sat16 e.corrected }).startTest die u)

/-- FLIT_RECEIVE (R316, R326): decrypted and checked; a flit whose tag fails is discarded and asked for again, counts as a flit-check
error and puts a lane to the test (R265; log 46, DESIGN CHOICE); a stomped one is only discarded. What a good flit carries takes effect in
the event of its packet (log 9, DESIGN CHOICE). -/
def execFlitReceive (port : Nat) (flit : List Byte) (s : State) : Result :=
  let x := s.portAt port
  if !x.up then .next s
  else
    let iv := flitIv x.rxsalt x.rxcnt
    let t := s.setPort port { x with rxcnt := x.rxcnt + 1 }
    let stomped := flit.take 64 ++ (flit.drop 64).map fun b => ~~~b
    if (Config.gcmOpen x.rxkey iv flit).isSome || (Config.gcmOpen x.rxkey iv stomped).isSome then .next t
    else
      let u := (t.sendLink port 12 x.rxcnt).countError (portDie port) 2 fun e => { e with corrected := sat16 e.corrected }
      let lanes := stripe x.rxmask
      match lanes[Config.failedLane port x.rxcnt % max 1 lanes.length]? with
      | some l => .next (u.startTest (portDie port) (.portLane port l))
      | none => .next u

/-- DIE_LINK_FLIT_RECEIVE (R305, R306): the flit at the head of the link. One whose check fails is discarded and asked for again, and the
module that carried it is tested (R265); those behind it are discarded until the replay brings it. What a good flit carries takes
effect in the event that it belongs to (log 9, DESIGN CHOICE). -/
def execDieLinkFlitReceive (sender receiver : Nat) (flit : List Byte) (s : State) : Result :=
  let x := s.linkAt sender receiver
  match x.wire with
  | [] => .next s
  | n :: rest =>
    let t := s.setLink sender receiver { x with wire := rest }
    if n ≠ x.rxn then .next t
    else if dieFlitOk flit then
      .next (t.setLink sender receiver { x with wire := rest, rxn := x.rxn + 1, kept := x.kept.filter fun f => decide (x.rxn < f.1) })
    else
      let u := (t.emit (.dieReplay sender receiver n)).countError receiver 2 fun e => { e with corrected := sat16 e.corrected }
      .next (u.startTest receiver (.dieModule (min sender receiver) (max sender receiver) (x.module n)))

/-! ### Uncorrectable errors (R266 to R269) -/

/-- A poison mark. -/
def State.poisonMark (s : State) (m : PoisonMark) : State := if s.poison.contains m then s else { s with poison := s.poison ++ [m] }

/-- A cause entry of a fault that comes from outside a gang's instructions. -/
def State.outerCause (s : State) (code gang pc : Nat) : Cause :=
  { code := code, source := 6, trigger := true, issuerGone := false, detail := 0, gang := gang, pc := pc, unit := 0, addr := 0, eph := s.now }

/-- Whether a launch has a gang on a die, or is homed there (R267). -/
def State.touchesDie (s : State) (launch die : Nat) : Bool :=
  (s.launchAt launch).die == die || s.gangs.any fun kg =>
    kg.2.launch == launch && !kg.2.lamp && dieOf kg.2.core == die &&
      (match kg.2.place with | .resident _ | .parked _ => true | _ => false)

/-- A launch that a fenced die stops; in one that a fatal fault is ending it is a further one (R258, R267), and one that it has ended is left
alone (log 32, DEDUCED). -/
def State.fenceLaunch (s : State) (launch : Nat) : State :=
  let l := s.launchAt launch
  if l.phase != .stopping && (l.lerr &&& 0x44 != 0 || l.phase != .running) then s
  else s.fatalLaunch launch causeDieFence none (s.outerCause causeDieFence 0xFFFFFFFF 0xFFFFFFFF)

/-- A carve-out error stops the Lamplighters of a die, its launches and its queues (R267) (log 32, DEDUCED). -/
def State.fenceDie (s : State) (die : Nat) : State :=
  let s := s.updDie die fun d => { d with fenced := true }
  let ls := (s.launches.map Prod.fst).filter fun k => s.touchesDie k die
  let s := ls.foldl State.fenceLaunch s
  let qs := (List.range 1024).filter fun q => (s.queueAt q).home == die && (s.queueAt q).state != .broken
  let s := qs.foldl (fun s q => s.closeQueue q .broken 6) s
  { s with pkg := { s.pkg with fwcause := 4 } }

/-- The bank under a word of a gang's window (R276) (log 10, DESIGN CHOICE). -/
def State.bankUnder (s : State) (gang off : Nat) : Option Nat :=
  let g := s.gangAt gang
  let c := s.coreAt g.core
  c.workingBank (c.cache + (g.scratchBase + off) / 4 % max 1 c.scr)

/-- UNCORRECTABLE_ERROR (R265, R266): what follows from the place where it strikes, and the test of the structure that the place names
(log 32, DEDUCED). -/
def execUncorrectableError (die : Nat) (at' : ErrPlace) (s : State) : Result :=
  let count := fun (s : State) d k => s.countError d k fun e => { e with uncorrected := sat16 e.uncorrected }
  match at' with
  | .gangState gang =>
    let g := s.gangAt gang
    match g.place with
    | .resident _ | .parked _ =>
      if g.lamp then .next (s.fenceLamp gang)
      else
        let cause := s.outerCause causeUncorr g.num (g.lane ((lanesOf g.liveMask).headD 0)).pc
        .next ((s.lerrOr g.launch 0x20).fatalLaunch g.launch causeUncorr (some gang) cause)
    | _ => .next s
  | .memory pa => .next (if physOk pa then s.poisonMark (.memory (pa / 8)) else s)
  | .scratch gang off =>
    let g := s.gangAt gang
    if g.scratchSize ≤ off || g.windowFreed || g.place == .saved || g.place == .unplaced then .next s
    else
      let t := count (s.poisonMark (.scratch gang (off / 8))) (dieOf g.core) 0
      match s.bankUnder gang off with
      | some b => .next (t.startTest (dieOf g.core) (.sramBank g.core b))
      | none => .next t
  | .bankRow dome bank row =>
    .next (s.updBank dome bank fun b => if b.poisoned.contains row then b else { b with poisoned := b.poisoned ++ [row] })
  | .lampCache _ => .next s
  | .carve d region =>
    .next (if 4 ≤ d || (s.dieAt d).fenced then s else ((count s d 3).fenceDie d).startTest d (.carveRegion d region))
  | .queueEntry queue =>
    let q := s.queueAt queue
    if 1024 ≤ queue then .next s
    else
      let t := if q.state == .broken then s.updQueue queue fun q => { q with reason := 5 } else s.closeQueue queue .broken 5
      .next ((t.updQueue queue fun q => { q with wake := 0xFFFF0005 }).mgmtWake 0xFFFF0005)
  | .unit u => .next (if 4 ≤ die then s else (count s die (structureOf u)).startTest die u)

/-! ### The end of a test (R265) -/

/-- Whether a swap on a stack touches a channel group: a test of its channels waits (R281). -/
def State.swapsOn (s : State) (stack group : Nat) : Bool :=
  match Table.find stack s.pkg.swaps with
  | some (a, b) => s.remapOf stack a / 8192 == group || s.remapOf stack b / 8192 == group
  | none => false

/-- Whether the test of a unit can end now: a scratchpad bank is tested once no window lies on its core, an operand-buffer bank once no
tile does, a region of the carve-out by working Lamplighters (R265) (log 32, DEDUCED). -/
def State.testable (s : State) (die : Nat) : TestUnit → Bool
  | .sramBank core bank =>
    match (s.coreAt core).bankRole bank with
    | .scratch => (s.windowsOn core).isEmpty
    | .opbuf => (s.gangsOn core).all fun k => (s.gangAt k).tiles.all fun t => !t.2.valid
    | _ => true
  | .carveRegion _ _ => s.lampsOn die
  | .lantern stack index => !s.swapsOn stack (index / 8)
  | _ => true

/-- A bank is retired: the device takes it from the cache count if that exceeds 1, else from the scratchpad count (R274). -/
def Core.retire (c : Core) (bank : Nat) : Core :=
  if c.retired.contains bank then c
  else if 1 < c.cache then { c with retired := c.retired ++ [bank], cache := c.cache - 1 }
  else { c with retired := c.retired ++ [bank], scr := c.scr - 1 }

/-- A unit passes its test: it takes part again. -/
def State.passUnit (s : State) : TestUnit → State
  | .portLane port lane => s.stripeLane port lane true
  | .dieModule low high m => s.updLinks low high fun x => x.with_ m
  | _ => s

/-- A unit fails its test and is retired; a lane or module that the test took out stays out (R265, R345). -/
def State.retireUnit (s : State) (die : Nat) : TestUnit → State
  | .sramBank core bank => s.updCore core fun c => c.retire bank
  | .arrayRow dome row =>
    s.setDome dome { s.domeAt dome with
      rowsRetired := if (s.domeAt dome).rowsRetired.contains row then (s.domeAt dome).rowsRetired else (s.domeAt dome).rowsRetired ++ [row] }
  | .portLane _ _ | .dieModule _ _ _ => s
  | .carveRegion _ region =>
    s.updDie die fun d => { d with regionsMoved := if d.regionsMoved.contains region then d.regionsMoved else d.regionsMoved ++ [region] }
  | .lantern stack index =>
    let n := 32 * stack + index
    if s.pkg.lanterns.contains n then s else { s with pkg := { s.pkg with lanterns := s.pkg.lanterns ++ [n] } }

/-- ERRLAST for a lasting failure (R370). -/
def errLastOf (u : TestUnit) (now : Nat) : DWord :=
  BitVec.ofNat 64 (now / 2 ^ 10 % 2 ^ 32 * 2 ^ 32 + unitNumber u % 2 ^ 24 * 2 ^ 8 + structureOf u)

/-- SELF_TEST_COMPLETE (R265, R370): transient and counted, or lasting and retired (log 32, DEDUCED). -/
def execSelfTestComplete (die : Nat) (u : TestUnit) (pass : Bool) (s : State) : Result :=
  if !(s.dieAt die).testing.contains u || !s.testable die u then .next s
  else
    let s := s.updDie die fun d => { d with testing := d.testing.filter fun x => x != u }
    let s := match u with
      | .sramBank core bank => s.updCore core fun c => { c with testing := c.testing.filter fun b => b != bank }
      | _ => s
    if pass then .next ((s.countError die (structureOf u) fun e => { e with transient := sat16 e.transient }).passUnit u)
    else
      let s := s.countError die (structureOf u) fun e => { e with lasting := sat16 e.lasting }
      .next ((s.updDie die fun d => { d with errLast := errLastOf u s.now }).retireUnit die u)

end Sys2Proof.Machine
end

