-- ==== Sys2Proof/Machine/Power.lean ====
section
/-!
DEFINITION. Sys2Proof/Machine/Power.lean: the Chandler's wicks and periods (R365 to R367, R371) and region swaps (R280 to R282).
-/

namespace Sys2Proof.Machine

/-- The watts of some requests in a domain, and in all. -/
def wattsIn (rs : List WickRequest) (domain : Nat) : Nat :=
  ((rs.flatMap WickRequest.watts).filter fun w => w.1 == domain).foldl (fun n w => n + w.2) 0
def wattsAll (rs : List WickRequest) : Nat := (rs.flatMap WickRequest.watts).foldl (fun n w => n + w.2) 0

/-- Whether reservations and the measured draw outside wicks fit the cap (R366). -/
def Chandler.fits (c : Chandler) (rs : List WickRequest) : Bool := decide (wattsAll rs + c.nonWick.sum ≤ c.cap)

/-- A Chandler period in ns. -/
def period : Nat := 1000000

/-- The die of a power domain (R365). -/
def dieOfDomain (d : Nat) : Nat := if d < 4 then d else (d - 4) / 2

/-- The head of the queue is granted (R366, R368) (log 35, DEDUCED). -/
def State.grantHead (s : State) (w : WickRequest) (rest : List WickRequest) : State :=
  let s := s.updOp w.op fun o => { o with wick := .granted }
  let s := { s with chandler := { s.chandler with queue := rest, granted := s.chandler.granted ++ [w] } }
  match s.opAt w.op with
  | some o => s.record (dieOf o.core) 5 0 (s.ran - w.since)
  | none => s

/-- The domains of a die: its own and those of its two stacks (R279, R365). -/
def domainsOf (die : Nat) : List Nat := (List.range 12).filter fun d => dieOfDomain d == die

/-- What some values by domain come to for a die. -/
def dieSum (die : Nat) (f : Nat → Nat) : Nat := ((domainsOf die).map f).sum

/-- Whether a die's reservations and its measured draw outside wicks exceed its budget of this period (R365, R366) (log 35, DEDUCED). -/
def Chandler.overloaded (c : Chandler) (die : Nat) : Bool :=
  decide (dieSum die (fun d => c.budget.getD d 0) < dieSum die fun d => wattsIn c.granted d + c.nonWick.getD d 0)

/-- The clocks of the overloaded ones of some dies are lowered (R366). -/
def State.slowDies (s : State) (dies : List Nat) : State :=
  (dies.filter s.chandler.overloaded).foldl (fun s d => s.updDie d fun x => { x with slowed := true }) s

/-- WICK_GRANT (R366): the head fits, or it has waited a whole period, and the clock of an overloaded die of it is lowered (log 35, DEDUCED). -/
def execWickGrant (s : State) : Result :=
  match s.chandler.queue with
  | [] => .next s
  | w :: rest =>
    if s.chandler.fits (s.chandler.granted ++ [w]) then .next (s.grantHead w rest)
    else if w.since + period ≤ s.ran then
      .next ((s.grantHead w rest).slowDies (w.watts.map fun x => dieOfDomain x.1).eraseDups)
    else .next s

/-- PWRCAP as it acts (R371). -/
def Pkg.capInForce (p : Pkg) : Nat := max 1000 (min 2800 p.pwrcap.toNat)

/-- Twelve measured values. -/
def twelve (xs : List Nat) : List Nat := (List.range 12).map fun i => xs.getD i 0

/-- The budgets of a period (R365): reservations and draw outside wicks, and a part of what is left of the cap (log 35, DEDUCED). -/
def Chandler.budgets (c : Chandler) : List Nat :=
  let own := (List.range 12).map fun d => wattsIn c.granted d + c.nonWick.getD d 0
  let left := c.cap - own.sum
  let asked := wattsAll c.queue
  (List.range 12).map fun d => own.getD d 0 + (if asked = 0 then left / 12 else left * wattsIn c.queue d / asked)

/-- Whether a die's measured draw of the last period fits its budget (R366) (log 35, DEDUCED). -/
def Chandler.drawFits (c : Chandler) (die : Nat) : Bool :=
  decide (dieSum die (fun d => c.draw.getD d 0) ≤ dieSum die fun d => c.budget.getD d 0)

/-- The memory controller of a stack counts an access to a region while remap is enabled (R281) (log 35, DEDUCED). -/
def State.countAccess (s : State) (stack region : Nat) : State :=
  if s.pkg.remapEn && decide (stack < 8) && decide (region < 32768) then
    { s with pkg := { s.pkg with accesses := Table.modify 0 (32768 * stack + region) (· + 1) s.pkg.accesses } }
  else s

/-- Accesses in the period to a region of a stack, and to a channel group of it (R281). -/
def State.regionCount (s : State) (stack region : Nat) : Nat := Table.get 0 (32768 * stack + region) s.pkg.accesses
def State.groupCount (s : State) (stack group : Nat) : Nat :=
  ((s.pkg.accesses.filter fun c => c.1 / 32768 == stack && s.remapOf stack (c.1 % 32768) / 8192 == group).map Prod.snd).sum

/-- Whether the memory controller may start a swap (R281, R282): the busiest region of the busiest group goes to a region of the idlest
group (log 35, DEDUCED). -/
def State.maySwap (s : State) (p : SwapPick) : Bool :=
  let from_ := s.remapOf p.stack p.busy / 8192
  let to_ := s.remapOf p.stack p.idle / 8192
  s.pkg.remapEn && decide (p.stack < 8) && decide (p.busy < 32768) && decide (p.idle < 32768) &&
    decide (4096 * s.pkg.thresh ≤ s.regionCount p.stack p.busy) && (Table.find p.stack s.pkg.swaps).isNone && from_ != to_ &&
    ((List.range 4).all fun g =>
      decide (s.groupCount p.stack g ≤ s.groupCount p.stack from_) && decide (s.groupCount p.stack to_ ≤ s.groupCount p.stack g)) &&
    s.pkg.accesses.all fun c =>
      c.1 / 32768 != p.stack || s.remapOf p.stack (c.1 % 32768) / 8192 != from_ || decide (c.2 ≤ s.regionCount p.stack p.busy)

/-- CHANDLER_PERIOD (R365, R371, R281): the measured draws of the last period, the cap divided, byte budgets, and region swaps by the accesses counted in the
period, whose count begins anew (log 35, DEDUCED). -/
def execChandlerPeriod (draw nonWick : List Nat) (swaps : List SwapPick) (s : State) : Result :=
  let c := s.chandler
  let since := s.ran - c.periodStart
  if since < period then .next s
  else
    let start := s.ran - since % period
    let c := { c with draw := twelve draw, nonWick := twelve nonWick, cap := s.pkg.capInForce, periodStart := start }
    let c := { c with budget := c.budgets }
    let c := { c with bytes := (List.range 8).map fun k => Config.byteBudget (c.budget.getD (4 + k) 0) }
    let t := { s with chandler := c }
    let t := ((List.range 4).filter c.drawFits).foldl (fun s d => s.updDie d fun x => { x with slowed := false }) t
    let t := (List.range 4).foldl (fun s d => s.record d 4 0 (c.draw.getD d 0)) t
    let u := swaps.foldl (fun s p =>
      if s.maySwap p then { s with pkg := { s.pkg with swaps := Table.put p.stack (p.busy, p.idle) s.pkg.swaps } } else s) t
    .next { u with pkg := { u.pkg with accesses := [] } }

/-- REMAP_SWAP_COMPLETE (R281): the two regions have exchanged their places (log 35, DEDUCED). -/
def execRemapSwapComplete (stack : Nat) (s : State) : Result :=
  match Table.find stack s.pkg.swaps with
  | none => .next s
  | some (a, b) =>
    let x := s.remapOf stack a
    let y := s.remapOf stack b
    let put := fun (t : Table Nat) (region v : Nat) =>
      if v = region then Table.erase (stack * 32768 + region) t else Table.put (stack * 32768 + region) v t
    .next { s with pkg := { s.pkg with remap := put (put s.pkg.remap a y) b x, swaps := Table.erase stack s.pkg.swaps } }

/-- RMAPCTL (R282). -/
def execRmapctl (v : Word) (s : State) : Result :=
  .next { s with pkg := { s.pkg with remapEn := v.getLsbD 0, thresh := v.toNat / 2 % 32768 } }

end Sys2Proof.Machine
end

