-- ==== Sys2Proof/Machine/Registers.lean ====
section
/-!
DEFINITION. Sys2Proof/Machine/Registers.lean: the management window as a map of registers (R196, R264, R271, R282, R285, R296, R328, R346,
R352, R369 to R371), what each of them reads, and what a write to one without a behaviour of its own leaves (R5, R175, R193). A write
that does something of its own stands in its event.
-/

namespace Sys2Proof.Machine

/-! ### The map -/

/-- A register of the management window, by its name in the manual; an index belongs to its block. -/
inductive MReg where
  | queueEntry | notify | wake
  | srbase | srsize | shead | sfree | sdoor | dumpbase | dumpsize | ctxctl | splbase | splsize | ctxtrap | dumphead | dumpack
  | fqbase | fqsize | fqhead | fdone | mwake | fqtail
  | rcline | rcdata | rcgo | rcstat | ptroot | tlbinv | tlbstat | rmapctl | ctxpin
  | pkgid | fabtmo | yrtab | peertab | peercnt | rgtab | rgcnt
  | cwbase (k : Nat) | cwsize (k : Nat) | cwhome (k : Nat)
  | ypstat | ypctl | ytxcnt | yrxcnt | ytxkey | yrxkey | ytxsalt | yrxsalt | ykeygo
  | poolbase | poolcnt | poolbsz | poolctl | poolfree | pooltent
  | schedctl | ephset | ptpcfg | ptpstat
  | chcfg | chcnt | chmin | chmax | chlast | chdrop | chbin (b : Nat)
  | errcnt (k : Nat) | errlast | errclr
  | devid | pwrcap | chdom | chbytes | wickq
  | fwbase | fwlen | fwgo | fwstat | meas | lampctl
  deriving DecidableEq, Repr

/-- A block of the window: where it begins, the distance and the number of its copies, and the offset and width in bytes of each
register. -/
structure MBlock where
  base : Nat
  stride : Nat
  count : Nat
  regs : List (Nat × Nat × MReg)
  deriving DecidableEq, Repr

/-- Queues, contexts and the fault queue (R196, R264). -/
def mgmtQueues : List MBlock :=
  [{ base := 0x00800000, stride := 32, count := 1024, regs := [(0, 32, .queueEntry)] },
   { base := 0x01000000, stride := 4096, count := 1024, regs := [(0, 8, .notify), (8, 4, .wake)] },
   { base := 0x02000000, stride := 64, count := 64, regs :=
      [(0, 8, .srbase), (8, 4, .srsize), (12, 4, .shead), (16, 4, .sfree), (20, 4, .sdoor), (24, 8, .dumpbase), (32, 4, .dumpsize),
       (36, 4, .ctxctl), (40, 8, .splbase), (48, 4, .splsize), (52, 4, .ctxtrap), (56, 4, .dumphead), (60, 4, .dumpack)] },
   { base := 0x02001000, stride := 32, count := 1, regs :=
      [(0, 8, .fqbase), (8, 4, .fqsize), (12, 4, .fqhead), (16, 8, .fdone), (24, 4, .mwake), (28, 4, .fqtail)] }]

/-- Reclaims, translation, remap and pins (R271, R282, R285, R296). -/
def mgmtContexts : List MBlock :=
  [{ base := 0x02002000, stride := 32, count := 64, regs := [(0, 8, .rcline), (8, 8, .rcdata), (16, 4, .rcgo), (20, 4, .rcstat)] },
   { base := 0x02003000, stride := 32, count := 64, regs := [(0, 8, .ptroot), (8, 8, .tlbinv), (16, 4, .tlbstat)] },
   { base := 0x02003800, stride := 4, count := 1, regs := [(0, 4, .rmapctl)] },
   { base := 0x02003C00, stride := 4, count := 64, regs := [(0, 4, .ctxpin)] }]

/-- The fabric (R328). -/
def mgmtFabric : List MBlock :=
  [{ base := 0x02003E00, stride := 16, count := 1, regs := [(0, 4, .pkgid), (4, 4, .fabtmo), (8, 8, .yrtab)] },
   { base := 0x02004000, stride := 128, count := 64, regs :=
      [(0, 8, .peertab), (8, 4, .peercnt), (16, 8, .rgtab), (24, 4, .rgcnt), (32, 8, .cwbase 0), (40, 4, .cwsize 0), (44, 4, .cwhome 0),
       (48, 8, .cwbase 1), (56, 4, .cwsize 1), (60, 4, .cwhome 1), (64, 8, .cwbase 2), (72, 4, .cwsize 2), (76, 4, .cwhome 2),
       (80, 8, .cwbase 3), (88, 4, .cwsize 3), (92, 4, .cwhome 3)] },
   { base := 0x02006000, stride := 256, count := 18, regs :=
      [(0, 4, .ypstat), (4, 4, .ypctl), (8, 8, .ytxcnt), (16, 8, .yrxcnt), (32, 32, .ytxkey), (64, 32, .yrxkey), (96, 8, .ytxsalt),
       (104, 8, .yrxsalt), (112, 4, .ykeygo)] }]

/-- The pool, the scheduler, Chronographs and errors (R346, R352, R369, R370). -/
def mgmtHealth : List MBlock :=
  [{ base := 0x02008000, stride := 64, count := 64, regs :=
      [(0, 8, .poolbase), (8, 4, .poolcnt), (12, 4, .poolbsz), (16, 4, .poolctl), (20, 4, .poolfree), (24, 4, .pooltent)] },
   { base := 0x0200A000, stride := 32, count := 1, regs := [(0, 4, .schedctl), (8, 8, .ephset), (16, 4, .ptpcfg), (20, 4, .ptpstat)] },
   { base := 0x02010000, stride := 256, count := 128, regs :=
      [(0, 4, .chcfg), (4, 4, .chcnt), (8, 4, .chmin), (12, 4, .chmax), (16, 4, .chlast), (20, 4, .chdrop)] ++
        (List.range 32).map fun b => (64 + 4 * b, 4, .chbin b) },
   { base := 0x02018000, stride := 64, count := 4, regs :=
      (List.range 5).map (fun k => (8 * k, 8, MReg.errcnt k)) ++ [(48, 8, .errlast), (56, 8, .errclr)] }]

/-- Power, bring-up and measurement (R196, R371). -/
def mgmtPackage : List MBlock :=
  [{ base := 0x0201F000, stride := 8, count := 1, regs := [(0, 4, .devid), (4, 4, .pwrcap)] },
   { base := 0x0201F008, stride := 4, count := 12, regs := [(0, 4, .chdom)] },
   { base := 0x0201F040, stride := 4, count := 8, regs := [(0, 4, .chbytes)] },
   { base := 0x0201F060, stride := 4, count := 1, regs := [(0, 4, .wickq)] },
   { base := 0x03000000, stride := 32, count := 1, regs := [(0, 8, .fwbase), (8, 4, .fwlen), (12, 4, .fwgo), (16, 4, .fwstat)] },
   { base := 0x03000040, stride := 8, count := 16, regs := [(0, 8, .meas)] },
   { base := 0x03000100, stride := 4, count := 1, regs := [(0, 4, .lampctl)] }]

def mgmtMap : List MBlock := mgmtQueues ++ mgmtContexts ++ mgmtFabric ++ mgmtHealth ++ mgmtPackage

/-- A register as an offset names it: its copy, where it begins, its width in bytes. -/
structure MPlace where
  reg : MReg
  index : Nat
  at_ : Nat
  width : Nat
  deriving DecidableEq, Repr

/-- The register that covers an offset of the window, if the manual names one (R4). -/
def mgmtAt (off : Nat) : Option MPlace :=
  match mgmtMap.find? fun b => decide (b.base ≤ off) && decide (off < b.base + b.stride * b.count) with
  | none => none
  | some b =>
    let i := (off - b.base) / b.stride
    let rel := (off - b.base) % b.stride
    (b.regs.find? fun r => decide (r.1 ≤ rel) && decide (rel < r.1 + r.2.1)).map fun r =>
      { reg := r.2.2, index := i, at_ := b.base + b.stride * i + r.1, width := r.2.1 }

/-! ### Reads -/

/-- STATE as R175 codes it. -/
def QState.code : QState → Nat
  | .off => 0 | .active => 1 | .stopped => 2 | .broken => 3

/-- The state of the boot ROM as FWSTAT shows it (R188). -/
def FwState.code : FwState → Nat
  | .waitImg => 0 | .check => 1 | .run => 2 | .failed => 3

/-- A queue table entry, as one number of 32 bytes (R175). -/
def Queue.entry (q : Queue) : Nat :=
  q.ring.toNat + q.slots * 2 ^ 64 + q.ctx * 2 ^ 72 + q.home * 2 ^ 80 + bit q.feed 82 + q.vec * 2 ^ 96 + q.state.code * 2 ^ 112 +
    q.reason * 2 ^ 120 + q.ridx * 2 ^ 128 + q.widx * 2 ^ 192

/-- What a register of the window reads; a register that only the companion writes reads 0 (R5) (log 33, DEDUCED). -/
def State.mgmtValue (s : State) (r : MReg) (i : Nat) : Nat :=
  let c := s.ctxAt i
  let q := s.queueAt i
  let x := s.portAt i
  let p := s.pkg
  let ring := fun n => n % 2 ^ c.srsize
  let chrono := fun k => ((s.dieAt (i / 32)).chrono (i % 32)).read k
  match r with
  | .queueEntry => q.entry
  | .notify => q.widx
  | .wake => q.wake.toNat
  | .srbase => c.srbase.toNat
  | .srsize => c.srsize
  | .shead => ring c.shead
  | .sfree => ring c.sfree
  | .sdoor => c.sdoor.toNat
  | .dumpbase => c.dumpbase.toNat
  | .dumpsize => c.dumpsize.toNat
  | .ctxctl => bit c.suspend 0 + bit c.suspended 1 + bit c.noroom 2
  | .splbase => c.splbase.toNat
  | .splsize => c.splsize.toNat
  | .ctxtrap => c.ctxtrap.toNat
  | .dumphead => c.dumphead.toNat
  | .dumpack => 0
  | .fqbase => p.fqbase.toNat
  | .fqsize => p.fqsize
  | .fqhead => p.fqhead.toNat
  | .fdone => p.fdone.toNat
  | .mwake => p.mwake.toNat
  | .fqtail => p.fqtail.toNat
  | .rcline => c.rcline.toNat
  | .rcdata => c.rcdata.toNat
  | .rcgo => 0
  | .rcstat => bit c.rcbusy 31 + c.rcstatus.toNat
  | .ptroot => c.ptroot.toNat
  | .tlbinv => c.tlbinv.toNat
  | .tlbstat => bit c.tlbbusy 31
  | .rmapctl => bit (!p.swaps.isEmpty) 16 + 2 * p.thresh + bit p.remapEn 0
  | .ctxpin => c.ctxpin.toNat
  | .pkgid => s.fab.pkgid.toNat
  | .fabtmo => s.fab.fabtmo.toNat
  | .yrtab => s.fab.yrtab.toNat
  | .peertab => c.peertab.toNat
  | .peercnt => c.peercnt.toNat
  | .rgtab => c.rgtab.toNat
  | .rgcnt => c.rgcnt.toNat
  | .cwbase k => match Table.find k c.windows with | some w => w.base.toNat | none => 0
  | .cwsize k => match Table.find k c.windows with | some w => w.size.toNat | none => 0
  | .cwhome k => match Table.find k c.windows with | some w => w.home.toNat | none => 0
  | .ypstat => bit x.up 31 + bit x.downkey 22 + bit x.keyreq 21 + popCount x.mask * 2 ^ 16 + x.mask.toNat
  | .ypctl => bit x.enable 0
  | .ytxcnt => x.txcnt % 2 ^ 48
  | .yrxcnt => x.rxcnt % 2 ^ 48
  | .ytxkey | .yrxkey => 0
  | .ytxsalt => x.saltTx
  | .yrxsalt => x.saltRx
  | .ykeygo => bit x.goTx 0 + bit x.goRx 1
  | .poolbase => c.pool.base.toNat
  | .poolcnt => c.pool.count
  | .poolbsz => c.pool.bsz
  | .poolctl => bit c.pool.enabled 0
  | .poolfree => c.pool.freeCount
  | .pooltent => (c.pool.held.filter fun b => b.tag.isSome).length
  | .schedctl => p.prewait
  | .ephset => s.now
  | .ptpcfg => s.ptp.cfg.toNat
  | .ptpstat => bit s.ptp.lock 31 + s.ptp.offset
  | .chcfg => (chrono 0).toNat
  | .chcnt => (chrono 1).toNat
  | .chmin => (chrono 2).toNat
  | .chmax => (chrono 3).toNat
  | .chlast => (chrono 4).toNat
  | .chdrop => (chrono 7).toNat
  | .chbin b => Table.get 0 b ((s.dieAt (i / 32)).chrono (i % 32)).bins
  | .errcnt k =>
    let e := Table.get ErrCount.zero k (s.dieAt i).errs
    e.corrected + e.uncorrected * 2 ^ 16 + e.transient * 2 ^ 32 + e.lasting * 2 ^ 48
  | .errlast => (s.dieAt i).errLast.toNat
  | .errclr => 0
  | .devid => 0x48394880
  | .pwrcap => p.pwrcap.toNat
  | .chdom => s.chandler.draw.getD i 0 % 65536 + s.chandler.budget.getD i 0 % 65536 * 65536
  | .chbytes => s.chandler.bytes.getD i 0
  | .wickq => min 65535 s.chandler.queue.length + bit ((List.range 4).any fun d => (s.dieAt d).slowed) 31
  | .fwbase => p.fwbase.toNat
  | .fwlen => p.fwlen.toNat
  | .fwgo => p.fwgo.toNat
  | .fwstat => p.fwstate.code + p.fwcause * 2 ^ 8 + ((List.range 4).map fun d => bit (s.dieAt d).fenced (16 + d)).sum
  | .meas => (Table.get 0 i p.meas).toNat
  | .lampctl => p.lampctl.toNat

/-- One byte of the management window as the companion reads it; 0 where no register is named (R4, R196). -/
def State.mgmtByte (s : State) (off : Nat) : Byte :=
  match mgmtAt off with
  | some m => BitVec.ofNat 8 (s.mgmtValue m.reg m.index / 256 ^ (off - m.at_))
  | none => 0

/-! ### Writes -/

/-- Whether a context has a launch (R264, R285, R328, R346). -/
def State.hasLaunch (s : State) (ctx : Nat) : Bool := s.launches.any fun kl => kl.2.phase != .done && kl.2.ctx == ctx

/-- A change that a rule forbids at this time stops the run; without a change there is nothing to forbid (log 39, DESIGN CHOICE). -/
def State.guarded (s : State) (changes forbidden : Bool) (rule : Nat) (t : State) : Result :=
  if changes && forbidden then .fault (.companionBroke rule) else if changes then .next t else .next s

/-- A queue table entry as written: its fields, but for STATE, whose writes are events, and the fields that only the device sets
(R175). -/
def Queue.written (q : Queue) (v : Nat) : Queue :=
  { q with ring := BitVec.ofNat 64 v, slots := v / 2 ^ 64 % 32, ctx := v / 2 ^ 72 % 64, home := v / 2 ^ 80 % 4, feed := v.testBit 82,
           vec := v / 2 ^ 96 % 2048 }

/-- The fields of an entry that stand still outside OFF. -/
def Queue.sameHome (q r : Queue) : Bool :=
  q.ring == r.ring && q.slots == r.slots && q.ctx == r.ctx && q.home == r.home && q.feed == r.feed

/-- A coherent window of a context as written (R328). -/
def Ctx.setWindow (c : Ctx) (k : Nat) (f : CohWindow → CohWindow) : Ctx :=
  { c with windows := Table.modify { base := 0, size := 0, home := 0 } k f c.windows }

/-- A new value of a register whose write has no behaviour of its own; registers that only the device sets, and those whose write is an
event, stay as they are; reserved bits read 0 (R6) (log 33, DEDUCED) (log 39, DESIGN CHOICE). -/
def State.mgmtPut (s : State) (r : MReg) (i v : Nat) : Result :=
  let c := s.ctxAt i
  let p := s.pkg
  let changes := v != s.mgmtValue r i
  let w := BitVec.ofNat 32 v
  let d := BitVec.ofNat 64 v
  let setC := fun (c : Ctx) => s.setCtx i c
  let setP := fun (p : Pkg) => ({ s with pkg := p } : State)
  let setF := fun (f : Fabric) => ({ s with fab := f } : State)
  let busy := s.hasLaunch i
  let poolBusy := busy || c.pool.enabled
  let fqBusy := p.fqbase != 0 && p.fqhead != p.fqtail
  match r with
  | .queueEntry =>
    let q := s.queueAt i
    let q' := q.written v
    if q.state == .off || q.sameHome q' then .next (s.setQueue i q') else .fault (.companionBroke 175)
  | .srbase => .next (setC { c with srbase := d })
  | .srsize => .next (setC { c with srsize := v % 2 ^ 32 })
  | .dumpbase => s.guarded changes busy 264 (setC { c with dumpbase := d })
  | .dumpsize => s.guarded changes busy 264 (setC { c with dumpsize := w })
  | .splbase => s.guarded changes busy 264 (setC { c with splbase := d })
  | .splsize => s.guarded changes busy 264 (setC { c with splsize := w })
  | .fqbase => s.guarded changes fqBusy 193 (setP { p with fqbase := d }).postFaults
  | .fqsize => s.guarded changes fqBusy 193 (setP { p with fqsize := v % 2 ^ 32 }).postFaults
  | .mwake => .next (s.mgmtWake w)
  | .sdoor => .next (setC { c with sdoor := w })
  | .rcline => .next (if c.rcbusy then s else setC { c with rcline := d })
  | .rcdata => .next (if c.rcbusy then s else setC { c with rcdata := d })
  | .ptroot => s.guarded changes busy 285 (setC { c with ptroot := d &&& 0x0000FFFFFFFFF000 })
  | .pkgid =>
    if v % 4096 = 0xFFF then .next s
    else s.guarded changes ((List.range 18).any fun k => (s.portAt k).up) 328 (setF { s.fab with pkgid := BitVec.ofNat 32 (v % 4096) })
  | .yrtab => .next (setF { s.fab with yrtab := d })
  | .peertab => s.guarded changes busy 328 (setC { c with peertab := d })
  | .peercnt => .next (setC { c with peercnt := w })
  | .rgtab => s.guarded changes busy 328 (setC { c with rgtab := d })
  | .rgcnt => .next (setC { c with rgcnt := w })
  | .cwbase k => s.guarded changes busy 328 (setC (c.setWindow k fun x => { x with base := d &&& 0x0000FFFFFFE00001 }))
  | .cwsize k => s.guarded changes busy 328 (setC (c.setWindow k fun x => { x with size := w }))
  | .cwhome k => s.guarded changes busy 328 (setC (c.setWindow k fun x => { x with home := w }))
  | .ypctl => .next (if v.testBit 0 then s else s.updPort i fun x => { x with enable := false })
  | .ytxkey => .next (s.updPort i fun x => { x with stagedTx := v % 2 ^ 256 })
  | .yrxkey => .next (s.updPort i fun x => { x with stagedRx := v % 2 ^ 256 })
  | .ytxsalt => .next (s.updPort i fun x => { x with saltTx := v % 2 ^ 48 })
  | .yrxsalt => .next (s.updPort i fun x => { x with saltRx := v % 2 ^ 48 })
  | .poolbase => s.guarded changes poolBusy 346 (s.setPool i { c.pool with base := d })
  | .poolcnt => s.guarded changes poolBusy 346 (s.setPool i { c.pool with count := v % 2 ^ 32 })
  | .poolbsz => s.guarded changes poolBusy 346 (s.setPool i { c.pool with bsz := v % 2 ^ 32 })
  | .poolctl => .next (if v % 4 = 0 then s.setPool i { c.pool with enabled := false } else s)
  | .schedctl => .next (setP { p with prewait := v % 65536 })
  | .ptpcfg => .next { s with ptp := { s.ptp with cfg := w &&& 0x17F } }
  | .chcfg =>
    .next (if w.getLsbD 30 then s else s.updDie (i / 32) fun x => x.setChrono (i % 32) ((x.chrono (i % 32)).config w))
  | .pwrcap => .next (setP { p with pwrcap := w })
  | .fwbase => .next (if p.fwstate == .waitImg then setP { p with fwbase := d } else s)
  | .fwlen => .next (setP { p with fwlen := w })
  | .notify | .wake | .shead | .sfree | .ctxctl | .ctxtrap | .dumphead | .dumpack | .fqhead | .fdone | .fqtail | .rcgo | .rcstat
  | .tlbinv | .tlbstat | .rmapctl | .ctxpin | .fabtmo | .ypstat | .ytxcnt | .yrxcnt | .ykeygo | .poolfree | .pooltent | .ephset
  | .ptpstat | .chcnt | .chmin | .chmax | .chlast | .chdrop | .chbin _ | .errcnt _ | .errlast | .errclr | .devid | .chdom | .chbytes
  | .wickq | .fwgo | .fwstat | .meas | .lampctl => .next s

/-- The registers that a write of some bytes touches, ascending. -/
def mgmtPlaces (off size : Nat) : List MPlace :=
  ((List.range (min 32 size)).filterMap fun k => mgmtAt (off + k)).eraseDups

/-- A register with the bytes of a write laid over it. -/
def State.mgmtOver (s : State) (m : MPlace) (off : Nat) (bs : List Byte) : Nat :=
  let held := match m.reg with
    | .ytxkey => (s.portAt m.index).stagedTx
    | .yrxkey => (s.portAt m.index).stagedRx
    | r => s.mgmtValue r m.index
  let old := bytesLE m.width held
  let from_ := m.at_ - off
  natLE (overlay old (off - m.at_) ((bs.drop from_).take (m.at_ + m.width - max off m.at_)))

/-- The registers of a write, one after the other. -/
def State.mgmtWrites (s : State) (off : Nat) (bs : List Byte) : List MPlace → Result
  | [] => .next s
  | m :: ms =>
    match s.mgmtPut m.reg m.index (s.mgmtOver m off bs) with
    | .next t => t.mgmtWrites off bs ms
    | r => r

/-- MGMT_REGISTER_WRITE (R196): `size` bytes at an offset (log 33, DEDUCED) (log 39, DESIGN CHOICE). -/
def execMgmtRegisterWrite (off size value : Nat) (s : State) : Result :=
  s.mgmtWrites off (bytesLE (min 32 size) value) (mgmtPlaces off size)

end Sys2Proof.Machine
end

