-- ==== Sys2Proof/Machine/Dispatch.lean ====
section
/-!
DEFINITION. Sys2Proof/Machine/Dispatch.lean: the meaning of each row of the opcode table: one arm per constructor.
-/

namespace Sys2Proof.Machine

def exec (i : Instr) (s : State) : Host.Outcome State Fault Refusal :=
  match i with
  | .sadd d a b => Sys2Proof.Machine.execSadd d a b s
  | .ssub d a b => Sys2Proof.Machine.execSsub d a b s
  | .smul d a b => Sys2Proof.Machine.execSmul d a b s
  | .smulhu d a b => Sys2Proof.Machine.execSmulhu d a b s
  | .smulhs d a b => Sys2Proof.Machine.execSmulhs d a b s
  | .sand d a b => Sys2Proof.Machine.execSand d a b s
  | .sor d a b => Sys2Proof.Machine.execSor d a b s
  | .sxor d a b => Sys2Proof.Machine.execSxor d a b s
  | .sandn d a b => Sys2Proof.Machine.execSandn d a b s
  | .sshl d a b => Sys2Proof.Machine.execSshl d a b s
  | .sshr d a b => Sys2Proof.Machine.execSshr d a b s
  | .ssra d a b => Sys2Proof.Machine.execSsra d a b s
  | .smin d a b => Sys2Proof.Machine.execSmin d a b s
  | .smax d a b => Sys2Proof.Machine.execSmax d a b s
  | .sminu d a b => Sys2Proof.Machine.execSminu d a b s
  | .smaxu d a b => Sys2Proof.Machine.execSmaxu d a b s
  | .scmpeq d a b => Sys2Proof.Machine.execScmpeq d a b s
  | .scmplt d a b => Sys2Proof.Machine.execScmplt d a b s
  | .scmpltu d a b => Sys2Proof.Machine.execScmpltu d a b s
  | .smov d a => Sys2Proof.Machine.execSmov d a s
  | .sadd64 d a b => Sys2Proof.Machine.execSadd64 d a b s
  | .ssub64 d a b => Sys2Proof.Machine.execSsub64 d a b s
  | .slea64_1 d a b => Sys2Proof.Machine.execSlea64_1 d a b s
  | .slea64_2 d a b => Sys2Proof.Machine.execSlea64_2 d a b s
  | .slea64_3 d a b => Sys2Proof.Machine.execSlea64_3 d a b s
  | .slea64_4 d a b => Sys2Proof.Machine.execSlea64_4 d a b s
  | .sclz d a => Sys2Proof.Machine.execSclz d a s
  | .spop d a => Sys2Proof.Machine.execSpop d a s
  | .sbrev d a => Sys2Proof.Machine.execSbrev d a s
  | .sbfe d a b => Sys2Proof.Machine.execSbfe d a b s
  | .smovi d imm => Sys2Proof.Machine.execSmovi d imm s
  | .saddi d imm => Sys2Proof.Machine.execSaddi d imm s
  | .sandi d imm => Sys2Proof.Machine.execSandi d imm s
  | .sori d imm => Sys2Proof.Machine.execSori d imm s
  | .sxori d imm => Sys2Proof.Machine.execSxori d imm s
  | .sshli d n => Sys2Proof.Machine.execSshli d n s
  | .sshri d n => Sys2Proof.Machine.execSshri d n s
  | .ssrai d n => Sys2Proof.Machine.execSsrai d n s
  | .scmpeqi d imm => Sys2Proof.Machine.execScmpeqi d imm s
  | .scmplti d imm => Sys2Proof.Machine.execScmplti d imm s
  | .sadd64i d imm => Sys2Proof.Machine.execSadd64i d imm s
  | .ssysr d r => Sys2Proof.Machine.execSsysr d r s
  | .ssysw d r => Sys2Proof.Machine.execSsysw d r s
  | .stime d => Sys2Proof.Machine.execStime d s
  | .br f => Sys2Proof.Machine.execBr f s
  | .brsz c f => Sys2Proof.Machine.execBrsz c f s
  | .brsnz c f => Sys2Proof.Machine.execBrsnz c f s
  | .brp c f => Sys2Proof.Machine.execBrp c f s
  | .brnp c f => Sys2Proof.Machine.execBrnp c f s
  | .brany c f => Sys2Proof.Machine.execBrany c f s
  | .brall c f => Sys2Proof.Machine.execBrall c f s
  | .call c f => Sys2Proof.Machine.execCall c f s
  | .calli c sc => Sys2Proof.Machine.execCalli c sc s
  | .bri c => Sys2Proof.Machine.execBri c s
  | .loopd c f => Sys2Proof.Machine.execLoopd c f s
  | .refill c f => Sys2Proof.Machine.execRefill c f s
  | .jnew j => Sys2Proof.Machine.execJnew j s
  | .jenter j => Sys2Proof.Machine.execJenter j s
  | .jquit j => Sys2Proof.Machine.execJquit j s
  | .jwait j => Sys2Proof.Machine.execJwait j s
  | .jmask j x y => Sys2Proof.Machine.execJmask j x y s
  | .jwmask j x => Sys2Proof.Machine.execJwmask j x s
  | .jfree j => Sys2Proof.Machine.execJfree j s
  | .jsetm j x y => Sys2Proof.Machine.execJsetm j x y s
  | .band y => Sys2Proof.Machine.execBand y s
  | .trap y => Sys2Proof.Machine.execTrap y s
  | .svc y => Sys2Proof.Machine.execSvc y s
  | .softint x y => Sys2Proof.Machine.execSoftint x y s
  | .snuffhold x => Sys2Proof.Machine.execSnuffhold x s
  | .snuffpc x y => Sys2Proof.Machine.execSnuffpc x y s
  | .valid x y => Sys2Proof.Machine.execValid x y s
  | .bkpt y => Sys2Proof.Machine.execBkpt y s
  | .fan x y => Sys2Proof.Machine.execFan x y s
  | .enqTry x y => Sys2Proof.Machine.execEnqTry x y s
  | .enqPark x y => Sys2Proof.Machine.execEnqPark x y s
  | .vadd d a b h => Sys2Proof.Machine.execVadd d a b h s
  | .vsub d a b h => Sys2Proof.Machine.execVsub d a b h s
  | .vmullo d a b h => Sys2Proof.Machine.execVmullo d a b h s
  | .vmulhu d a b h => Sys2Proof.Machine.execVmulhu d a b h s
  | .vmulhs d a b h => Sys2Proof.Machine.execVmulhs d a b h s
  | .vmad d a b h => Sys2Proof.Machine.execVmad d a b h s
  | .vand d a b h => Sys2Proof.Machine.execVand d a b h s
  | .vor d a b h => Sys2Proof.Machine.execVor d a b h s
  | .vxor d a b h => Sys2Proof.Machine.execVxor d a b h s
  | .vandn d a b h => Sys2Proof.Machine.execVandn d a b h s
  | .vshl d a b h => Sys2Proof.Machine.execVshl d a b h s
  | .vshr d a b h => Sys2Proof.Machine.execVshr d a b h s
  | .vsra d a b h => Sys2Proof.Machine.execVsra d a b h s
  | .vmin d a b h => Sys2Proof.Machine.execVmin d a b h s
  | .vmax d a b h => Sys2Proof.Machine.execVmax d a b h s
  | .vminu d a b h => Sys2Proof.Machine.execVminu d a b h s
  | .vmaxu d a b h => Sys2Proof.Machine.execVmaxu d a b h s
  | .vabsd d a b h => Sys2Proof.Machine.execVabsd d a b h s
  | .vmov d a => Sys2Proof.Machine.execVmov d a s
  | .vsel d a b => Sys2Proof.Machine.execVsel d a b s
  | .vcmpeq d a b h => Sys2Proof.Machine.execVcmpeq d a b h s
  | .vcmpne d a b h => Sys2Proof.Machine.execVcmpne d a b h s
  | .vcmplt d a b h => Sys2Proof.Machine.execVcmplt d a b h s
  | .vcmple d a b h => Sys2Proof.Machine.execVcmple d a b h s
  | .vcmpltu d a b h => Sys2Proof.Machine.execVcmpltu d a b h s
  | .vcmpleu d a b h => Sys2Proof.Machine.execVcmpleu d a b h s
  | .vpand d a b h => Sys2Proof.Machine.execVpand d a b h s
  | .vpor d a b h => Sys2Proof.Machine.execVpor d a b h s
  | .vpxor d a b h => Sys2Proof.Machine.execVpxor d a b h s
  | .vpnot d a h => Sys2Proof.Machine.execVpnot d a h s
  | .vptov d a b => Sys2Proof.Machine.execVptov d a b s
  | .vvtop d a b h => Sys2Proof.Machine.execVvtop d a b h s
  | .vclz d a h => Sys2Proof.Machine.execVclz d a h s
  | .vpop d a h => Sys2Proof.Machine.execVpop d a h s
  | .vbfe d a b => Sys2Proof.Machine.execVbfe d a b s
  | .vlea d a b => Sys2Proof.Machine.execVlea d a b s
  | .fadd d a b h => Sys2Proof.Machine.execFadd d a b h s
  | .fsub d a b h => Sys2Proof.Machine.execFsub d a b h s
  | .fmul d a b h => Sys2Proof.Machine.execFmul d a b h s
  | .fma d a b h => Sys2Proof.Machine.execFma d a b h s
  | .fmin d a b h => Sys2Proof.Machine.execFmin d a b h s
  | .fmax d a b h => Sys2Proof.Machine.execFmax d a b h s
  | .fabs d a h => Sys2Proof.Machine.execFabs d a h s
  | .fneg d a h => Sys2Proof.Machine.execFneg d a h s
  | .fcmpeq d a b h => Sys2Proof.Machine.execFcmpeq d a b h s
  | .fcmplt d a b h => Sys2Proof.Machine.execFcmplt d a b h s
  | .fcmple d a b h => Sys2Proof.Machine.execFcmple d a b h s
  | .fcmpun d a b h => Sys2Proof.Machine.execFcmpun d a b h s
  | .fcvt d a b => Sys2Proof.Machine.execFcvt d a b s
  | .fcvti d a b => Sys2Proof.Machine.execFcvti d a b s
  | .icvtf d a b => Sys2Proof.Machine.execIcvtf d a b s
  | .frnd d a h => Sys2Proof.Machine.execFrnd d a h s
  | .fclass d a h => Sys2Proof.Machine.execFclass d a h s
  | .fdot2 d a b => Sys2Proof.Machine.execFdot2 d a b s
  | .fmxup d a b => Sys2Proof.Machine.execFmxup d a b s
  | .fmxpk d a b => Sys2Proof.Machine.execFmxpk d a b s
  | .fmxscl a b h => Sys2Proof.Machine.execFmxscl a b h s
  | .fmxmul d a b h => Sys2Proof.Machine.execFmxmul d a b h s
  | .fmxadd d a b h => Sys2Proof.Machine.execFmxadd d a b h s
  | .fscale d a b h => Sys2Proof.Machine.execFscale d a b h s
  | .xpull d a b j => Sys2Proof.Machine.execXpull d a b j s
  | .xback d a b j => Sys2Proof.Machine.execXback d a b j s
  | .xfwd d a b j => Sys2Proof.Machine.execXfwd d a b j s
  | .xflip d a b j => Sys2Proof.Machine.execXflip d a b j s
  | .pany d a j => Sys2Proof.Machine.execPany d a j s
  | .pall d a j => Sys2Proof.Machine.execPall d a j s
  | .xsame d a j => Sys2Proof.Machine.execXsame d a j s
  | .pmask d a j => Sys2Proof.Machine.execPmask d a j s
  | .redAdd d a j => Sys2Proof.Machine.execRedAdd d a j s
  | .redMin d a j => Sys2Proof.Machine.execRedMin d a j s
  | .redMax d a j => Sys2Proof.Machine.execRedMax d a j s
  | .redFadd d a j => Sys2Proof.Machine.execRedFadd d a j s
  | .redFmax d a j => Sys2Proof.Machine.execRedFmax d a j s
  | .scanAdd d a j => Sys2Proof.Machine.execScanAdd d a j s
  | .scanFadd d a j => Sys2Proof.Machine.execScanFadd d a j s
  | .sortKv d a j => Sys2Proof.Machine.execSortKv d a j s
  | .topk d a b j => Sys2Proof.Machine.execTopk d a b j s
  | .search d a b j => Sys2Proof.Machine.execSearch d a b j s
  | .cxch d a b j => Sys2Proof.Machine.execCxch d a b j s
  | .xeqm d a j => Sys2Proof.Machine.execXeqm d a j s
  | .fexp2 d a m L => Sys2Proof.Machine.execFexp2 d a m L s
  | .flog2 d a m L => Sys2Proof.Machine.execFlog2 d a m L s
  | .frcp d a m L => Sys2Proof.Machine.execFrcp d a m L s
  | .frsqrt d a m L => Sys2Proof.Machine.execFrsqrt d a m L s
  | .fsqrt d a m L => Sys2Proof.Machine.execFsqrt d a m L s
  | .fsin d a m L => Sys2Proof.Machine.execFsin d a m L s
  | .fcos d a m L => Sys2Proof.Machine.execFcos d a m L s
  | .ftanh d a m L => Sys2Proof.Machine.execFtanh d a m L s
  | .fexp d a m L => Sys2Proof.Machine.execFexp d a m L s
  | .vldB8 t x idx L => Sys2Proof.Machine.execVldB8 t x idx L s
  | .vldB16 t x idx L => Sys2Proof.Machine.execVldB16 t x idx L s
  | .vldW t x idx L => Sys2Proof.Machine.execVldW t x idx L s
  | .vldD t x idx L => Sys2Proof.Machine.execVldD t x idx L s
  | .vldQ t x idx L => Sys2Proof.Machine.execVldQ t x idx L s
  | .vstB8 t x idx => Sys2Proof.Machine.execVstB8 t x idx s
  | .vstB16 t x idx => Sys2Proof.Machine.execVstB16 t x idx s
  | .vstW t x idx => Sys2Proof.Machine.execVstW t x idx s
  | .vstD t x idx => Sys2Proof.Machine.execVstD t x idx s
  | .vstQ t x idx => Sys2Proof.Machine.execVstQ t x idx s
  | .vldsW t x idx L => Sys2Proof.Machine.execVldsW t x idx L s
  | .vstsW t x idx => Sys2Proof.Machine.execVstsW t x idx s
  | .vldsQ t x idx L => Sys2Proof.Machine.execVldsQ t x idx L s
  | .vstsQ t x idx => Sys2Proof.Machine.execVstsQ t x idx s
  | .vldmW t x idx L => Sys2Proof.Machine.execVldmW t x idx L s
  | .vstmW t x idx => Sys2Proof.Machine.execVstmW t x idx s
  | .vatom t x idx L => Sys2Proof.Machine.execVatom t x idx L s
  | .sldW d x L sc o => Sys2Proof.Machine.execSldW d x L sc o s
  | .sldD d x L sc o => Sys2Proof.Machine.execSldD d x L sc o s
  | .sldQ d x L sc o => Sys2Proof.Machine.execSldQ d x L sc o s
  | .sstW d x sc o => Sys2Proof.Machine.execSstW d x sc o s
  | .sstD d x sc o => Sys2Proof.Machine.execSstD d x sc o s
  | .sstQ d x sc o => Sys2Proof.Machine.execSstQ d x sc o s
  | .satomAdd d x L sc o => Sys2Proof.Machine.execSatomAdd d x L sc o s
  | .satomMin d x L sc o => Sys2Proof.Machine.execSatomMin d x L sc o s
  | .satomMax d x L sc o => Sys2Proof.Machine.execSatomMax d x L sc o s
  | .satomAnd d x L sc o => Sys2Proof.Machine.execSatomAnd d x L sc o s
  | .satomOr d x L sc o => Sys2Proof.Machine.execSatomOr d x L sc o s
  | .satomXor d x L sc o => Sys2Proof.Machine.execSatomXor d x L sc o s
  | .satomXchg d x L sc o => Sys2Proof.Machine.execSatomXchg d x L sc o s
  | .satomCas d x L sc o => Sys2Proof.Machine.execSatomCas d x L sc o s
  | .satomAdd64 d x L sc o => Sys2Proof.Machine.execSatomAdd64 d x L sc o s
  | .satomCas64 d x L sc o => Sys2Proof.Machine.execSatomCas64 d x L sc o s
  | .acq d x L sc => Sys2Proof.Machine.execAcq d x L sc s
  | .rel d x sc => Sys2Proof.Machine.execRel d x sc s
  | .bind d x L => Sys2Proof.Machine.execBind d x L s
  | .unbind d x L => Sys2Proof.Machine.execUnbind d x L s
  | .sldsW d x L sc o => Sys2Proof.Machine.execSldsW d x L sc o s
  | .sstsW d x sc o => Sys2Proof.Machine.execSstsW d x sc o s
  | .ssigSub d x sc => Sys2Proof.Machine.execSsigSub d x sc s
  | .waitc a n => Sys2Proof.Machine.execWaitc a n s
  | .barArr a sc => Sys2Proof.Machine.execBarArr a sc s
  | .barWait a b sc => Sys2Proof.Machine.execBarWait a b sc s
  | .barArrn a b sc => Sys2Proof.Machine.execBarArrn a b sc s
  | .arwait a b sc p => Sys2Proof.Machine.execArwait a b sc p s
  | .arset a b sc => Sys2Proof.Machine.execArset a b sc s
  | .sstep a => Sys2Proof.Machine.execSstep a s
  | .grpjoin a b => Sys2Proof.Machine.execGrpjoin a b s
  | .grpleave a b => Sys2Proof.Machine.execGrpleave a b s
  | .cancel a n => Sys2Proof.Machine.execCancel a n s
  | .notify a sc => Sys2Proof.Machine.execNotify a sc s
  | .sleep a b => Sys2Proof.Machine.execSleep a b s
  | .bcopy a b c => Sys2Proof.Machine.execBcopy a b c s
  | .bcopy2d a b c => Sys2Proof.Machine.execBcopy2d a b c s
  | .blist a b c => Sys2Proof.Machine.execBlist a b c s
  | .bkick a => Sys2Proof.Machine.execBkick a s
  | .fput a b c => Sys2Proof.Machine.execFput a b c s
  | .fsput a b c => Sys2Proof.Machine.execFsput a b c s
  | .fget a b c => Sys2Proof.Machine.execFget a b c s
  | .fatom a b c => Sys2Proof.Machine.execFatom a b c s
  | .fred a b c => Sys2Proof.Machine.execFred a b c s
  | .fresv a b c => Sys2Proof.Machine.execFresv a b c s
  | .fbulk a => Sys2Proof.Machine.execFbulk a s
  | .lattn a b c => Sys2Proof.Machine.execLattn a b c s
  | .balloc a b c => Sys2Proof.Machine.execBalloc a b c s
  | .bfree a b c => Sys2Proof.Machine.execBfree a b c s
  | .btent a b c => Sys2Proof.Machine.execBtent a b c s
  | .bdrop a c => Sys2Proof.Machine.execBdrop a c s
  | .bkeep a c => Sys2Proof.Machine.execBkeep a c s
  | .cohrec a b c => Sys2Proof.Machine.execCohrec a b c s
  | .macq n b t => Sys2Proof.Machine.execMacq n b t s
  | .mrel n => Sys2Proof.Machine.execMrel n s
  | .mma n a b => Sys2Proof.Machine.execMma n a b s
  | .mmaz n a b => Sys2Proof.Machine.execMmaz n a b s
  | .mjob a w => Sys2Proof.Machine.execMjob a w s
  | .mdrain n a b c => Sys2Proof.Machine.execMdrain n a b c s
  | .mfill n a b d => Sys2Proof.Machine.execMfill n a b d s
  | .mzero n a => Sys2Proof.Machine.execMzero n a s
  | .mprog a b => Sys2Proof.Machine.execMprog a b s
  | .mtile a b f => Sys2Proof.Machine.execMtile a b f s
  | .ret => Sys2Proof.Machine.execRet s
  | .end_ => Sys2Proof.Machine.execEnd s
  | .yield => Sys2Proof.Machine.execYield s
  | .snuffrel => Sys2Proof.Machine.execSnuffrel s
  | .region => Sys2Proof.Machine.execRegion s
  | .halt => Sys2Proof.Machine.execHalt s
  | .vpref => Sys2Proof.Machine.execVpref s
  | .fence => Sys2Proof.Machine.execFence s
  | .pfx => Sys2Proof.Machine.execPfx s
  | .lookaheadResultCommit gang => Sys2Proof.Machine.execLookaheadResultCommit gang s
  | .stackServiceDone gang => Sys2Proof.Machine.execStackServiceDone gang s
  | .svcRingRoom gang => Sys2Proof.Machine.execSvcRingRoom gang s
  | .enqParkRoom gang => Sys2Proof.Machine.execEnqParkRoom gang s
  | .gangUnpark gang => Sys2Proof.Machine.execGangUnpark gang s
  | .sleepTimeout gang => Sys2Proof.Machine.execSleepTimeout gang s
  | .meridianRelease launch group => Sys2Proof.Machine.execMeridianRelease launch group s
  | .engineUnitCommit op => Sys2Proof.Machine.execEngineUnitCommit op s
  | .engineOpRetire gang cls => Sys2Proof.Machine.execEngineOpRetire gang cls s
  | .jobCardRead op => Sys2Proof.Machine.execJobCardRead op s
  | .mjobStart op => Sys2Proof.Machine.execMjobStart op s
  | .twinPartnerBankAcquire op => Sys2Proof.Machine.execTwinPartnerBankAcquire op s
  | .lattnWickRequest op => Sys2Proof.Machine.execLattnWickRequest op s
  | .lanternTriple op unit => Sys2Proof.Machine.execLanternTriple op unit s
  | .wickGrant => Sys2Proof.Machine.execWickGrant s
  | .chandlerPeriod draw nonWick swaps => Sys2Proof.Machine.execChandlerPeriod draw nonWick swaps s
  | .remapSwapComplete stack => Sys2Proof.Machine.execRemapSwapComplete stack s
  | .translationWalk ctx va kind die => Sys2Proof.Machine.execTranslationWalk ctx va kind die s
  | .pinLimitExpiry line => Sys2Proof.Machine.execPinLimitExpiry line s
  | .snuffHoldExpiry gang => Sys2Proof.Machine.execSnuffHoldExpiry gang s
  | .snuffTime launch => Sys2Proof.Machine.execSnuffTime launch s
  | .deadlineKill launch => Sys2Proof.Machine.execDeadlineKill launch s
  | .slackRecompute die => Sys2Proof.Machine.execSlackRecompute die s
  | .prewaitExpiry die => Sys2Proof.Machine.execPrewaitExpiry die s
  | .gangRestore gang cores => Sys2Proof.Machine.execGangRestore gang cores s
  | .queueIntake queue => Sys2Proof.Machine.execQueueIntake queue s
  | .launchAdmission die cores => Sys2Proof.Machine.execLaunchAdmission die cores s
  | .gangPlacement die cores => Sys2Proof.Machine.execGangPlacement die cores s
  | .launchCompletion launch => Sys2Proof.Machine.execLaunchCompletion launch s
  | .signalMarker queue => Sys2Proof.Machine.execSignalMarker queue s
  | .ticketLeaseExpiry die ticket => Sys2Proof.Machine.execTicketLeaseExpiry die ticket s
  | .reclaimExecute ctx => Sys2Proof.Machine.execReclaimExecute ctx s
  | .firmwareCheckComplete => Sys2Proof.Machine.execFirmwareCheckComplete s
  | .reset => Sys2Proof.Machine.execReset s
  | .fwgo v => Sys2Proof.Machine.execFwgo v s
  | .lampctl v => Sys2Proof.Machine.execLampctl v s
  | .queueActivate queue => Sys2Proof.Machine.execQueueActivate queue s
  | .queueTurnOff queue => Sys2Proof.Machine.execQueueTurnOff queue s
  | .queueStop queue => Sys2Proof.Machine.execQueueStop queue s
  | .notifyRegister queue v => Sys2Proof.Machine.execNotifyRegister queue v s
  | .wake queue code => Sys2Proof.Machine.execWake queue code s
  | .sdoor ctx => Sys2Proof.Machine.execSdoor ctx s
  | .fdone v => Sys2Proof.Machine.execFdone v s
  | .fqtail v => Sys2Proof.Machine.execFqtail v s
  | .suspend ctx => Sys2Proof.Machine.execSuspend ctx s
  | .suspendClear ctx => Sys2Proof.Machine.execSuspendClear ctx s
  | .ctxtrap ctx v => Sys2Proof.Machine.execCtxtrap ctx v s
  | .ctxpin ctx v => Sys2Proof.Machine.execCtxpin ctx v s
  | .fabtmo v => Sys2Proof.Machine.execFabtmo v s
  | .dumpack ctx => Sys2Proof.Machine.execDumpack ctx s
  | .rcgo ctx v => Sys2Proof.Machine.execRcgo ctx v s
  | .tlbinv ctx v => Sys2Proof.Machine.execTlbinv ctx v s
  | .tlbInvalidationComplete ctx => Sys2Proof.Machine.execTlbInvalidationComplete ctx s
  | .rmapctl v => Sys2Proof.Machine.execRmapctl v s
  | .poolEnable ctx => Sys2Proof.Machine.execPoolEnable ctx s
  | .dropall ctx => Sys2Proof.Machine.execDropall ctx s
  | .ephset v => Sys2Proof.Machine.execEphset v s
  | .chcfgClr die chrono v => Sys2Proof.Machine.execChcfgClr die chrono v s
  | .errclr die => Sys2Proof.Machine.execErrclr die s
  | .ypctlEnable port => Sys2Proof.Machine.execYpctlEnable port s
  | .ykeygo port v => Sys2Proof.Machine.execYkeygo port v s
  | .mgmtRegisterWrite off size value => Sys2Proof.Machine.execMgmtRegisterWrite off size value s
  | .ptpSync twoStep domain seq origin => Sys2Proof.Machine.execPtpSync twoStep domain seq origin s
  | .ptpFollowUp domain seq origin => Sys2Proof.Machine.execPtpFollowUp domain seq origin s
  | .ptpDelayResp domain seq received => Sys2Proof.Machine.execPtpDelayResp domain seq received s
  | .ptpManagement => Sys2Proof.Machine.execPtpManagement s
  | .syncLossTimeout => Sys2Proof.Machine.execSyncLossTimeout s
  | .flitReceive port flit => Sys2Proof.Machine.execFlitReceive port flit s
  | .dieLinkFlitReceive sender receiver flit => Sys2Proof.Machine.execDieLinkFlitReceive sender receiver flit s
  | .dieLinkReplayRequest sender receiver number => Sys2Proof.Machine.execDieLinkReplayRequest sender receiver number s
  | .put p port dropIt => Sys2Proof.Machine.execPut p port dropIt s
  | .sput p port => Sys2Proof.Machine.execSput p port s
  | .get p port => Sys2Proof.Machine.execGet p port s
  | .getResponse p port => Sys2Proof.Machine.execGetResponse p port s
  | .atom p port => Sys2Proof.Machine.execAtom p port s
  | .atomResponse p port => Sys2Proof.Machine.execAtomResponse p port s
  | .red p port => Sys2Proof.Machine.execRed p port s
  | .redResult p port => Sys2Proof.Machine.execRedResult p port s
  | .remoteErrorResponse p port => Sys2Proof.Machine.execRemoteErrorResponse p port s
  | .cohRd p port => Sys2Proof.Machine.execCohRd p port s
  | .cohRdx p port => Sys2Proof.Machine.execCohRdx p port s
  | .cohWb p port => Sys2Proof.Machine.execCohWb p port s
  | .cohSnp p port => Sys2Proof.Machine.execCohSnp p port s
  | .cohData p port => Sys2Proof.Machine.execCohData p port s
  | .cohErr p port => Sys2Proof.Machine.execCohErr p port s
  | .cohGone p port => Sys2Proof.Machine.execCohGone p port s
  | .cohSnoopTimeout line => Sys2Proof.Machine.execCohSnoopTimeout line s
  | .resvRequest p port => Sys2Proof.Machine.execResvRequest p port s
  | .resvGrant p port => Sys2Proof.Machine.execResvGrant p port s
  | .resvRefusal p port => Sys2Proof.Machine.execResvRefusal p port s
  | .resvRetryTimer xfer => Sys2Proof.Machine.execResvRetryTimer xfer s
  | .resvGrantExpiry grant => Sys2Proof.Machine.execResvGrantExpiry grant s
  | .ack p port => Sys2Proof.Machine.execAck p port s
  | .nak p port => Sys2Proof.Machine.execNak p port s
  | .dropnote p port => Sys2Proof.Machine.execDropnote p port s
  | .bulkack p port => Sys2Proof.Machine.execBulkack p port s
  | .bulkend p port => Sys2Proof.Machine.execBulkend p port s
  | .restripe port mask => Sys2Proof.Machine.execRestripe port mask s
  | .keyswitch port => Sys2Proof.Machine.execKeyswitch port s
  | .keyreq port => Sys2Proof.Machine.execKeyreq port s
  | .credit port cls amount => Sys2Proof.Machine.execCredit port cls amount s
  | .replay port flit => Sys2Proof.Machine.execReplay port flit s
  | .keyWaitTimeout port => Sys2Proof.Machine.execKeyWaitTimeout port s
  | .flowPortTimeout flow => Sys2Proof.Machine.execFlowPortTimeout flow s
  | .correctedError die u => Sys2Proof.Machine.execCorrectedError die u s
  | .uncorrectableError die at' => Sys2Proof.Machine.execUncorrectableError die at' s
  | .selfTestComplete die u pass => Sys2Proof.Machine.execSelfTestComplete die u pass s
  | .synchronousInstructionFinish gang => Sys2Proof.Machine.execSynchronousInstructionFinish gang s
  | .portTrainingComplete port mask => Sys2Proof.Machine.execPortTrainingComplete port mask s
  | .ptpDelayReqTimer => Sys2Proof.Machine.execPtpDelayReqTimer s
  | .ptpAnnounce domain master => Sys2Proof.Machine.execPtpAnnounce domain master s

end Sys2Proof.Machine
end

