-- ==== Sys2Proof/Machine/Windows.lean ====
section
/-!
DEFINITION. Sys2Proof/Machine/Windows.lean: what the front end does before an instruction issues: the registers it writes, the
windows it closes (R26 to R28, R229), the checks that depend on the machine (R31, R33 cases 3, 9, 10).
-/

namespace Sys2Proof.Machine

/-! ### What an instruction writes (R28) -/

/-- A register that a window may hold back. -/
inductive Reg where
  | v (n : Nat)
  | p (n : Nat)
  | s (n : Nat)
  deriving DecidableEq, Repr

/-- Consecutive registers. -/
def vRegs (n k : Nat) : List Reg := (List.range k).map fun i => .v (n + i)
def sRegs (n k : Nat) : List Reg := (List.range k).map fun i => .s (n + i)

/-- The `v`, `p` and `s` registers that an instruction writes, MDRAIN's apart. A write to `p0` that is discarded counts as one, also as a
window's destination (log 49, DESIGN CHOICE). -/
def instrWrites (p : Pfx) : Instr → List Reg
  | .sadd d _ _ | .ssub d _ _ | .smul d _ _ | .smulhu d _ _ | .smulhs d _ _ | .sand d _ _ | .sor d _ _ | .sxor d _ _
  | .sandn d _ _ | .sshl d _ _ | .sshr d _ _ | .ssra d _ _ | .smin d _ _ | .smax d _ _ | .sminu d _ _ | .smaxu d _ _
  | .scmpeq d _ _ | .scmplt d _ _ | .scmpltu d _ _ | .smov d _ | .sclz d _ | .spop d _ | .sbrev d _ | .sbfe d _ _
  | .smovi d _ | .saddi d _ | .sandi d _ | .sori d _ | .sxori d _ | .sshli d _ | .sshri d _ | .ssrai d _ | .scmpeqi d _
  | .scmplti d _ | .ssysr d _ | .sldW d _ _ _ _ | .satomAdd d _ _ _ _ | .satomMin d _ _ _ _ | .satomMax d _ _ _ _
  | .satomAnd d _ _ _ _ | .satomOr d _ _ _ _ | .satomXor d _ _ _ _ | .satomXchg d _ _ _ _ | .satomCas d _ _ _ _
  | .sldsW d _ _ _ _ => sRegs d.toNat 1
  | .sadd64 d _ _ | .ssub64 d _ _ | .slea64_1 d _ _ | .slea64_2 d _ _ | .slea64_3 d _ _ | .slea64_4 d _ _
  | .sadd64i d _ | .stime d | .sldD d _ _ _ _ | .satomAdd64 d _ _ _ _ | .satomCas64 d _ _ _ _ | .acq d _ _ _
    => sRegs d.toNat 2
  | .loopd c _ | .balloc _ _ c | .bfree _ _ c | .btent _ _ c | .bdrop _ c | .bkeep _ c | .cohrec _ _ c => sRegs c.toNat 1
  | .jmask _ x _ | .jwmask _ x | .fan x _ | .enqTry x _ | .enqPark x _ => sRegs x.toNat 1
  | .snuffpc x _ => vRegs x.toNat 1
  | .vadd d _ _ _ | .vsub d _ _ _ | .vmullo d _ _ _ | .vmulhu d _ _ _ | .vmulhs d _ _ _ | .vmad d _ _ _ | .vand d _ _ _
  | .vor d _ _ _ | .vxor d _ _ _ | .vandn d _ _ _ | .vshl d _ _ _ | .vshr d _ _ _ | .vsra d _ _ _ | .vmin d _ _ _
  | .vmax d _ _ _ | .vminu d _ _ _ | .vmaxu d _ _ _ | .vabsd d _ _ _ | .vmov d _ | .vsel d _ _ | .vptov d _ _
  | .vclz d _ _ | .vpop d _ _ | .vbfe d _ _ | .vlea d _ _ | .fadd d _ _ _ | .fsub d _ _ _ | .fmul d _ _ _
  | .fma d _ _ _ | .fmin d _ _ _ | .fmax d _ _ _ | .fabs d _ _ | .fneg d _ _ | .fcvt d _ _ | .fcvti d _ _
  | .icvtf d _ _ | .frnd d _ _ | .fclass d _ _ | .fdot2 d _ _ | .fmxup d _ _ | .fmxpk d _ _ | .fmxmul d _ _ _
  | .fmxadd d _ _ _ | .fscale d _ _ _ | .xpull d _ _ _ | .xback d _ _ _ | .xfwd d _ _ _ | .xflip d _ _ _ | .pmask d _ _
  | .redAdd d _ _ | .redMin d _ _ | .redMax d _ _ | .redFadd d _ _ | .redFmax d _ _ | .scanAdd d _ _ | .scanFadd d _ _
  | .search d _ _ _ | .cxch d _ _ _ | .xeqm d _ _ | .fexp2 d _ _ _ | .flog2 d _ _ _ | .frcp d _ _ _ | .frsqrt d _ _ _
  | .fsqrt d _ _ _ | .fsin d _ _ _ | .fcos d _ _ _ | .ftanh d _ _ _ | .fexp d _ _ _ => vRegs d.toNat 1
  | .vcmpeq d _ _ h | .vcmpne d _ _ h | .vcmplt d _ _ h | .vcmple d _ _ h | .vcmpltu d _ _ h | .vcmpleu d _ _ h
  | .vpand d _ _ h | .vpor d _ _ h | .vpxor d _ _ h | .vpnot d _ h | .vvtop d _ _ h | .fcmpeq d _ _ h | .fcmplt d _ _ h
  | .fcmple d _ _ h | .fcmpun d _ _ h => [.p (predIndex d h)]
  | .pany d _ _ | .pall d _ _ | .xsame d _ _ => [.p d.toNat]
  | .sortKv d a _ => vRegs d.toNat 1 ++ vRegs a.toNat 1
  | .topk d _ _ _ => vRegs d.toNat 3
  | .vldB8 t _ _ _ | .vldB16 t _ _ _ | .vldW t _ _ _ | .vldsW t _ _ _ | .vatom t _ _ _ => vRegs t.toNat 1
  | .vldD t _ _ _ => vRegs t.toNat 2
  | .vldQ t _ _ _ | .vldsQ t _ _ _ => vRegs t.toNat 4
  | .vldmW t _ _ _ => .p p.o.toNat :: vRegs t.toNat 1
  | .vstmW _ _ _ => [.p p.o.toNat]
  | .sldQ d _ _ _ _ => sRegs d.toNat 4
  | .bind d _ _ | .unbind d _ _ => sRegs (d.toNat + 3) 1
  | .grpjoin _ b | .grpleave _ b | .sleep _ b => sRegs b.toNat 1
  | .macq _ b t => if t = 1 then sRegs b.toNat 1 else []
  | .mprog a _ => sRegs a.toNat 4
  | _ => []

/-- The same with the registers of MDRAIN, which its row operand counts (R148). -/
def State.writes (s : State) (p : Pfx) (i : Instr) : List Reg :=
  match i with
  | .mdrain _ a t _ => vRegs t.toNat (min ((s.scalar a).toNat / 256 % 128) (64 - t.toNat))
  | i => instrWrites p i

/-! ### Windows (R26 to R28) -/

/-- Whether a window holds back one of some registers. -/
def Window.holds (w : Window) (rs : List Reg) : Bool :=
  w.vregs.any (fun nv => rs.contains (.v nv.1)) || w.preds.any fun nb => rs.contains (.p nb.1)
def SWindow.holds (w : SWindow) (rs : List Reg) : Bool := w.sregs.any fun nv => rs.contains (.s nv.1)

/-- The sequence number below which windows must close so that no lane of a mask keeps eight open ones (R28): one past the eighth
newest of the lane. -/
def Gang.roomFor (g : Gang) (l : Nat) : Nat :=
  let seqs := (g.lane l).wins.map Window.seq ++ (g.swins.filter fun w => w.lanes.getLsbD l).map SWindow.seq
  (seqs.filter fun q => decide (8 ≤ seqs.countP fun r => decide (q ≤ r))).foldl (fun m q => max m (q + 1)) 0

/-- Close the windows that a ninth one would push out, lane by lane. -/
def Gang.makeRoom (g : Gang) (m : LaneMask) : Gang :=
  (lanesOf m).foldl (fun g l =>
    let q := g.roomFor l
    g.closeWhere (laneBit l) (fun w => decide (w.seq < q)) fun w => w.lanes.getLsbD l && decide (w.seq < q)) g

/-- Whether an instruction closes every window of its lane group as it takes effect (R27, R58). -/
def State.closes (s : State) (i : Instr) : Bool :=
  let ls := lanesOf s.issue.lanes
  match i with
  | .br _ | .bri _ | .call _ _ | .calli _ _ | .ret | .jwait _ | .end_ => true
  | .brsz c _ => s.zeroTest c
  | .brsnz c _ => !s.zeroTest c
  | .brp c _ => ls.any fun l => s.predAt l c.toNat
  | .brnp c _ => ls.any fun l => !s.predAt l c.toNat
  | .brany c _ => s.issue.lanes == s.issue.src.liveMask && ls.any (s.bandTest false c)
  | .brall c _ => s.issue.lanes == s.issue.src.liveMask && ls.any (s.bandTest true c)
  | .loopd c _ => s.issue.src.sreg c.toNat != 1
  | .refill _ _ => s.cur.wrap || !(s.launchOf s.issue.gang).hasItem
  | _ => false

/-- Whether an instruction's results go through a window (R26): classes 7 to 9 with a destination. -/
def windowed (w : Word) (rs : List Reg) : Bool :=
  decide (7 ≤ classOf w) && decide (classOf w ≤ 9) && !rs.isEmpty

/-- Close windows of the chain's gang before an instruction issues, in the gang and in what the chain reads from (R28). -/
def State.closeBoth (s : State) (f : Gang → Gang) : State :=
  { s.updCur f with issue := { s.issue with src := f s.issue.src } }

/-- The number of FPFLAG (R35). -/
def sysFpflag : Nat := 0x014

/-- What closing some windows lets into FPFLAG: the flags, the words that raised them, and the flags of windows that the chain itself
opened (R229). -/
structure Closed where
  flags : BitVec 5
  raised : List (Nat × BitVec 5)
  own : BitVec 5
  deriving DecidableEq, Repr

/-- Nothing. -/
def Closed.none : Closed := { flags := 0, raised := [], own := 0 }

def Closed.join (a b : Closed) : Closed := { flags := a.flags ||| b.flags, raised := a.raised ++ b.raised, own := a.own ||| b.own }

/-- What closing some windows of lanes of the chain's gang lets in; windows from the count at the chain's start on are its own. -/
def State.closing (s : State) (m : LaneMask) (p : Window → Bool) : Closed :=
  { flags := s.cur.flagsWhere m p, raised := s.cur.raisedWhere m p,
    own := s.cur.flagsWhere m fun w => p w && decide (s.issue.src.windows ≤ w.seq) }

/-- What making room for a ninth window lets in, lane by lane (R28). -/
def State.roomClosing (s : State) (m : LaneMask) : Closed :=
  (lanesOf m).foldl (fun c l => c.join (s.closing (laneBit l) fun w => decide (w.seq < s.cur.roomFor l))) Closed.none

/-- What precedes the issue of an instruction with the chain's lanes: windows that have counted close, then those of the registers it
writes, those that a ninth window pushes out, all that its event closes, and, for a read of FPFLAG, the class 7 ones of every lane; then
it is counted (R26 to R28, R229). The instruction reads registers as they stood before the chain issued (R14), but for windows that R28
closes for its own sake; the instructions after it read again what stood before the chain (log 11, DEDUCED). -/
def State.closeFor (s : State) (p : Pfx) (i : Instr) : State × Closed :=
  let m := s.issue.lanes
  let rs := s.writes p i
  let c1 := s.closing m fun w => w.left == 0
  let s := s.updCur fun g => g.closeCounted m
  let sync := fun (l : Nat) (x : Lane) => { x with wins := (s.cur.lane l).wins }
  let s := { s with issue := { s.issue with src := { s.issue.src.updLanes s.cur.liveMask sync with swins := s.cur.swins } } }
  let c2 := s.closing m fun w => w.holds rs
  let s := s.closeBoth fun g => g.closeWhere m (fun w => w.holds rs) fun w => w.holds rs
  let room := windowed s.issue.word rs
  let c3 := if room then s.roomClosing m else Closed.none
  let s := if room then s.closeBoth fun g => g.makeRoom m else s
  let all := s.closes i
  let c4 := if all then s.closing m fun _ => true else Closed.none
  let s := if all then s.updCur fun g => g.closeAll m else s
  let fpflag := match i with | .ssysr _ r => r.toNat == sysFpflag | _ => false
  let live := s.cur.liveMask
  let c5 := if fpflag then s.closing live Window.seven else Closed.none
  let s := if fpflag then s.closeBoth fun g => g.closeWhere live Window.seven fun _ => false else s
  (s.updCur fun g => g.countInstr m, (((c1.join c2).join c3).join c4).join c5)

/-- The same, with the flags noted that closing let in (R229). -/
def State.closeBefore (s : State) (p : Pfx) (i : Instr) : State × Closed :=
  let c := s.closeFor p i
  (c.1.noteEntered c.2.flags c.2.own, c.2)

/-! ### Checks that depend on the machine (R31, R33) -/

/-- Whether only a Lamplighter slot may issue an instruction (R30). -/
def privileged (i : Instr) : Bool :=
  match i with
  | .halt | .jsetm _ _ _ | .cohrec _ _ _ => true
  | .ssysw _ r => sysPrivileged r.toNat
  | _ => false

/-- Whether a branch, call or return leads nowhere (case 10): relative targets, absolute ones, and trap-return offsets (R33). -/
def State.leadsNowhere (s : State) (i : Instr) : Bool :=
  match i with
  | .br f | .brsz _ f | .brsnz _ f | .brp _ f | .brnp _ f | .brany _ f | .brall _ f | .call _ f | .loopd _ f | .refill _ f =>
    (s.relTarget f).isNone
  | .calli c _ | .bri c => (s.absTarget (s.pairAt c.toNat)).isNone
  | .ret => (lanesOf s.issue.lanes).any fun l => s.checkReturn l == .bad
  | _ => false

/-- The lowest case that depends on the machine and not on what a branch does, for one instruction of the chain (R30, R39) (log 21, DEDUCED). -/
def State.dynCase (s : State) (n : Insn) : Option Nat :=
  match n.instr with
  | .region => if (s.codeOf s.cur).regions.length ≤ n.word.toNat % 2 ^ 17 then some 3 else none
  | i =>
    if privileged i && !s.cur.lamp then some 9 else none

end Sys2Proof.Machine
end

