-- ==== Sys2Proof/Machine/Issue.lean ====
section
/-!
DEFINITION. Sys2Proof/Machine/Issue.lean: one chain of one gang: the choice of its lane group (R60, R207 to R209), the fetch and the
checks of the whole chain (R9, R13, R31 to R33), its instructions in slot order, what follows the chain (R14, R82, R244), and
the waits that end or close a cycle (R52, R57, R96, R214). Also the time base (R351) and the order of gangs (R363).
-/

namespace Sys2Proof.Machine

/-! ### Lane groups (R207 to R209) -/

/-- The ready lanes of a gang. -/
def Gang.readyLanes (g : Gang) : LaneMask := g.lanesWhere fun _ x => x.live && x.wait == .ready

/-- The lanes of a mask that stand at an offset. -/
def Gang.lanesAt (g : Gang) (m : LaneMask) (pc : Nat) : LaneMask := m &&& g.lanesWhere fun _ x => x.pc == pc

/-- The offsets at which some lanes stand, ascending. -/
def Gang.standing (g : Gang) (m : LaneMask) : List Nat :=
  let insert := fun (t : Table Unit) l => Table.put (g.lane l).pc () t
  ((lanesOf m).foldl insert []).map Prod.fst

/-- Whether a lane group stands back after its YIELD: each of its lanes has yielded and some other ready group has not issued since
(R60). -/
def Gang.standsBack (g : Gang) (ready m : LaneMask) : Bool :=
  let since := ((lanesOf m).map fun l => (g.lane l).yieldAt).foldl min (g.chains + 1)
  ((lanesOf m).all fun l => decide (0 < (g.lane l).yieldAt) && (g.lane l).yieldAt == (g.lane l).lastIssue) &&
    (lanesOf (ready &&& ~~~m)).any fun l => decide ((g.lane l).lastIssue ≤ since) && (g.lane l).lastIssue != since

/-- The lane group that issues next (R208): the lowest offset among the ready lanes, unless it stands back or hands the slot on at a
yield count of 16 (R209). -/
def Gang.select (g : Gang) (ready : LaneMask) : Option (Nat × LaneMask) :=
  let all := (g.standing ready).map fun pc => (pc, g.lanesAt ready pc)
  let free := all.filter fun p => !g.standsBack ready p.2
  match if free.isEmpty then all else free with
  | [] => none
  | [p] => some p
  | p :: q :: _ => if (lanesOf p.2).any fun l => (g.lane l).cnt == 16 then some q else some p

/-! ### The chain -/

/-- How the issue of a chain ends. -/
inductive Issued where
  /-- nothing could issue and nothing changed -/
  | held
  | went (r : Host.Outcome State Fault Refusal)

/-- The package with a lane group's chain set up: the fetch has left its translation in the TLBs, the group stands past the chain, and the
gang as it was is what it reads. -/
def State.openChain (s : State) (key pc : Nat) (m : LaneMask) (nextPc : Nat) : State :=
  let g := s.gangAt key
  let s := (s.unplan key).noteRange (s.agentOf key) ((s.codeOf g).base + BitVec.ofNat 64 (pc / 12 * 12)) 12
  let s := { s with issue := { Issue.idle with gang := key, lanes := m, chainPc := pc, pc := pc, nextPc := nextPc, src := g.closeCounted m } }
  s.updCur fun g => g.updLanes m fun _ x => { x with pc := nextPc, wait := .ready }

/-- Set up one instruction of the chain. -/
def State.setInsn (s : State) (n : Insn) (more : Bool) : State :=
  { s with issue := { s.issue with
      pc := s.issue.chainPc / 12 * 12 + 4 * n.first, word := n.word, literal := n.literal.getD 0, pfx := Pfx.none, more := more } }

/-- Run a prefix word, so that its target finds its fields (R24, R25). -/
def State.runPfx (s : State) (ws : List Word) (n : Insn) : Host.Outcome State Fault Refusal :=
  match n.pfx with
  | none => .next s
  | some _ =>
    match exec .pfx { s with issue := { s.issue with word := slotWord ws n.first } } with
    | .next t => .next { t with issue := { t.issue with word := n.word } }
    | r => r

/-- Whether the lanes of the chain are gone from it. -/
def State.chainOver (s : State) : Bool := s.issue.diverted || s.issue.hold != 0

/-- The arithmetic trap of class 7 flags that closing windows let in, before the present instruction takes effect (R229). -/
def State.trapClosed (s : State) (c : Closed) : State :=
  let s := { s with issue := { s.issue with flags := s.issue.flags ||| c.flags, raised := s.issue.raised ++ c.raised } }
  s.deliverPending s.issue.lanes fun _ => s.issue.pc

/-- What every instruction of a chain reads registers from: the gang as it stood before the chain (R14). -/
def State.readsFrom (s : State) (src : Gang) : State := { s with issue := { s.issue with src := src } }

/-- One instruction of the chain: windows, the arithmetic trap of a class 7 flag, then its meaning (R14, R26 to R28, R229). -/
def State.runInsn (s : State) (ws : List Word) (n : Insn) (more : Bool) : Host.Outcome State Fault Refusal :=
  match (s.setInsn n more).runPfx ws n with
  | .next t =>
    let c := t.closeBefore t.issue.pfx n.instr
    if c.2.flags &&& c.1.cur.fptrap != 0 then .next (c.1.trapClosed c.2)
    else
      match exec n.instr c.1 with
      | .next v => .next (v.readsFrom s.issue.src)
      | r => r
  | r => r

/-- The instructions of a chain in slot order, until the lanes are gone from it (log 17, DEDUCED). -/
def State.runInsns (s : State) (ws : List Word) : List Insn → Host.Outcome State Fault Refusal
  | [] => .next s
  | n :: ns =>
    match s.runInsn ws n (!ns.isEmpty) with
    | .next t => if t.chainOver then .next t else t.runInsns ws ns
    | r => r

/-- A chain that a wait holds: nothing of it happens but its requests for lines; its lanes stand at it and wait, or stay ready
(R207). Pins at which the accesses of a gang in wrap-up, or with a snuff to come, retry end at once (R304). -/
def State.holdChain (s t : State) (key pc : Nat) : Issued :=
  let u := { s.unplan key with fab := { (s.unplan key).fab with cohWaits := t.fab.cohWaits } }
  let m := t.issue.hold
  let w := t.issue.holdWait
  let lines := t.issue.retries.eraseDups
  if w == .ready then
    let asked := fun c : CohWait => (c.ctx, c.line, c.planned.any fun p => p.1 == key)
    let g := s.gangAt key
    let urgent := g.wrap || g.marked.isSome
    if urgent && !lines.isEmpty then .went (.next (lines.foldl State.endPins u))
    else
      let v := if g.retries == lines then u else u.updGang key fun g => { g with retries := lines }
      if g.marked.isSome then .went (.next (v.strikeMarked key))
      else if g.retries == lines && u.fab.cohWaits.map asked == s.fab.cohWaits.map asked then .held
      else .went (.next v)
  else if (lanesOf m).all fun l => ((s.gangAt key).lane l).wait == w then .held
  else
    let u := u.updGang key fun g => g.updLanes m fun _ x => { x with pc := pc, wait := w }
    match w with
    | .macq b =>
      let dome := domeOf (u.gangAt key).core
      let join := fun k : Bank => if k.queue.contains key then k else { k with queue := k.queue ++ [key] }
      .went (.next ((u.updBank dome b join).bankNext dome b))
    | _ => .went (.next u)

/-- What every issue leaves in the gang's lanes (R60, R209): the other lane groups' yield counters are 0. -/
def State.countChain (s : State) : State :=
  s.updCur fun g =>
    let n := g.chains + 1
    let g := g.updLanes s.issue.lanes fun _ x => { x with lastIssue := n }
    { g.updLanes (g.liveMask &&& ~~~s.issue.lanes) (fun _ x => { x with cnt := 0 }) with chains := n }

/-- Whether a trap of the chain has still to be delivered. -/
def State.trapLeft (s : State) : Bool := s.issue.pend.isSome || s.issue.flags &&& s.cur.fptrap != 0

/-- Windows that the chain's own words opened close with its branch, call, return, JWAIT or END (R14, R27) (log 11, DEDUCED). -/
def State.closeLate (s : State) : State := s.updCur fun g => g.closeAll s.issue.lanes

/-- The instruction of a chain that closes windows of later words of it, where one of these lets an enabled class 7 flag in: the trap is
taken before that instruction takes effect (R229) (log 11, DEDUCED). -/
def State.lateTrap (s : State) : Option Nat :=
  match s.issue.closing with
  | none => none
  | some off =>
    if s.cur.alive && !s.trapLeft && (s.closing s.issue.lanes fun _ => true).flags &&& s.cur.fptrap != 0 then some off else none

/-- What follows a chain: its trap, its park or the snuff it let strike, and the gang's end (R58, R67, R71, R76, R82, R244). A park
that the chain's last instruction entered does not take the trap of an earlier one away (log 17, DEDUCED). -/
def State.afterChain (s : State) : State :=
  let key := s.issue.gang
  let s := if s.issue.closing.isSome && s.cur.alive then s.closeLate else s
  let parkedBySelf := match s.cur.park with | some (.svcRoom _ _ _ _) | some (.svcReply _ _) | some (.enq _ _ _) => true | _ => false
  let s := if s.cur.alive && s.trapLeft && (!s.issue.diverted || parkedBySelf) then
      s.deliverPending s.issue.lanes fun l => (s.cur.lane l).resumePc
    else s
  let s := match s.issue.after with
    | some (.park p) => if s.cur.alive then s.finishPark p else s
    | some (.divert _) => if s.cur.alive then ({ s with issue := { s.issue with after := none } } : State).endHold key else s
    | none => s
  s.retireEmpty key

/-! ### Waits that end inside the gang (R52, R57, R96, R214) -/

/-- A gang rendezvous is complete when every live lane waits at it; a class 6 wait ends when its band is complete or the lane no
longer takes part. Those lanes are ready again and issue together. -/
def Gang.releaseWaits (g : Gang) : Gang :=
  let live := g.liveMask
  let rdv := live &&& g.lanesWhere fun _ x => x.wait == .rendezvous
  let g := if rdv != 0 && rdv == live && (g.standing rdv).length == 1 then
      g.updLanes rdv fun _ x => { x with wait := .ready }
    else g
  let done := g.lanesWhere fun l x =>
    match x.wait with
    | .cross k =>
      let here := g.lanesWhere fun _ y => y.live && y.wait == .cross k && y.pc == x.pc
      x.live && !g.crossWaits k here l
    | _ => false
  g.updLanes done fun _ x => { x with wait := .ready }

/-- Whether a wait is internal (R207). -/
def Wait.internal : Wait → Bool
  | .jwait _ _ | .rendezvous | .cross _ => true
  | _ => false

/-- The record of a join cycle for a lane (R214, R245). -/
def Gang.cycleRecord (g : Gang) (l : Nat) : TrapRec :=
  let x := g.lane l
  let j := g.jset (l % 16)
  { v8 := BitVec.ofNat 32 causeJcycle, v9 := BitVec.ofNat 32 x.pc, v10 := BitVec.ofNat 32 x.pc, v11 := g.liveMask,
    v12 := j.member, v13 := j.waiting, v14 := j.word, v15 := BitVec.ofNat 32 x.wait.kind }

/-- Waits end; a cycle of internal waits is broken by the trap JCYCLE (R214). -/
def State.settle (s : State) (key : Nat) : State :=
  let s := s.updGang key Gang.releaseWaits
  let g := s.gangAt key
  let on := match g.place with | .resident _ => true | _ => false
  let live := g.liveMask
  if on && live != 0 && (lanesOf live).all fun l => (g.lane l).wait.internal then
    let s := s.updGang key fun g =>
      let g := g.updLanes live fun _ x => { x with wait := .ready }
      (List.range 16).foldl (fun g k => g.setJ k { g.jset k with waiting := 0 }) g
    s.deliver key live g.cycleRecord
  else s

/-! ### Issue -/

/-- The outcome of a chain whose instructions have run on `s`, opened as `t` and ended as `u`. -/
def State.closeChain (s u : State) (key pc : Nat) : Issued :=
  if u.issue.hold != 0 then
    match s.holdChain u key pc with
    | .went (.next v) => .went (.next (v.settle key))
    | r => r
  else
    let u := if u.cur.alive then u.countChain else u
    let v := u.afterChain
    let v := if (v.gangAt key).alive then ((v.updGang key fun g => { g with retries := [] }).strikeMarked key).settle key else v
    .went (.next { v with issue := Issue.idle })

/-- An illegal encoding that the check of the chain finds: windows that have counted commit first (R26, R31, R32) (log 11, DEDUCED) (log 21, DEDUCED). -/
def State.illegalChain (s : State) (key : Nat) (m : LaneMask) (pc case off : Nat) (word : Word) : Issued :=
  .went (.next { ((s.openChain key pc m pc).updCur fun g => g.closeCounted m).killIllegal key case off word with issue := Issue.idle })

/-- A packet that cannot be fetched (R9, R131). -/
def State.fetchFails (s : State) (key : Nat) (m : LaneMask) (pc : Nat) (c : AccCause) : Issued :=
  let t := s.openChain key pc m pc
  let k := pc / 12 * 12
  let bad := [k, k + 4, k + 8].find? fun off => match fetchWord s key off with | .ok _ => false | .error _ => true
  let va := (s.codeOf (s.gangAt key)).base + BitVec.ofNat 64 (bad.getD k)
  match c with
  | .page => .went (.next { t.failFetch c (lanesOf m) va with issue := Issue.idle })
  | c => s.closeChain (t.failFetch c (lanesOf m) va) key pc

/-- Whether a chain comes to one of its instructions: no class 7 flag that an instruction before it, or it itself, lets in is enabled in
FPTRAP (R229) (log 17, DEDUCED). -/
def State.reachesInsn (s : State) (ws : List Word) (i : Insn) : List Insn → Bool
  | [] =>
    match (s.setInsn i false).runPfx ws i with
    | .next t => let c := t.closeFor t.issue.pfx i.instr; c.2.flags &&& c.1.cur.fptrap == 0
    | _ => true
  | n :: ns =>
    match (s.setInsn n true).runPfx ws n with
    | .next t =>
      let c := t.closeFor t.issue.pfx n.instr
      if c.2.flags &&& c.1.cur.fptrap != 0 then false
      else
        match s.runInsn ws n true with
        | .next u => u.chainOver || u.reachesInsn ws i ns
        | _ => true
    | _ => true

/-- The chain once all its instructions have run: where one of them closes windows of later ones with an enabled class 7 flag, it runs
without that instruction, whose own offset the lanes resume at after the trap (R229). `s` is the chain as it was opened. -/
def State.endChain (s u : State) (ws : List Word) (ns : List Insn) : Except Issued State :=
  match u.lateTrap with
  | none => .ok u
  | some off =>
    match s.runInsns ws (ns.filter fun n => s.issue.chainPc / 12 * 12 + 4 * n.first != off) with
    | .next v =>
      .ok (({ v with issue := { v.issue with pc := off, closing := none } } : State).trapClosed (v.closing v.issue.lanes fun _ => true))
    | r => .error (.went r)

/-- Run the chain at an offset with some lanes of a gang: the state its instructions leave, or the outcome where none of them runs. A
branch that leads nowhere is illegal where the chain is not held, before any of its instructions takes effect (R31, R33) (log 17, DEDUCED). -/
def State.runChain (s : State) (key pc : Nat) (m : LaneMask) : Except Issued State :=
  let n := (s.codeOf (s.gangAt key)).n
  if 12 * n ≤ pc then
    let last := 12 * n - 4
    .error (s.illegalChain key m pc 10 last (match fetchWord s key last with | .ok w => w | .error _ => 0))
  else
    match fetchPacket s key (pc / 12) with
    | .error c => .error (s.fetchFails key m pc c)
    | .ok ws =>
      let slot := pc % 12 / 4
      let past := fun k => if k < 3 then pc / 12 * 12 + 4 * k else (pc / 12 + 1) * 12
      if slotWord ws slot == padWord then
        .error (.went (.next (s.updGang key fun g => g.updLanes m fun _ x => { x with pc := past (skipPads ws slot) })))
      else
        let probe := fun i => (s.openChain key pc m pc).setInsn i false
        match parseChain (fun i => (probe i).dynCase i) ws 3 slot [] with
        | .error e =>
          let t := s.openChain key pc m pc
          let c := t.closing m fun w => w.left == 0
          let u := t.updCur fun g => g.closeCounted m
          if c.flags &&& u.cur.fptrap != 0 then .ok (u.trapClosed c)
          else .error (s.illegalChain key m pc e.case (pc / 12 * 12 + 4 * e.slot) (slotWord ws e.slot))
        | .ok ns =>
          let next := past (skipPads ws ((ns.getLast?.map Insn.next).getD 3))
          match (s.openChain key pc m next).runInsns ws ns with
          | .next u =>
            if u.issue.hold != 0 then .ok u
            else
              match ns.find? fun i => (probe i).leadsNowhere i.instr with
              | some i =>
                if (s.openChain key pc m next).reachesInsn ws i (ns.takeWhile fun n => n.first != i.first) then
                  .error (s.illegalChain key m pc 10 (pc / 12 * 12 + 4 * i.first) i.word)
                else .ok u
              | none => (s.openChain key pc m next).endChain u ws ns
          | r => .error (.went r)

/-- Issue the chain at an offset with some lanes of a gang. -/
def State.issueChain (s : State) (key pc : Nat) (m : LaneMask) : Issued :=
  match s.runChain key pc m with
  | .ok u => s.closeChain u key pc
  | .error r => r

/-- Whether a gang issues at all: on its core, no service in progress, its launch running, its Lamplighter slot running (R206, R207,
R248, R268). -/
def State.issues (s : State) (key : Nat) : Bool :=
  let g := s.gangAt key
  let on := match g.place with | .resident _ => true | _ => false
  on && !g.service &&
    (if g.lamp then (s.coreAt g.core).slot == .running && !(s.dieAt (dieOf g.core)).fenced
     else (s.launchAt g.launch).phase == .running)

/-- Whether a lane's wait may end by itself, so that its chain is tested before the gang issues. -/
def Wait.tested : Wait → Bool
  | .retest | .macq _ | .drainOrder _ _ _ => true
  | _ => false

/-- Of drains that became ready together, the one of the lowest bank and then of the earliest issue goes first (R336). -/
def Gang.firstDrain (g : Gang) (m : LaneMask) : LaneMask :=
  let key := fun (l : Nat) => match (g.lane l).wait with | .drainOrder b _ turn => some (b * 2 ^ 32 + turn) | _ => none
  let keys := (lanesOf m).filterMap key
  m &&& ~~~maskOf ((lanesOf m).filter fun l => match key l with | some k => keys.any fun j => decide (j < k) | none => false)

/-- Lanes of a gang whose chain waited and can issue now: they are ready (R207). -/
def State.tested (s : State) (key : Nat) : LaneMask :=
  let g := s.gangAt key
  let m := g.lanesWhere fun _ x => x.live && x.wait.tested
  g.firstDrain ((g.standing m).foldl (fun r pc =>
    let here := g.lanesAt m pc
    match s.runChain key pc here with
    | .ok u => if u.issue.hold != 0 && u.issue.holdWait.tested then r else r ||| here
    | .error _ => r ||| here) 0)

/-- A gang issues its next chain. -/
def State.issueGang (s : State) (key : Nat) : Issued :=
  if !s.issues key then .held
  else
    let g := s.gangAt key
    match g.select (g.readyLanes ||| s.tested key) with
    | none => .held
    | some (pc, m) => s.issueChain key pc m

/-! ### The order of gangs (R363, R364) -/

/-- Whether a gang's turn, which leads from `s` to `t`, issued a chain: it may also pass pad words or find its chain held. -/
def State.issuedIn (s t : State) (key : Nat) : Bool := !(t.gangAt key).alive || (t.gangAt key).chains != (s.gangAt key).chains

/-- Whether a gang is eligible: one of its lane groups is ready and its chain is not held (R364). -/
def State.eligible (s : State) (key : Nat) : Bool :=
  match s.issueGang key with
  | .went (.next t) => s.issuedIn t key
  | _ => false

/-- The wait counts after a cycle (R364): those of the gangs that issued start again, those of the other eligible gangs rise (log 37, DESIGN CHOICE). -/
def State.countWaits (t : State) (issued waiting : List Nat) : State :=
  let t := (issued.filter fun k => (t.gangAt k).alive).foldl (fun t k => t.updGang k fun g => { g with waited := 0 }) t
  (waiting.filter fun k => !issued.contains k && (t.gangAt k).alive).foldl
    (fun t k => t.updGang k fun g => { g with waited := g.waited + 1 }) t

/-- A gang's turn in a cycle in which no other gang of its core is eligible. -/
def State.turn (s : State) (key : Nat) : Issued :=
  match s.issueGang key with
  | .went (.next t) => .went (.next (if s.issuedIn t key then t.countWaits [key] [] else t))
  | r => r

/-- The first gang of a list whose chain can go, and what it does. -/
def State.firstIssue (s : State) : List Nat → Option (Nat × Host.Outcome State Fault Refusal)
  | [] => none
  | k :: ks =>
    match s.issueGang k with
    | .held => s.firstIssue ks
    | .went r => some (k, r)

/-- The pipes of the chain that a gang issues next (R12, R13). -/
def State.nextPipes (s : State) (key : Nat) : List Nat :=
  let g := s.gangAt key
  match g.select (g.readyLanes ||| s.tested key) with
  | none => []
  | some (pc, m) =>
    match fetchPacket s key (pc / 12) with
    | .error _ => []
    | .ok ws =>
      match parseChain (fun i => ((s.openChain key pc m pc).setInsn i false).dynCase i) ws 3 (pc % 12 / 4) [] with
      | .ok ns => ns.map fun n => pipeOf (classOf (slotWord ws n.main))
      | .error _ => []

/-- Whether the pipe instances of two chains do not meet (R12, R364). -/
def pipesApart (a b : List Nat) : Bool := (List.range 6).all fun p => decide (a.count p + b.count p ≤ pipeCount p)

/-- Put a gang into a list by its wait count, highest first, behind those of equal count. -/
def State.waitInsert (s : State) (key : Nat) : List Nat → List Nat
  | [] => [key]
  | k :: ks => if (s.gangAt k).waited < (s.gangAt key).waited then key :: k :: ks else k :: s.waitInsert key ks

/-- Starved gangs before every other, the longer wait first, and otherwise the order given (R364). -/
def State.starvedFirst (s : State) (keys : List Nat) : List Nat :=
  let starved := fun k => decide (64 ≤ (s.gangAt k).waited)
  (keys.filter starved).foldl (fun ks k => s.waitInsert k ks) [] ++ keys.filter fun k => !starved k

/-- The gangs and Lamplighter slots that may issue, in the order of R363 and R364. -/
def State.issueOrder (s : State) : List Nat := s.starvedFirst (s.ranked ((s.gangs.map Prod.fst).filter s.issues))

/-- A CYCLE OF A CORE (R364): the first eligible gang in order issues its chain, then the next one whose pipe instances do not meet those
of the first. `held` names the gangs whose chains an interlock, a full counter or a busy pipe holds in this cycle (log 37, DESIGN CHOICE). -/
def State.cycle (s : State) (core : Nat) (held : List Nat) : Issued :=
  let order := s.issueOrder.filter fun k => (s.gangAt k).core == core && !held.contains k
  match s.firstIssue order with
  | none => .held
  | some (k, .next t) =>
    if !s.issuedIn t k then .went (.next t)
    else
      let waiting := order.filter fun q => q != k && s.eligible q
      match waiting.find? fun q => pipesApart (s.nextPipes k) (t.nextPipes q) && t.eligible q with
      | none => .went (.next (t.countWaits [k] waiting))
      | some q =>
        match t.issueGang q with
        | .went (.next u) => .went (.next (u.countWaits [k, q] waiting))
        | r => r
  | some (_, r) => .went r

/-- A cycle of the first core, in the order of some gangs, on which a chain can go. A Lamplighter slot is held: its firmware's work stands
in the events (log 7, DESIGN CHOICE). -/
def State.firstCycle (s : State) : List Nat → Issued
  | [] => .held
  | k :: ks =>
    match s.cycle (s.gangAt k).core [lampKey (s.gangAt k).core] with
    | .held => s.firstCycle ks
    | r => r

/-! ### Accesses of the companion (R192, R324) -/

/-- The companion as a party that accesses memory: it stands at the system (R287). -/
def companionAgent : Agent := dieAgent companionCtx 0 (2 ^ 62)

/-- Whether the boot ROM blocks a companion's write to an address (R188). -/
def State.fwBlocks (s : State) (pa : Nat) : Bool :=
  s.pkg.fwstate == .check && decide (s.pkg.fwAt ≤ pa) && decide (pa < s.pkg.fwAt + s.pkg.fwlen.toNat)

/-- A companion's access as a request of this package at the directory (R324). -/
def State.linkRequest (s : State) (x : LinkAccess) : DirRequest :=
  { pkg := s.ownPkg, ctx := companionCtx, hctx := companionCtx, tc := 0, dom := 0, line := BitVec.ofNat 64 (x.pa / 64 * 64), xfer := 0,
    link := some x }

/-- The move that a companion's access is. -/
def LinkAccess.move (x : LinkAccess) : Move := match x.data with | some bs => .store x.pa bs | none => .load x.pa x.len

/-- An access of the companion to bytes of one line: nothing where there is no memory or the boot ROM blocks a store; an error response
from the carve-out, a poisoned word or an owner-lost line; tried again while a pin holds the line; queued at the directory while another
package has it (R188, R190, R266, R270, R295, R324) (log 33, DEDUCED). -/
def State.linkPiece (s : State) (x : LinkAccess) : State :=
  if !physOk x.pa || (x.data.isSome && s.fwBlocks x.pa) then s
  else if carved s companionAgent x.pa then s.emit (.linkError (x.pa / 64))
  else if pinned s companionAgent x.pa then { s with agenda := s.agenda ++ [x.move], clock := s.clock.advance 1 }
  else
    let d := s.dirAt (x.pa / 64)
    match d.state with
    | .lost _ => s.emit (.linkError (x.pa / 64))
    | .home =>
      if !d.turn.isEmpty then s.dirRequest (x.pa / 64) (s.linkRequest x)
      else if poisonedAt s x.pa x.len then s.emit (.linkError (x.pa / 64))
      else s.linkServe x
    | .excl _ | .snoop _ => s.dirRequest (x.pa / 64) (s.linkRequest x)

/-- Bytes that the companion stores, line by line; the first argument bounds the number of lines. -/
def State.companionStore (s : State) : Nat → Nat → List Byte → State
  | 0, _, _ => s
  | n + 1, pa, bs =>
    let k := 64 - pa % 64
    if bs.isEmpty then s
    else (s.linkPiece { pa := pa, len := min k bs.length, data := some (bs.take k) }).companionStore n (pa + k) (bs.drop k)

/-- Bytes that the companion loads, line by line. -/
def State.companionLoad (s : State) : Nat → Nat → Nat → State
  | 0, _, _ => s
  | n + 1, pa, len =>
    let k := 64 - pa % 64
    if len = 0 then s else (s.linkPiece { pa := pa, len := min k len, data := none }).companionLoad n (pa + k) (len - k)

/-! ### Moves (log 1, DESIGN CHOICE) -/

/-- Whether a row of the opcode table is an event; an instruction word acts only in a chain (log 1, DESIGN CHOICE). -/
def isEvent (i : Instr) : Bool := decide (253 ≤ i.ctorIdx)

/-- FAILED leads to WAITIMG by itself, as the next event, store or cycle comes (R188; log 7, DESIGN CHOICE). -/
def State.leaveFailed (s : State) : State :=
  if s.pkg.fwstate == .failed then { s with pkg := { s.pkg with fwstate := .waitImg } } else s

/-- Carry out one move (log 1, DESIGN CHOICE) (log 37, DESIGN CHOICE). -/
def State.move (s : State) : Move → Host.Outcome State Fault Refusal
  | .event i => if isEvent i then exec i s.leaveFailed else .next s
  | .gang key =>
    match s.turn key with
    | .held => .next s
    | .went r => r
  | .cycle core held =>
    match s.cycle core held with
    | .held => .next s
    | .went r => r
  | .tick n => .next { s.leaveFailed with clock := s.clock.advance n }
  | .store pa bs => .next (s.leaveFailed.companionStore (bs.length + 1) pa bs)
  | .arrayCycle op => .next (s.arrayCycle op)
  | .aheadCycle op => .next (s.aheadCycle op)
  | .jobLoad op => .next (s.jobLoad op)
  | .drainCycle gang => .next (s.drainCycle gang)
  | .load pa n => .next (s.leaveFailed.companionLoad (n + 1) pa n)
  | .evict core line => .next (s.evictLines core (· == line))
  | .writeBack ctx line => .next (match heldLine s ctx line with | some h => if h.turn.isEmpty then s.writeBack h else s | none => s)
  | .hbmAccess stack region => .next (s.countAccess stack region)
  | .records ctx => execSdoor ctx s
  | .hbmRead die stack ns => .next (if die < 4 then s.record die 1 stack ns else s)

/-- What the package does when nothing outside it and no event of its own is due: a core goes through a cycle; when no gang can issue,
time passes (log 1, DESIGN CHOICE) (log 37, DESIGN CHOICE). -/
def State.idleMove (s : State) : Host.Outcome State Fault Refusal :=
  match s.firstCycle (s.issueOrder.filter fun k => !(s.gangAt k).lamp) with
  | .held => .next { s with clock := s.clock.advance 1 }
  | .went r => r

/-- What a move sets going at once: writes of the device that a pin held up are tried again (R295), flows that wait for a line try again,
operations that go on take their answers, turns at lines pass on, requests to Lanterns and for window lines leave, launches that end and
suspensions go on, each die notes the head of its list, its agents take tickets that can go on (R181, R256, R258, R308, R323, R324, R362)
(log 1, DESIGN CHOICE). -/
def State.settled (s : State) : State :=
  let s := if s.lateWrites.isEmpty then s else s.retryWrites s.lateWrites
  let s := if s.pkg.faults.all FaultRec.posted then s else s.postFaults
  (List.range 4).foldl State.settleTickets s.retryFlows.replayAnswers.passTurns.sendTriples.sendAsks.settleStops.suspendMore.noteHeads

/-- The package after a move. -/
def settledOutcome : Host.Outcome State Fault Refusal → Host.Outcome State Fault Refusal
  | .next s => .next s.settled
  | r => r

end Sys2Proof.Machine
end

