-- ==== Sys2Proof/Machine/Step.lean ====
section
/-!
DEFINITION. Sys2Proof/Machine/Step.lean: one step of the package: the next move of its agenda, or, when none is given, what R363 lets
issue next (log 1, DESIGN CHOICE); and the package with an instruction placed where the step fetches (log 14, DESIGN CHOICE).
-/

namespace Sys2Proof.Machine

/-- One step (log 1, DESIGN CHOICE). -/
def step (s : State) : Host.Outcome State Fault Refusal :=
  match s.agenda with
  | [] => settledOutcome s.idleMove
  | m :: ms => settledOutcome (({ s with agenda := ms } : State).move m)

/-- The package with an instruction's bits in the packet that its next step fetches: gang 0 of launch 0 stands on core 0 before
it, and its turn is next (log 14, DESIGN CHOICE). -/
def State.withFetchWord (s : State) (nbits w : Nat) : State :=
  { s.bootProgram [BitVec.ofNat 32 (w % 2 ^ nbits), 0, 0] with agenda := .gang 0 :: s.agenda }

end Sys2Proof.Machine
end

