-- ==== Sys2Proof/Safety.lean ====
section
/-!
DEFINITION. Sys2Proof/Safety.lean: what a package is that statements may rely on: memory in its one form (R279), and a run in which no rule
that binds the companion is broken; and the words in which statements say what an instruction does and what it leaves alone. Registers
are read after an instruction the way the model reads them.
-/

namespace Sys2Proof

open Sys2Proof.Machine

/-- The invariant of the package's memory: rising addresses, no listed byte that reads as an unlisted one. -/
def MemoryKept (s : State) : Prop := Memory.wf s.mem = true

/-- A step that goes on. -/
def goesOn (s t : State) : Prop := step s = .next t

/-- A state that some number of steps reaches. -/
def reaches (s : State) : Nat → State → Prop
  | 0, t => s = t
  | n + 1, t => ∃ u, goesOn s u ∧ reaches u n t

/-- A state in which the next step stops because the companion broke a rule; nothing else ever stops the package. -/
def stops (s : State) : Prop := ∃ r, step s = .fault r

end Sys2Proof

namespace Sys2Proof.Says

open Sys2Proof.Machine

/-! ### Completing, and what stays -/

/-- The instruction completes, in a state of which `p` holds. -/
def goes (r : Host.Outcome State Fault Refusal) (p : State → Prop) : Prop := ∃ t, r = .next t ∧ p t

/-- Every byte of memory reads as before. -/
def memoryStays (s t : State) : Prop := ∀ a, t.byteAt a = s.byteAt a

/-- Nothing but the gang of the chain changes: no other gang, no memory, no other field of the state. -/
def onlyGang (s t : State) : Prop :=
  t = { s with gangs := t.gangs } ∧ (∀ k, k ≠ s.issue.gang → t.gangAt k = s.gangAt k) ∧ memoryStays s t

/-- Nothing but the gang of the chain and what the chain keeps about itself (its flags, its pending trap, whether its lanes are
gone) changes. -/
def onlyGangIssue (s t : State) : Prop :=
  t = { s with gangs := t.gangs, issue := t.issue } ∧ t.issue.gang = s.issue.gang ∧ t.issue.lanes = s.issue.lanes ∧
    (∀ k, k ≠ s.issue.gang → t.gangAt k = s.gangAt k) ∧ memoryStays s t

/-! ### Scalar destinations -/

/-- `s`n becomes v; every other scalar register, every lane, flag, special register and byte of memory stays. -/
def scalarTo (s : State) (n : Nat) (v : Word) (r : Host.Outcome State Fault Refusal) : Prop :=
  goes r fun t =>
    t.cur.sreg n = v ∧ (∀ m, m ≠ n → t.cur.sreg m = s.cur.sreg m) ∧
      t.cur = { s.cur with sregs := t.cur.sregs } ∧ onlyGang s t

/-- `x`n, the pair of `s`n and `s`(n + 1), becomes v; everything else stays. -/
def pairTo (s : State) (n : Nat) (v : DWord) (r : Host.Outcome State Fault Refusal) : Prop :=
  goes r fun t =>
    t.cur.sreg n = v.extractLsb' 0 32 ∧ t.cur.sreg (n + 1) = v.extractLsb' 32 32 ∧
      (∀ m, m ≠ n → m ≠ n + 1 → t.cur.sreg m = s.cur.sreg m) ∧
      t.cur = { s.cur with sregs := t.cur.sregs } ∧ onlyGang s t

/-! ### Vector and predicate destinations -/

/-- The lanes of the issuing lane group. -/
def issuing (s : State) (l : Nat) : Prop := l < 32 ∧ s.issue.lanes.getLsbD l = true

/-- A lane is active: the guard of the prefix passes in it (R25). -/
def activeLane (s : State) (l : Nat) : Prop :=
  issuing s l ∧ (s.srcLane l).pred s.issue.pfx.g.toNat = (s.issue.pfx.gn == 0)

/-- `v`m of a lane, as the window that the chain found numbers it (R14, R204). -/
def vreg (s t : State) (l m : Nat) : Word := ({ t.cur.lane l with wbase := (s.srcLane l).wbase } : Lane).vreg m

/-- `v`n of each active lane becomes what f gives it; an inactive issuing lane keeps its register, or with .z gets what z gives it; every
other register of every lane stays, those of its callers' windows included, and so does the rest of each lane. -/
def elementPart (s t : State) (n : Nat) (f z : Nat → Word) : Prop :=
  (∀ l, activeLane s l → vreg s t l n = f l) ∧
    (∀ l, issuing s l → ¬ activeLane s l → vreg s t l n = if s.issue.pfx.z = 1 then z l else vreg s s l n) ∧
    (∀ l m, m ≠ n ∨ ¬ issuing s l → vreg s t l m = vreg s s l m) ∧
    (∀ l j, j < (s.srcLane l).wbase → Table.get 0 j (t.cur.lane l).stack = Table.get 0 j (s.cur.lane l).stack) ∧
    ∀ l, t.cur.lane l = { s.cur.lane l with globals := (t.cur.lane l).globals, stack := (t.cur.lane l).stack }

/-- The same where an inactive issuing lane gets 0 with .z. -/
def vectorPart (s t : State) (n : Nat) (f : Nat → Word) : Prop := elementPart s t n f fun _ => 0

/-- `v`n of each active lane becomes what f gives it, as `vectorPart` says, and everything else stays. -/
def vectorTo (s : State) (n : Nat) (f : Nat → Word) (r : Host.Outcome State Fault Refusal) : Prop :=
  goes r fun t => vectorPart s t n f ∧ t.cur = { s.cur with lanes := t.cur.lanes } ∧ onlyGang s t

/-- Predicate n of each active lane becomes what f gives it, p0 excepted, which reads 1 always; an inactive issuing lane keeps its
own, or gets 0 with .z; every other predicate stays, and so does the rest of each lane. -/
def predPart (s t : State) (n : Nat) (f : Nat → Bool) : Prop :=
  (∀ l, (t.cur.lane l).pred 0 = true) ∧
    (∀ l, n ≠ 0 → n < 96 → activeLane s l → (t.cur.lane l).pred n = f l) ∧
    (∀ l, n ≠ 0 → n < 96 → issuing s l → ¬ activeLane s l →
      (t.cur.lane l).pred n = if s.issue.pfx.z = 1 then false else (s.cur.lane l).pred n) ∧
    (∀ l m, m ≠ n ∨ ¬ issuing s l → (t.cur.lane l).pred m = (s.cur.lane l).pred m) ∧
    ∀ l, t.cur.lane l = { s.cur.lane l with preds := (t.cur.lane l).preds }

/-- Predicate n of each active lane becomes what f gives it, as `predPart` says, and everything else stays. -/
def predTo (s : State) (n : Nat) (f : Nat → Bool) (r : Host.Outcome State Fault Refusal) : Prop :=
  goes r fun t => predPart s t n f ∧ t.cur = { s.cur with lanes := t.cur.lanes } ∧ onlyGang s t

/-- The flags that the active lanes raise enter FPFLAG and count for the chain, which notes them with the instruction's offset; the gang
keeps everything but its lanes and these flags, and everything else stays (R82, R229, R245). -/
def raises (s t : State) (f : Nat → BitVec 5) : Prop :=
  (∀ i, t.cur.fpflag.getLsbD i = true ↔
      s.cur.fpflag.getLsbD i = true ∨ ∃ l, activeLane s l ∧ (f l).getLsbD i = true) ∧
    (∀ i, t.issue.flags.getLsbD i = true ↔
      s.issue.flags.getLsbD i = true ∨ ∃ l, activeLane s l ∧ (f l).getLsbD i = true) ∧
    t.cur = { s.cur with lanes := t.cur.lanes, fpflag := t.cur.fpflag, qregs := t.cur.qregs } ∧
    (∃ x : BitVec 5, t.issue.raised = s.issue.raised ++ [(s.issue.pc, x)] ∧
      ∀ i, x.getLsbD i = true ↔ ∃ l, activeLane s l ∧ (f l).getLsbD i = true) ∧
    t = { s with gangs := t.gangs, issue := { s.issue with flags := t.issue.flags, raised := t.issue.raised } } ∧
    (∀ k, k ≠ s.issue.gang → t.gangAt k = s.gangAt k) ∧ memoryStays s t

/-- A vector destination with arithmetic flags; the MX sidecars stay. -/
def flaggedTo (s : State) (n : Nat) (f : Nat → Word × BitVec 5) (r : Host.Outcome State Fault Refusal) : Prop :=
  goes r fun t => vectorPart s t n (fun l => (f l).1) ∧ raises s t (fun l => (f l).2) ∧ ∀ q, t.cur.qreg q = s.cur.qreg q

/-- The same for one element of the register, where an inactive lane gets what z gives with .z. -/
def flaggedElementTo (s : State) (n : Nat) (f : Nat → Word × BitVec 5) (z : Nat → Word) (r : Host.Outcome State Fault Refusal) : Prop :=
  goes r fun t => elementPart s t n (fun l => (f l).1) z ∧ raises s t (fun l => (f l).2) ∧ ∀ q, t.cur.qreg q = s.cur.qreg q

/-- A predicate destination with arithmetic flags; the MX sidecars stay. -/
def flaggedPredTo (s : State) (n : Nat) (f : Nat → Bool × BitVec 5) (r : Host.Outcome State Fault Refusal) : Prop :=
  goes r fun t => predPart s t n (fun l => (f l).1) ∧ raises s t (fun l => (f l).2) ∧ ∀ q, t.cur.qreg q = s.cur.qreg q

end Sys2Proof.Says
end

