-- ==== Sys2Proof/Certificates/Slice0/Obligations.lean ====
section
/-!
DEFINITION. Sys2Proof/Certificates/Slice0/Obligations.lean: the statements about the package, each from the manual's rules. The words in which
results and frames are said stand in Sys2Proof/Safety.lean; `goes` says that the instruction completes.
-/

open Sys2Proof Sys2Proof.Machine Sys2Proof.Says

/-! ### Words that several statements share -/

/-- No lookahead window of the issuing lanes is open, and no class 9 window of the gang. -/
def Sys2Proof.Says.noWindows (s : State) : Prop := (∀ l, (s.cur.lane l).wins = []) ∧ s.cur.swins = []

/-- Every gang but that of the chain stays. -/
def Sys2Proof.Says.othersStay (s t : State) : Prop := ∀ k, k ≠ s.issue.gang → t.gangAt k = s.gangAt k

/-- The issuing lanes are no longer restartable, as a non-idempotent instruction has taken effect (R249); nothing else of any lane changes. -/
def Sys2Proof.Says.lanesSpoiled (s t : State) : Prop :=
  (∀ l, issuing s l → t.cur.lane l = { s.cur.lane l with spoiled := true }) ∧ ∀ l, ¬ issuing s l → t.cur.lane l = s.cur.lane l

/-- An access of n bytes is an ordinary one: it goes to memory at a place, and each translation cache that it passes holds its translation,
so that it leaves them as they are (R112, R284). -/
def Sys2Proof.Says.plain (s : State) (a : Agent) (va : DWord) (n place : Nat) : Prop :=
  locate s a va n .write = .ok (.mem place) ∧
    ∀ p ∈ a.tlbs, ∃ e ∈ s.tlb, e.place = p ∧ e.covers a.ctx (va.toNat % 2 ^ 48) = true

/-- The same of each byte of a range, at places of their own. -/
def Sys2Proof.Says.plainRange (s : State) (a : Agent) (va : DWord) (n : Nat) (place : Nat → Nat) : Prop :=
  (∀ i, i < n → plain s a (va + BitVec.ofNat 64 i) 1 (place i)) ∧ ∀ i j, i < n → j < n → place i = place j → i = j

/-- R290, R294, R295: what a release of the chain's gang leaves. At die scope and above none of its lines is dirty or pinned; lines that it
neither wrote nor pinned stay dirty and pinned as they were. Below that every dirty line of it is pinned, and nothing else changes. -/
def Sys2Proof.Says.released (scope : Nat) (s t : State) : Prop :=
  let key := s.issue.gang
  (3 ≤ scope → (∀ d ∈ t.dirty, d.gang ≠ key ∧ d ∈ s.dirty) ∧ (∀ p ∈ t.pins, p.gang ≠ key ∧ p ∈ s.pins) ∧
    (∀ d ∈ s.dirty, (∀ e ∈ s.dirty, e.gang = key → e.line ≠ d.line) → (∀ p ∈ s.pins, p.gang = key → p.line ≠ d.line) → d ∈ t.dirty) ∧
    ∀ p ∈ s.pins, (∀ q ∈ s.pins, q.gang = key → q.line ≠ p.line) → p ∈ t.pins) ∧
  (scope ≤ 2 → t.dirty = s.dirty ∧ (∀ p ∈ s.pins, p ∈ t.pins) ∧
    (∀ d ∈ s.dirty, d.gang = key → ∃ p ∈ t.pins, p.line = d.line ∧ p.gang = key ∧ p.scope = scope) ∧
    ∀ p ∈ t.pins, p ∈ s.pins ∨ p.gang = key ∧ p.scope = scope ∧ ∃ d ∈ s.dirty, d.gang = key ∧ d.line = p.line)

/-! ### Scalar instructions (R46 to R48) -/

/-- R46: the 32-bit scalar instructions write the value of their row to `s`d and nothing else, whatever their operands. A and B
are the operands of a and b as the chain found them.
R46: SCLZ counts the zero bits above the highest one bit, SPOP the one bits, SBREV reverses the bits, SBFE takes the field of
B[10:5] bits from bit B[4:0] on, with widths above 32 as 32. The word of an instruction that reads only A has b = 0. -/
def Obligations.ScalarResults : Prop :=
  (∀ (s : State) (d a b : BitVec 7),
    let A := s.scalar a
    let B := s.scalar b
    let gives := scalarTo s d.toNat
    gives (A + B) (exec (.sadd d a b) s) ∧
    gives (A - B) (exec (.ssub d a b) s) ∧
    gives (BitVec.ofNat 32 (A.toNat * B.toNat)) (exec (.smul d a b) s) ∧
    gives (BitVec.ofNat 32 (A.toNat * B.toNat / 2 ^ 32)) (exec (.smulhu d a b) s) ∧
    gives (BitVec.ofInt 32 (A.toInt * B.toInt / 2 ^ 32)) (exec (.smulhs d a b) s) ∧
    gives (A &&& B) (exec (.sand d a b) s) ∧
    gives (A ||| B) (exec (.sor d a b) s) ∧
    gives (A ^^^ B) (exec (.sxor d a b) s) ∧
    gives (A &&& ~~~B) (exec (.sandn d a b) s) ∧
    gives (A <<< (B &&& 31).toNat) (exec (.sshl d a b) s) ∧
    gives (A >>> (B &&& 31).toNat) (exec (.sshr d a b) s) ∧
    gives (A.sshiftRight (B &&& 31).toNat) (exec (.ssra d a b) s) ∧
    gives (BitVec.ofInt 32 (min A.toInt B.toInt)) (exec (.smin d a b) s) ∧
    gives (BitVec.ofInt 32 (max A.toInt B.toInt)) (exec (.smax d a b) s) ∧
    gives (BitVec.ofNat 32 (min A.toNat B.toNat)) (exec (.sminu d a b) s) ∧
    gives (BitVec.ofNat 32 (max A.toNat B.toNat)) (exec (.smaxu d a b) s) ∧
    gives (if A = B then 1 else 0) (exec (.scmpeq d a b) s) ∧
    gives (if A.toInt < B.toInt then 1 else 0) (exec (.scmplt d a b) s) ∧
    gives (if A.toNat < B.toNat then 1 else 0) (exec (.scmpltu d a b) s) ∧
    gives A (exec (.smov d a) s)) ∧
  (∀ (s : State) (d a b : BitVec 7),
    let A := s.scalar a
    let B := s.scalar b
    (∃ n, n ≤ 32 ∧ A.toNat < 2 ^ (32 - n) ∧ (n < 32 → 2 ^ (31 - n) ≤ A.toNat) ∧
      scalarTo s d.toNat (BitVec.ofNat 32 n) (exec (.sclz d a) s)) ∧
    scalarTo s d.toNat (BitVec.ofNat 32 ((List.range 32).filter fun i => A.getLsbD i).length) (exec (.spop d a) s) ∧
    (∃ v : Word, (∀ i, i < 32 → v.getLsbD i = A.getLsbD (31 - i)) ∧ scalarTo s d.toNat v (exec (.sbrev d a) s)) ∧
    (∃ v : Word, (∀ i, i < 32 → v.getLsbD i =
        (decide (i < B.toNat / 32 % 64) && A.getLsbD (B.toNat % 32 + i))) ∧
      scalarTo s d.toNat v (exec (.sbfe d a b) s)) ∧
    ∀ w : Word, ∀ i ∈ [Instr.smov d a, .sclz d a, .spop d a, .sbrev d a], decodeWord w = .instr i → w.toNat % 128 = 0)

/-- R47: the 64-bit scalar instructions write `x`d, the pair of `s`d and `s`(d + 1).
R48: class 1 acts on D, the old value of its destination, and the immediate, sign-extended where the row says so and
zero-extended elsewhere; STIME reads the time of R349. -/
def Obligations.ScalarPairAndImmediateResults : Prop :=
  (∀ (s : State) (d a b : BitVec 7),
    let A := s.scalar64 a
    let B := s.scalar64 b
    let C : DWord := BitVec.ofNat 64 (s.scalar b).toNat
    let gives := pairTo s d.toNat
    gives (A + B) (exec (.sadd64 d a b) s) ∧
    gives (A - B) (exec (.ssub64 d a b) s) ∧
    gives (A + 2 * C) (exec (.slea64_1 d a b) s) ∧
    gives (A + 4 * C) (exec (.slea64_2 d a b) s) ∧
    gives (A + 8 * C) (exec (.slea64_3 d a b) s) ∧
    gives (A + 16 * C) (exec (.slea64_4 d a b) s)) ∧
  (∀ (s : State) (d : BitVec 7) (i : BitVec 14) (n : BitVec 5),
    let D := s.issue.src.sreg d.toNat
    let I : Word := BitVec.ofInt 32 i.toInt
    let Z : Word := BitVec.ofNat 32 i.toNat
    let gives := scalarTo s d.toNat
    gives I (exec (.smovi d i) s) ∧
    gives (D + I) (exec (.saddi d i) s) ∧
    gives (D &&& Z) (exec (.sandi d i) s) ∧
    gives (D ||| Z) (exec (.sori d i) s) ∧
    gives (D ^^^ Z) (exec (.sxori d i) s) ∧
    gives (D <<< n.toNat) (exec (.sshli d n) s) ∧
    gives (D >>> n.toNat) (exec (.sshri d n) s) ∧
    gives (D.sshiftRight n.toNat) (exec (.ssrai d n) s) ∧
    gives (if D = I then 1 else 0) (exec (.scmpeqi d i) s) ∧
    gives (if D.toInt < i.toInt then 1 else 0) (exec (.scmplti d i) s) ∧
    pairTo s d.toNat (s.issue.src.pair d.toNat + BitVec.ofInt 64 i.toInt) (exec (.sadd64i d i) s) ∧
    pairTo s d.toNat s.clock.eph (exec (.stime d) s))

/-- R14, R35, R36, R229, R369: SSYSR of every assigned number gives the value of that register, to every gang, in the Lamplighter slot or
not: the gang's own registers as they stood before the chain, FPFLAG with the class 7 flags that have entered since. -/
def Obligations.SystemRegisterReads : Prop :=
  ∀ (s : State) (d : BitVec 7),
    let g := s.issue.src
    let l := s.launchAt g.launch
    let c := s.ctxAt l.ctx
    let core := s.coreAt g.core
    let snuff := l.pkt.deadline - min l.pkt.budget l.pkt.deadline
    let reads := fun (r : BitVec 14) v => scalarTo s d.toNat v (exec (.ssysr d r) s)
    reads 0x000 (s.clock.eph.extractLsb' 0 32) ∧ reads 0x001 (s.clock.eph.extractLsb' 32 32) ∧ reads 0x002 s.clock.adj ∧
    reads 0x010 (BitVec.ofNat 32 g.band) ∧ reads 0x011 (BitVec.ofNat 32 g.dstack) ∧ reads 0x012 g.expmix ∧
    reads 0x013 (BitVec.ofNat 32 g.fptrap.toNat) ∧ reads 0x014 (BitVec.ofNat 32 (g.fpflag ||| s.issue.entered).toNat) ∧
    reads 0x015 (BitVec.ofNat 32 g.role) ∧
    reads 0x020 (BitVec.ofNat 32 (core.retired.length * 2 ^ 24 + core.opb * 2 ^ 16 + core.scr * 2 ^ 8 + core.cache)) ∧
    reads 0x021 (if (s.domeAt (g.core / 4)).fused then 1 else 0) ∧
    reads 0x030 l.lerr ∧ reads 0x031 l.lerrPc ∧ reads 0x032 l.lerrWd ∧ reads 0x033 l.lerrGang ∧
    reads 0x040 (BitVec.ofNat 32 l.pkt.deadline) ∧ reads 0x041 (BitVec.ofNat 32 (l.pkt.deadline / 2 ^ 32)) ∧
    reads 0x042 (BitVec.ofNat 32 snuff) ∧ reads 0x043 (BitVec.ofNat 32 (snuff / 2 ^ 32)) ∧
    reads 0x050 c.pinlim ∧ reads 0x051 s.fab.cohtmo ∧ reads 0x052 c.trapent ∧ reads 0x060 s.pkg.carve ∧
    ∀ k i, k < 32 → i < 8 →
      reads (BitVec.ofNat 14 (0x100 + 8 * k + i)) (((s.dieAt (g.core / 48)).chrono k).read i)

/-- Chronograph k of the die of the chain's gang becomes c, and nothing else changes (R369). -/
def Sys2Proof.Says.chronoSet (s : State) (k : Nat) (c : Chrono) (t : State) : Prop :=
  let die := s.cur.core / 48
  (t.dieAt die).chrono k = c ∧ (∀ j, j ≠ k → (t.dieAt die).chrono j = (s.dieAt die).chrono j) ∧
    t.dieAt die = { s.dieAt die with chronos := (t.dieAt die).chronos } ∧ (∀ j, j ≠ die → t.dieAt j = s.dieAt j) ∧
    t = { s with dies := t.dies }

/-- R36, R228, R369: SSYSW of the gang's own registers: EXPMIX and FPTRAP take their fields, FPFLAG loses the flags written with 1 but for
those that the same chain raises, CHBSEL of a Chronograph of the gang's die takes its bin, and a read-only register changes nothing.
Nothing else changes.
R5, R36, R190, R274, R275, R369: in the Lamplighter slot SSYSW writes the privileged registers; CARVE takes a value once after reset, and
BROLE only counts that make up the working banks: new roles leave no dirty or pinned line in the L1 that they take; CHCFG takes its fields
and, with CLR, empties its Chronograph. Nothing else changes. -/
def Obligations.RegisterWritesOfSsysw : Prop :=
  (∀ (s : State) (d : BitVec 7),
    let w := s.issue.src.sreg d.toNat
    goes (exec (.ssysw d 0x012) s) (fun t =>
      t.cur = { s.cur with expmix := BitVec.ofNat 32 (w.toNat % 16) } ∧ onlyGang s t) ∧
    goes (exec (.ssysw d 0x013) s) (fun t =>
      t.cur = { s.cur with fptrap := BitVec.ofNat 5 w.toNat } ∧ onlyGang s t) ∧
    goes (exec (.ssysw d 0x014) s) (fun t =>
      (∀ i, t.cur.fpflag.getLsbD i = ((s.cur.fpflag.getLsbD i && !w.getLsbD i) || s.issue.flags.getLsbD i || s.issue.kept.getLsbD i)) ∧
        t.cur = { s.cur with fpflag := t.cur.fpflag } ∧ onlyGang s t) ∧
    (∀ r ∈ [(0x000 : BitVec 14), 0x001, 0x010, 0x011, 0x015, 0x021, 0x030, 0x031, 0x032, 0x033, 0x040, 0x041, 0x042, 0x043],
      exec (.ssysw d r) s = .next s) ∧
    ∀ k, k < 32 →
      goes (exec (.ssysw d (BitVec.ofNat 14 (0x105 + 8 * k))) s) (chronoSet s k { (s.dieAt (s.cur.core / 48)).chrono k with bsel := w.toNat % 32 }) ∧
      ∀ i ∈ [1, 2, 3, 4, 6, 7], goes (exec (.ssysw d (BitVec.ofNat 14 (0x100 + 8 * k + i))) s) fun t =>
        (∀ j, t.dieAt j = s.dieAt j) ∧ t = { s with dies := t.dies }) ∧
  (∀ (s : State) (d : BitVec 7), s.cur.lamp = true →
    let w := s.issue.src.sreg d.toNat
    let ctx := (s.launchAt s.cur.launch).ctx
    let core := s.coreAt s.cur.core
    let cache := w.toNat % 64
    let scr := w.toNat / 2 ^ 8 % 64
    let opb := w.toNat / 2 ^ 16 % 64
    let only := fun (t : State) => (∀ k, t.gangAt k = s.gangAt k) ∧ memoryStays s t
    goes (exec (.ssysw d 0x002) s) (fun t => t = { s with clock := { s.clock with adj := w } } ∧ only t) ∧
    goes (exec (.ssysw d 0x050) s) (fun t =>
      t.ctxAt ctx = { s.ctxAt ctx with pinlim := w } ∧ t = { s with ctxs := t.ctxs } ∧ only t) ∧
    goes (exec (.ssysw d 0x051) s) (fun t => t = { s with fab := { s.fab with cohtmo := w } } ∧ only t) ∧
    goes (exec (.ssysw d 0x052) s) (fun t =>
      t.ctxAt ctx = { s.ctxAt ctx with trapent := w } ∧ t = { s with ctxs := t.ctxs } ∧ only t) ∧
    goes (exec (.ssysw d 0x060) s) (fun t =>
      t.pkg.carve = (if s.pkg.carveSet then s.pkg.carve else w &&& 0xFFFFF801) ∧ t.pkg.carveSet = true ∧
        t = { s with pkg := { s.pkg with carve := t.pkg.carve, carveSet := true } } ∧ only t) ∧
    goes (exec (.ssysw d 0x020) s) (fun t =>
      t.coreAt s.cur.core =
        (if cache ≠ 0 ∧ scr ≠ 0 ∧ opb ≠ 0 ∧ cache + scr + opb = 32 - core.retired.length then
          { core with cache := cache, scr := scr, opb := opb } else core) ∧
        (t.coreAt s.cur.core ≠ core →
          (∀ x ∈ t.dirty, x ∈ s.dirty ∧ s.oneL1 s.cur.core (s.gangAt x.gang).core = false) ∧
            ∀ x ∈ t.pins, x ∈ s.pins ∧ s.oneL1 s.cur.core (s.gangAt x.gang).core = false) ∧
        (t.coreAt s.cur.core = core → t.dirty = s.dirty ∧ t.pins = s.pins) ∧
        t = { s with cores := t.cores, dirty := t.dirty, pins := t.pins } ∧ only t) ∧
    ∀ k, k < 32 →
      let x := (s.dieAt (s.cur.core / 48)).chrono k
      let y : Chrono := { x with en := w.getLsbD 31, freeze := w.getLsbD 29, qual := w.toNat / 2 ^ 8 % 2 ^ 8,
                                 src := if w.toNat % 2 ^ 8 < 6 then w.toNat % 2 ^ 8 else 0 }
      let write := exec (.ssysw d (BitVec.ofNat 14 (0x100 + 8 * k))) s
      (w.getLsbD 30 = false → goes write (chronoSet s k y)) ∧
        (w.getLsbD 30 = true → goes write (chronoSet s k
          { y with count := 0, least := 0xFFFFFFFF, greatest := 0, latest := 0, bins := [], dropped := 0 })))

/-- R30, R32, R33, R36, R369: outside the Lamplighter slot the privileged instructions are illegal encodings of case 9: the gang is killed,
LERR keeps ILLEGAL and, at the first illegal encoding of the launch, the case, the offset and the word. -/
def Obligations.PrivilegedInstructionsElsewhere : Prop :=
  ∀ (s : State) (i : Instr), s.cur.lamp = false →
    (i = .halt ∨ (∃ j x y, i = .jsetm j x y) ∨ (∃ a b c, i = .cohrec a b c) ∨
      ∃ d r, i = .ssysw d r ∧ (r ∈ [(0x002 : BitVec 14), 0x020, 0x050, 0x051, 0x052, 0x060] ∨ ∃ k, k < 32 ∧ r = BitVec.ofNat 14 (0x100 + 8 * k))) →
    let l := s.launchAt s.cur.launch
    goes (exec i s) fun t =>
      let m := t.launchAt s.cur.launch
      t.cur.place = .gone ∧ m.faulted = true ∧ m.lerr.getLsbD 0 = true ∧
        (l.lerr.getLsbD 0 = false →
          m.lerr.toNat / 2 ^ 8 % 16 = l.lerr.toNat / 2 ^ 8 % 16 ||| 9 ∧ m.lerrPc = BitVec.ofNat 32 s.issue.pc ∧
            m.lerrWd = s.issue.word ∧ m.lerrGang = BitVec.ofNat 32 s.cur.num)

/-! ### Vector integer instructions (R79, R80, R84 to R87) -/

/-- A function of elements of any width, on the whole register, or on both halves with h = 1 (R80). -/
def Sys2Proof.Says.elements (h : BitVec 1) (f : (w : Nat) → BitVec w → BitVec w → BitVec w) (A B : Word) : Word :=
  if h = 1 then f 16 (A.extractLsb' 16 16) (B.extractLsb' 16 16) ++ f 16 (A.extractLsb' 0 16) (B.extractLsb' 0 16)
  else f 32 A B

/-- A number narrowed to w bits by the saturation code: 0 wraps, 1 saturates signed, 2 saturates unsigned (R84). -/
def Sys2Proof.Says.narrowed (mode : Nat) (w : Nat) (signed unsigned : Int) : BitVec w :=
  if mode = 1 then BitVec.ofInt w (max (-(2 ^ (w - 1))) (min (2 ^ (w - 1) - 1) signed))
  else if mode = 2 then BitVec.ofInt w (max 0 (min (2 ^ w - 1) unsigned))
  else BitVec.ofInt w signed

/-- R79, R80, R84: the integer and logic instructions of class 4 write `v`d in each active lane, element by element with h = 1.
Auxiliary bits 1:0 of VADD and VSUB are not 3 (that is case 3). -/
def Obligations.VectorIntegerResults : Prop :=
  ∀ (s : State) (d : BitVec 6) (a b : BitVec 7) (h : BitVec 1),
    let mode := s.issue.pfx.x.toNat % 4
    let gives := fun (f : (w : Nat) → BitVec w → BitVec w → BitVec w) =>
      vectorTo s d.toNat fun l => elements h f (s.vectorInt h l a) (s.vectorInt h l b)
    (mode ≠ 3 → gives (fun w x y => narrowed mode w (x.toInt + y.toInt) (x.toNat + y.toNat)) (exec (.vadd d a b h) s)) ∧
    (mode ≠ 3 → gives (fun w x y => narrowed mode w (x.toInt - y.toInt) (x.toNat - y.toNat)) (exec (.vsub d a b h) s)) ∧
    gives (fun w x y => BitVec.ofNat w (x.toNat * y.toNat)) (exec (.vmullo d a b h) s) ∧
    gives (fun w x y => BitVec.ofNat w (x.toNat * y.toNat / 2 ^ w)) (exec (.vmulhu d a b h) s) ∧
    gives (fun w x y => BitVec.ofInt w (x.toInt * y.toInt / 2 ^ w)) (exec (.vmulhs d a b h) s) ∧
    gives (fun _ x y => x &&& y) (exec (.vand d a b h) s) ∧
    gives (fun _ x y => x ||| y) (exec (.vor d a b h) s) ∧
    gives (fun _ x y => x ^^^ y) (exec (.vxor d a b h) s) ∧
    gives (fun _ x y => x &&& ~~~y) (exec (.vandn d a b h) s) ∧
    gives (fun w x y => x <<< (y.toNat % w)) (exec (.vshl d a b h) s) ∧
    gives (fun w x y => x >>> (y.toNat % w)) (exec (.vshr d a b h) s) ∧
    gives (fun w x y => x.sshiftRight (y.toNat % w)) (exec (.vsra d a b h) s) ∧
    gives (fun w x y => BitVec.ofInt w (min x.toInt y.toInt)) (exec (.vmin d a b h) s) ∧
    gives (fun w x y => BitVec.ofInt w (max x.toInt y.toInt)) (exec (.vmax d a b h) s) ∧
    gives (fun w x y => BitVec.ofNat w (min x.toNat y.toNat)) (exec (.vminu d a b h) s) ∧
    gives (fun w x y => BitVec.ofNat w (max x.toNat y.toNat)) (exec (.vmaxu d a b h) s) ∧
    gives (fun w x y => BitVec.ofNat w (x.toInt - y.toInt).natAbs) (exec (.vabsd d a b h) s) ∧
    gives (fun w x _ => BitVec.ofNat w (if x = 0 then w else w - 1 - x.toNat.log2)) (exec (.vclz d a h) s) ∧
    gives (fun w x _ => BitVec.ofNat w ((List.range w).filter fun i => x.getLsbD i).length) (exec (.vpop d a h) s)

/-- R84, R86, R87: VMOV copies, VSEL picks by the predicate of the prefix's o field, VBFE takes a field, VLEA adds a shifted
operand, VMAD adds the product to the operand o or, without one, to the old destination, and VPTOV gathers predicates.
R22, R85, R86: the compares, the predicate instructions and VVTOP write the predicate whose index is 2 d + h. -/
def Obligations.VectorMoveAndPredicateResults : Prop :=
  (∀ (s : State) (d : BitVec 6) (a b : BitVec 7) (h : BitVec 1),
    let A := fun l => s.vector l a
    let B := fun l => s.vector l b
    let o := s.issue.pfx.o
    let k := s.issue.pfx.x.toNat % 8
    let C := fun l => if o = 0 then (s.srcLane l).vreg d.toNat else s.vectorInt h l o
    vectorTo s d.toNat A (exec (.vmov d a) s) ∧
    vectorTo s d.toNat (fun l => if (s.srcLane l).pred o.toNat then A l else B l) (exec (.vsel d a b) s) ∧
    vectorTo s d.toNat (fun l =>
      BitVec.ofNat 32 ((A l).toNat / 2 ^ ((B l).toNat % 32) % 2 ^ min 32 ((B l).toNat / 32 % 64))) (exec (.vbfe d a b) s) ∧
    vectorTo s d.toNat (fun l => A l + B l * BitVec.ofNat 32 (2 ^ k)) (exec (.vlea d a b) s) ∧
    vectorTo s d.toNat (fun l =>
      let P := elements h (fun w x y => BitVec.ofNat w (x.toNat * y.toNat)) (s.vectorInt h l a) (s.vectorInt h l b)
      elements h (fun _ x y => x + y) P (C l)) (exec (.vmad d a b h) s) ∧
    ∃ f : Nat → Word,
      (∀ l i, i < 32 → (f l).getLsbD i = (decide (a.toNat + i ≤ b.toNat) && (s.srcLane l).pred (a.toNat + i))) ∧
        vectorTo s d.toNat f (exec (.vptov d a b) s)) ∧
  (∀ (s : State) (d : BitVec 6) (a b : BitVec 7) (h : BitVec 1),
    let A := fun l => s.vector l a
    let B := fun l => s.vector l b
    let P := fun l => (s.srcLane l).pred a.toNat
    let Q := fun l => (s.srcLane l).pred b.toNat
    let gives := predTo s (2 * d.toNat + h.toNat)
    gives (fun l => decide (A l = B l)) (exec (.vcmpeq d a b h) s) ∧
    gives (fun l => decide (A l ≠ B l)) (exec (.vcmpne d a b h) s) ∧
    gives (fun l => decide ((A l).toInt < (B l).toInt)) (exec (.vcmplt d a b h) s) ∧
    gives (fun l => decide ((A l).toInt ≤ (B l).toInt)) (exec (.vcmple d a b h) s) ∧
    gives (fun l => decide ((A l).toNat < (B l).toNat)) (exec (.vcmpltu d a b h) s) ∧
    gives (fun l => decide ((A l).toNat ≤ (B l).toNat)) (exec (.vcmpleu d a b h) s) ∧
    gives (fun l => P l && Q l) (exec (.vpand d a b h) s) ∧
    gives (fun l => P l || Q l) (exec (.vpor d a b h) s) ∧
    gives (fun l => P l != Q l) (exec (.vpxor d a b h) s) ∧
    gives (fun l => !P l) (exec (.vpnot d a h) s) ∧
    gives (fun l => decide (A l &&& B l ≠ 0)) (exec (.vvtop d a b h) s))

/-! ### Branches, calls and returns (R50 to R60) -/

/-- The issuing lanes of which `taken` holds go on at packet k, raising their yield counters when the branch is backward; every other
lane goes on where it was to go. Where no window is open nothing else of any lane or of the gang changes. -/
def Sys2Proof.Says.jumpsWith (regs : Table Word) (s : State) (k : Nat) (backward : Prop) [Decidable backward] (taken : Nat → Prop)
    (r : Host.Outcome State Fault Refusal) : Prop :=
  goes r fun t =>
    (∀ l, issuing s l → taken l → (t.cur.lane l).resumePc = 12 * k ∧
      (t.cur.lane l).cnt = if backward then min 16 ((s.cur.lane l).cnt + 1) else (s.cur.lane l).cnt) ∧
    (∀ l, ¬ (issuing s l ∧ taken l) →
      (t.cur.lane l).resumePc = (s.cur.lane l).resumePc ∧ (t.cur.lane l).cnt = (s.cur.lane l).cnt) ∧
    (noWindows s → (∀ l, t.cur.lane l =
        { s.cur.lane l with pc := (t.cur.lane l).pc, wait := (t.cur.lane l).wait, cnt := (t.cur.lane l).cnt }) ∧
      t.cur = { s.cur with lanes := t.cur.lanes, sregs := regs }) ∧
    onlyGangIssue s t

/-- The same with every scalar register as it was. -/
def Sys2Proof.Says.jumps (s : State) (k : Nat) (backward : Prop) [Decidable backward] (taken : Nat → Prop)
    (r : Host.Outcome State Fault Refusal) : Prop := jumpsWith s.cur.sregs s k backward taken r

/-- Packet k of the code object is where a relative branch of the chain leads (R17). -/
def Sys2Proof.Says.leadsTo (s : State) (f : BitVec 15) (k : Nat) : Prop :=
  (k : Int) = (s.issue.pc / 12 : Nat) + f.toInt ∧ k < (s.codeOf s.cur).n

/-- R50, R51, R55, R56, R209: the branches take their lanes to packet n + F, or to the packet at an address; a branch back raises the
lanes' yield counters; lanes that do not take it go on past it. BRANY and BRALL ask every lane of the band and issue
when every live lane has reached them. -/
def Obligations.BranchResults : Prop :=
  ∀ (s : State) (f : BitVec 15) (c : BitVec 7) (k : Nat), leadsTo s f k →
    let gives := jumps s k (f.toInt ≤ 0)
    let P := fun l => (s.srcLane l).pred c.toNat = true
    let peer := fun l m => issuing s m ∧ m / s.issue.src.band = l / s.issue.src.band
    gives (fun _ => True) (exec (.br f) s) ∧
    gives (fun _ => s.scalar c = 0) (exec (.brsz c f) s) ∧
    gives (fun _ => s.scalar c ≠ 0) (exec (.brsnz c f) s) ∧
    gives P (exec (.brp c f) s) ∧
    gives (fun l => ¬ P l) (exec (.brnp c f) s) ∧
    (s.issue.lanes = s.issue.src.liveMask → gives (fun l => ∃ m, peer l m ∧ P m) (exec (.brany c f) s)) ∧
    (s.issue.lanes = s.issue.src.liveMask → gives (fun l => ∀ m, peer l m → P m) (exec (.brall c f) s))

/-- R52, R56: BRI goes to the packet at an address of the code object; LOOPD counts D down and branches until it is 0; YIELD notes that
the lanes stand back; BAND sets the band width once every live lane has reached it. -/
def Obligations.IndirectBranchLoopYieldBand : Prop :=
  ∀ (s : State) (f : BitVec 15) (c : BitVec 7) (y : BitVec 10) (k : Nat),
    (s.issue.src.pair c.toNat = (s.codeOf s.cur).base + BitVec.ofNat 64 (12 * k) → 12 * k < 2 ^ 64 →
      k < (s.codeOf s.cur).n → jumps s k (k ≤ s.issue.pc / 12) (fun _ => True) (exec (.bri c) s)) ∧
    (leadsTo s f k →
      let D := s.issue.src.sreg c.toNat - 1
      jumpsWith (s.cur.setS c.toNat D).sregs s k (f.toInt ≤ 0) (fun _ => D ≠ 0) (exec (.loopd c f) s) ∧
        (noWindows s → goes (exec (.loopd c f) s) fun t =>
          t.cur.sreg c.toNat = D ∧ ∀ m, m ≠ c.toNat → t.cur.sreg m = s.cur.sreg m)) ∧
    goes (exec .yield s) (fun t =>
      (∀ l, issuing s l → t.cur.lane l = { s.cur.lane l with yieldAt := s.cur.chains + 1 }) ∧
        (∀ l, ¬ issuing s l → t.cur.lane l = s.cur.lane l) ∧
        t.cur = { s.cur with lanes := t.cur.lanes } ∧ onlyGang s t) ∧
    (s.issue.lanes = s.issue.src.liveMask →
      goes (exec (.band y) s) fun t => t.cur = { s.cur with band := 2 ^ min 5 y.toNat } ∧ onlyGang s t)

/-- The spill area has room for what a push at a shift (in units of 8) spills in the issuing lanes, or no lane spills (R205). -/
def Sys2Proof.Says.pushRoom (s : State) (shift : Nat) : Prop :=
  let d := s.cur.dstack
  let x := s.cur.lane
  let c := s.ctxAt (s.ctxNum s.issue.gang)
  (∀ l, issuing s l → (x l).mustSpill d ((x l).wbase + 8 * shift) = false) ∨
    c.splused + 4096 * ((lanesOf s.issue.lanes).map fun l =>
      pieces ((x l).spilled + (x l).spillBytes d ((x l).wbase + 8 * shift))).sum ≤ c.poolBytes

/-- The issuing lanes have pushed an entry: depth, window and link stack (R53, R204, R244), the newly exposed registers 0 but for what
`filled` takes. -/
def Sys2Proof.Says.pushed (s t : State) (link : Nat → Link) (filled : Nat → Prop) : Prop :=
  ∀ l, issuing s l →
    let x := s.cur.lane l
    let y := t.cur.lane l
    y.links = link l :: x.links ∧ y.depth = x.depth + 1 ∧ y.wbase = x.wbase + 8 * (link l).shift ∧
      ∀ j, j < 8 * (link l).shift → ¬ filled (64 - 8 * (link l).shift + j) → Table.get 0 (x.wbase + 56 + j) y.stack = 0

/-- R54, R57: the issuing lanes have left the sets that are homed at their depth; a set whose member mask this changed and whose live
members then all wait is complete, and its waiting lanes go on; every other set and every other lane that does not issue stays. -/
def Sys2Proof.Says.homeLeft (s t : State) : Prop :=
  let old := s.cur.jset
  let new := t.cur.jset
  let leaves := fun k l => issuing s l ∧ (old k).freed = false ∧ (old k).home = (s.cur.lane l).depth
  let stays := fun k (m : LaneMask) l => m.getLsbD l = true ∧ ¬ leaves k l
  let live := fun l => l < 32 ∧ (s.cur.lane l).live = true
  let completes := fun k => k < 16 ∧ (∃ l, leaves k l ∧ (old k).member.getLsbD l = true) ∧ (∃ l, live l ∧ stays k (old k).member l) ∧
    ∀ l, live l → stays k (old k).member l → stays k (old k).waiting l
  let goesOn := fun l k r => completes k ∧ stays k (old k).waiting l ∧ (s.cur.lane l).wait = .jwait k r
  (∀ k, k < 16 → new k = { old k with member := (new k).member, waiting := (new k).waiting } ∧
    (∀ l, (new k).member.getLsbD l = true ↔ stays k (old k).member l) ∧ (completes k → (new k).waiting = 0) ∧
    (¬ completes k → ∀ l, (new k).waiting.getLsbD l = true ↔ stays k (old k).waiting l)) ∧
  ∀ l, ¬ issuing s l → (∀ k r, goesOn l k r → t.cur.lane l = { s.cur.lane l with wait := .ready, pc := r }) ∧
    ((¬ ∃ k r, goesOn l k r) → t.cur.lane l = s.cur.lane l)

/-- R53, R54, R57, R204: CALL and CALLI push the return point and go to the target with the window raised; RET from a call pops the newest
entry and goes on at its return point with the window lowered, and its lanes leave the sets that are homed at their depth. Memory and the
other gangs stay. -/
def Obligations.CallAndReturnResults : Prop :=
  ∀ (s : State) (f : BitVec 15) (c : BitVec 7) (h : BitVec 3) (k : Nat),
    let calls := fun (shift : Nat) (r : Host.Outcome State Fault Refusal) =>
      (∀ l, issuing s l → (s.srcLane l).depth ≠ 255) → pushRoom s shift →
      goes r fun t =>
        pushed s t (fun _ => { off := 12 * (s.issue.pc / 12 + 1), shift := shift, trap := false }) (fun _ => False) ∧
          (∀ l, issuing s l → (t.cur.lane l).resumePc = 12 * k) ∧
          (∀ l, ¬ issuing s l → t.cur.lane l = s.cur.lane l) ∧
          memoryStays s t ∧ ∀ j, j ≠ s.issue.gang → t.gangAt j = s.gangAt j
    (leadsTo s f k → calls c.toNat (exec (.call c f) s)) ∧
    (s.issue.src.pair c.toNat = (s.codeOf s.cur).base + BitVec.ofNat 64 (12 * k) → 12 * k < 2 ^ 64 →
      k < (s.codeOf s.cur).n → calls h.toNat (exec (.calli c h) s)) ∧
    ((∀ l, issuing s l → (s.srcLane l).links = (s.cur.lane l).links ∧ (s.cur.lane l).depth ≠ 0 ∧
        ∃ e es, (s.cur.lane l).links = e :: es ∧ e.trap = false) →
      goes (exec .ret s) fun t =>
        (∀ l e es, issuing s l → (s.cur.lane l).links = e :: es →
          (t.cur.lane l).resumePc = e.off ∧ (t.cur.lane l).links = es ∧
            (t.cur.lane l).depth = (s.cur.lane l).depth - 1 ∧
            (t.cur.lane l).wbase = (s.cur.lane l).wbase - 8 * e.shift) ∧
          homeLeft s t ∧ memoryStays s t ∧ ∀ j, j ≠ s.issue.gang → t.gangAt j = s.gangAt j)

/-- R58, R201: END makes the issuing lanes vacant and takes them out of every rejoin set; a set whose live members all wait then
completes. While another lane is live, or the chain goes on, every other lane stays but for what a completed set lets go on. The gang
retires when its last live lanes end and the chain ends with them: every lane is vacant, and its registers stay. Memory and the
registers of other gangs stay.
R59, R78, R187, R249: REFILL is not idempotent in the issuing lanes. It branches when the gang is in wrap-up or no item is left; else
each vacant lane in ascending order takes an item into `v0` and `v1`, starts at the next packet with `v2` to `v7` as they were and every
other register and predicate 0, and joins the set, while items last; then every set whose live members all wait completes. Its reads
leave their translations in the caches. Nothing else of the gang, no other gang and no byte of memory changes. -/
def Obligations.EndAndRefillResults : Prop :=
  (∀ (s : State),
    let I := s.issue.lanes
    let member := fun k => (s.cur.jset k).member &&& ~~~I
    let waiting := fun k => (s.cur.jset k).waiting &&& ~~~I
    let live := fun k => member k &&& s.cur.liveMask
    let completes := fun k => k < 16 ∧ live k ≠ 0 ∧ waiting k &&& live k = live k
    let goesOn := fun l k r => l < 32 ∧ completes k ∧ (waiting k).getLsbD l = true ∧ (s.cur.lane l).wait = .jwait k r
    let stays := s.issue.more = true ∨ s.cur.alive = false ∨ ∃ l, l < 32 ∧ (s.cur.lane l).live = true ∧ ¬ issuing s l
    (stays → goes (exec .end_ s) fun t =>
      (∀ l, issuing s l → (t.cur.lane l).live = false ∧ (t.cur.lane l).wait = .ready) ∧
        (∀ l k r, ¬ issuing s l → goesOn l k r → t.cur.lane l = { s.cur.lane l with wait := .ready, pc := r }) ∧
        (∀ l, ¬ issuing s l → (¬ ∃ k r, goesOn l k r) → t.cur.lane l = s.cur.lane l) ∧
        (∀ k, k < 16 → ∃ w, t.cur.jset k = { s.cur.jset k with member := member k, waiting := w } ∧
          (completes k → w = 0) ∧ (¬ completes k → w = waiting k)) ∧
        (noWindows s → (∀ l, issuing s l → t.cur.lane l = { s.cur.lane l with live := false, wait := .ready }) ∧
          t.cur = { s.cur with lanes := t.cur.lanes, sets := t.cur.sets }) ∧
        onlyGangIssue s t) ∧
    (¬ stays → goes (exec .end_ s) fun t =>
      t.cur.place = .gone ∧ (∀ l, l < 32 → (t.cur.lane l).live = false) ∧
        (noWindows s → (∀ l, l < 32 → t.cur.lane l = { s.cur.lane l with live := false, wait := .ready, spilled := 0 }) ∧
          t.cur.sregs = s.cur.sregs ∧ t.cur.qregs = s.cur.qregs ∧ t.cur.fpflag = s.cur.fpflag ∧ t.cur.fptrap = s.cur.fptrap) ∧
        (∀ k, k ≠ s.issue.gang → t.gangAt k =
          { s.gangAt k with granted := (t.gangAt k).granted, windowFreed := (t.gangAt k).windowFreed }) ∧ memoryStays s t)) ∧
  (∀ (s : State) (c : BitVec 7) (f : BitVec 15) (k : Nat), leadsTo s f k →
    let set := c.toNat % 16
    let j := s.cur.jset set
    let l := s.launchOf s.issue.gang
    let agent := s.agentOf s.issue.gang
    let at_ := fun i => l.itemAddr + BitVec.ofNat 64 (8 * i)
    let noted := fun n => (List.range n).foldl (fun u i => u.noteVa agent (at_ (l.itemNext + i))) s
    let item := fun i => readGlobal (noted (i - l.itemNext)) agent (at_ i) 8 .read
    let rank := fun n => ((List.range n).filter fun m => !(s.cur.lane m).live).length
    let refilled := fun n => n < 32 ∧ (s.cur.lane n).live = false ∧ l.itemNext + rank n < l.itemCount
    j.freed = false → j.home = 0 →
      ((s.cur.wrap = true ∨ l.itemCount ≤ l.itemNext) →
        jumps s.spoil k (f.toInt ≤ 0) (fun _ => True) (exec (.refill c f) s) ∧
          ∀ l, (issuing s l → s.spoil.cur.lane l = { s.cur.lane l with spoiled := true }) ∧
            (¬ issuing s l → s.spoil.cur.lane l = s.cur.lane l)) ∧
      (s.cur.wrap = false → l.itemNext < l.itemCount →
        (∀ i, l.itemNext ≤ i → i < l.itemCount → i < l.itemNext + rank 32 → ∃ bs, item i = .ok bs) →
        goes (exec (.refill c f) s) fun t =>
          (∀ n bs, refilled n → item (l.itemNext + rank n) = .ok bs →
            t.cur.lane n = { Lane.vacant with live := true, pc := 12 * (s.issue.pc / 12 + 1), globals := (t.cur.lane n).globals } ∧
              (t.cur.lane n).vreg 1 ++ (t.cur.lane n).vreg 0 = BitVec.ofNat 64 (natLE bs) ∧
              (∀ m, 2 ≤ m → m < 8 → (t.cur.lane n).vreg m = (s.cur.lane n).vreg m) ∧ (∀ m, 8 ≤ m → (t.cur.lane n).vreg m = 0) ∧
              ∀ p, p ≠ 0 → (t.cur.lane n).pred p = false) ∧
          (∀ n, ¬ refilled n → ∃ x : Lane, x = { s.cur.lane n with spoiled := x.spoiled } ∧
            (issuing s n → x.spoiled = true) ∧ (¬ issuing s n → x.spoiled = (s.cur.lane n).spoiled) ∧
            (t.cur.lane n = x ∨ ∃ i r, i < 16 ∧ x.wait = .jwait i r ∧ t.cur.lane n = { x with wait := .ready, pc := r })) ∧
          (∀ n, n < 32 → ((t.cur.jset set).member.getLsbD n = true ↔ j.member.getLsbD n = true ∨ refilled n)) ∧
          (∀ i, i ≠ set → (t.cur.jset i).member = (s.cur.jset i).member) ∧
          (∀ i, t.cur.jset i =
            { s.cur.jset i with member := (t.cur.jset i).member, waiting := (t.cur.jset i).waiting } ∧
              ((t.cur.jset i).waiting = (s.cur.jset i).waiting ∨ (t.cur.jset i).waiting = 0)) ∧
          t.cur = { s.cur with lanes := t.cur.lanes, sets := t.cur.sets } ∧
          t.launchAt s.cur.launch = { l with itemNext := min l.itemCount (l.itemNext + rank 32) } ∧
          (∀ i, i ≠ s.cur.launch → t.launchAt i = s.launchAt i) ∧
          (∀ i, t.ctxAt i = { s.ctxAt i with splused := (t.ctxAt i).splused, areas := (t.ctxAt i).areas }) ∧
          (∀ i x, x ∈ (t.ctxAt i).areas ↔ x ∈ (s.ctxAt i).areas ∧ ¬ (i = s.ctxNum s.issue.gang ∧ ∃ n, refilled n ∧ x.1 = 32 * s.issue.gang + n)) ∧
          t.tlb = (noted (min (rank 32) (l.itemCount - l.itemNext))).tlb ∧
          t = { s with gangs := t.gangs, launches := t.launches, ctxs := t.ctxs, tlb := t.tlb } ∧ othersStay s t ∧ memoryStays s t))

/-! ### Rejoin sets (R57, R61 to R64) -/

/-- The completion procedure of R57 on set k, which an instruction left as j: its waiters go on when every live member waits, where each
was to go; `stays` are the lanes and their fields before it. -/
def Sys2Proof.Says.completed (before : Nat → Lane) (live : LaneMask) (k : Nat) (j : JSet) (g : Gang) : Prop :=
  let lm := j.member &&& live
  if lm ≠ 0 ∧ j.waiting &&& lm = lm then
    g.jset k = { j with waiting := 0 } ∧
      (∀ l, l < 32 → ∀ r, j.waiting.getLsbD l = true → (before l).wait = .jwait k r →
        g.lane l = { before l with wait := .ready, pc := r }) ∧
      ∀ l, ¬ (l < 32 ∧ j.waiting.getLsbD l = true ∧ ∃ r, (before l).wait = .jwait k r) → g.lane l = before l
  else g.jset k = j ∧ ∀ l, g.lane l = before l

/-- Every other set of the gang stays, and everything but the gang's sets and lanes. -/
def Sys2Proof.Says.setOnly (k : Nat) (s t : State) : Prop :=
  (∀ i, i ≠ k → t.cur.jset i = s.cur.jset i) ∧
    t.cur = { s.cur with lanes := t.cur.lanes, sets := t.cur.sets } ∧ onlyGang s t

/-- No issuing lane's use of set k is orphaned (R61). -/
def Sys2Proof.Says.ownedSet (s : State) (k : Nat) : Prop :=
  (s.cur.jset k).freed = false ∧ ∀ l, issuing s l → (s.cur.jset k).home ≤ (s.cur.lane l).depth

/-- R61, R62, R63: JNEW starts a set with the issuing lanes at their lowest depth, JENTER adds them, JQUIT takes them away unless the set
is freed, JFREE clears it, and JMASK and JWMASK read it; lanes that wait in a set that is restarted or freed go on. A JENTER by members and
a JQUIT by lanes that are none change nothing.
R57, R62: JWAIT stops the issuing members of the set after the chain, unless a snuff has released it, and completes it, and changes
nothing where no lane stops; said for
lanes without an open window. Memory and the other gangs stay.
R63, R64: JSETM in the Lamplighter slot writes one field of a set and completes nothing; other selectors of JMASK and JSETM are
reserved. -/
def Obligations.RejoinSetInstructionResults : Prop :=
  (∀ (s : State) (j : BitVec 4) (x : BitVec 7),
    let k := j.toNat
    let js := s.cur.jset k
    let I := s.issue.lanes
    let freedLanes := fun (t : State) =>
      (∀ l, l < 32 → ∀ r, js.waiting.getLsbD l = true → (s.cur.lane l).wait = .jwait k r →
        t.cur.lane l = { s.cur.lane l with wait := .ready, pc := r }) ∧
      ∀ l, ¬ (l < 32 ∧ js.waiting.getLsbD l = true ∧ ∃ r, (s.cur.lane l).wait = .jwait k r) → t.cur.lane l = s.cur.lane l
    (I ≠ 0 → goes (exec (.jnew j) s) fun t =>
      (∃ l, issuing s l ∧ (t.cur.jset k).home = min 255 (s.cur.lane l).depth) ∧
        (∀ l, issuing s l → (t.cur.jset k).home ≤ (s.cur.lane l).depth) ∧
        t.cur.jset k =
          { member := I, waiting := 0, home := (t.cur.jset k).home, snuffed := false, freed := false } ∧
        freedLanes t ∧ setOnly k s t) ∧
    let changed := fun (m : LaneMask) (t : State) =>
      (m ≠ js.member → completed s.cur.lane s.cur.liveMask k { js with member := m } t.cur) ∧
        (m = js.member → t.cur.jset k = js ∧ ∀ l, t.cur.lane l = s.cur.lane l) ∧ setOnly k s t
    (ownedSet s k → goes (exec (.jenter j) s) (changed (js.member ||| I))) ∧
    (js.freed = true → exec (.jquit j) s = .next s) ∧
    (js.freed = false → goes (exec (.jquit j) s) (changed (js.member &&& ~~~I))) ∧
    goes (exec (.jfree j) s) (fun t =>
      t.cur.jset k = { member := 0, waiting := 0, home := 0, snuffed := false, freed := true } ∧ freedLanes t ∧ setOnly k s t) ∧
    scalarTo s x.toNat js.member (exec (.jmask j x 0) s) ∧
    scalarTo s x.toNat
      (BitVec.ofNat 32 (js.home % 256 + (if js.snuffed then 2 ^ 8 else 0) + if js.freed then 2 ^ 9 else 0))
      (exec (.jmask j x 1) s) ∧
    scalarTo s x.toNat js.waiting (exec (.jwmask j x) s)) ∧
  (∀ (s : State) (j : BitVec 4),
    let k := j.toNat
    let js := s.cur.jset k
    let stay : LaneMask := if js.snuffed then 0 else s.issue.lanes &&& js.member
    let now := { js with waiting := js.waiting ||| stay }
    let before := fun l => if stay.getLsbD l then
        { s.cur.lane l with wait := .jwait k (s.cur.lane l).pc, pc := s.issue.pc } else s.cur.lane l
    ownedSet s k → noWindows s → goes (exec (.jwait j) s) fun t =>
      (stay ≠ 0 → completed before s.cur.liveMask k now t.cur) ∧
        (stay = 0 → t.cur.jset k = js ∧ ∀ l, t.cur.lane l = s.cur.lane l) ∧ (∀ i, i ≠ k → t.cur.jset i = s.cur.jset i) ∧
        t.cur = { s.cur with lanes := t.cur.lanes, sets := t.cur.sets } ∧ onlyGangIssue s t) ∧
  (∀ (s : State) (j : BitVec 4) (x : BitVec 7), s.cur.lamp = true →
    let k := j.toNat
    let js := s.cur.jset k
    let w := s.scalar x
    let gives := fun y v => goes (exec (.jsetm j x y) s) fun t =>
      t.cur.jset k = v ∧ (∀ i, i ≠ k → t.cur.jset i = s.cur.jset i) ∧ t.cur = { s.cur with sets := t.cur.sets } ∧ onlyGang s t
    gives 0 { js with member := w } ∧ gives 1 { js with waiting := w } ∧
    gives 2 { js with home := w.toNat % 2 ^ 8, snuffed := w.getLsbD 8, freed := w.getLsbD 9 } ∧
    ∀ y : BitVec 10, (1 < y.toNat → wellFormed (.jmask j x y) = false) ∧ (2 < y.toNat → wellFormed (.jsetm j x y) = false))

/-! ### Traps, service calls, signals (R66 to R69, R243 to R247) -/

/-- No snuff diverts the chain's gang as the chain ends (R71, R247). -/
def Sys2Proof.Says.noDiversion (s : State) : Prop :=
  s.cur.wrap = true ∨ s.cur.delaysSnuff = true ∨ s.cur.marked = none ∧ ∀ r, s.issue.after ≠ some (.divert r)

/-- Nothing stands in the way of a trap: a trap entry counts, no lane is at depth 255, the spill area has room, and no earlier
instruction of the chain has a trap to deliver, and no snuff diverts the gang instead (R82, R243, R244, R247). -/
def Sys2Proof.Says.trapReady (s : State) (entry : Nat) : Prop :=
  trapEntry s s.issue.gang = some entry ∧ (∀ l, issuing s l → (s.cur.lane l).depth ≠ 255) ∧ pushRoom s 7 ∧
    s.issue.pend = none ∧ s.issue.flags &&& s.cur.fptrap = 0 ∧ noDiversion s

/-- R244, R245: each lane pushed a trap frame, finds its record in `v8` to `v15` and stands at the trap entry; memory, the other gangs
and the other lanes stay. -/
def Sys2Proof.Says.trapped (s : State) (entry : Nat) (rec : Nat → TrapRec) (t : State) : Prop :=
  pushed s t (fun l => { off := (rec l).v9.toNat, shift := 7, trap := true }) (fun n => n < 16) ∧
    (∀ l, issuing s l →
      let y := t.cur.lane l
      y.pc = entry ∧ y.wait = .ready ∧ y.region = none ∧
        y.vreg 8 = (rec l).v8 ∧ y.vreg 9 = (rec l).v9 ∧ y.vreg 10 = (rec l).v10 ∧ y.vreg 11 = (rec l).v11 ∧
        y.vreg 12 = (rec l).v12 ∧ y.vreg 13 = (rec l).v13 ∧ y.vreg 14 = (rec l).v14 ∧ y.vreg 15 = (rec l).v15) ∧
    (∀ l, ¬ issuing s l → t.cur.lane l = s.cur.lane l) ∧
    memoryStays s t ∧ ∀ j, j ≠ s.issue.gang → t.gangAt j = s.gangAt j

/-- R207, R248, R249: the issuing lanes stand after the chain, without a region entry; every lane is else as in g. -/
def Sys2Proof.Says.standsAfter (s t : State) (g : Gang) : Prop :=
  (∀ l, issuing s l → t.cur.lane l = { g.lane l with region := none, spoiled := false, pc := s.issue.nextPc }) ∧
    ∀ l, ¬ issuing s l → t.cur.lane l = g.lane l

/-- R67, R76, R229, R248: with more of the chain to issue the park follows it. Else every window of the gang closes, where no flag of theirs
is enabled in FPTRAP, and the gang stands parked on its core. `u` is the package after the release that the instruction is. -/
def Sys2Proof.Says.parksWith (p : Park) (s u : State) (done : State → Prop) (r : Host.Outcome State Fault Refusal) : Prop :=
  let g := s.cur.closeAll (BitVec.allOnes 32)
  (s.issue.more = true → goes r fun t =>
    standsAfter s t s.cur ∧ t.cur = { s.cur with lanes := t.cur.lanes } ∧ othersStay s t ∧
      t = { u with gangs := t.gangs, issue := { s.issue with after := some (.park p) } }) ∧
  (s.issue.more = false → s.cur.armed s.cur.liveMask = 0 → s.cur.alive = true → goes r fun t =>
    standsAfter s t g ∧ t.cur = { g with lanes := t.cur.lanes, place := .parked s.cur.core, park := t.cur.park } ∧ othersStay s t ∧
      t.issue = { s.issue with diverted := true } ∧ done t)

/-- R194: a service record stands in the ring from offset `start` on: its size, number, flags 0, context, lanes, gang, offset and REQ, and
for the lane of each rank a block of eight words. -/
def Sys2Proof.Says.recordStands (t : State) (place : Nat → Nat) (start ctx num gang pc req : Nat) (lanes : LaneMask)
    (word : Nat → Nat → Word) : Prop :=
  let field := fun (at_ n : Nat) => natLE ((List.range n).map fun i => t.byteAt (place (start + at_ + i)))
  field 0 4 = 64 + 32 * (lanesOf lanes).length ∧ field 4 2 = num % 2 ^ 16 ∧ field 6 1 = 0 ∧ field 7 1 = ctx % 2 ^ 8 ∧
    field 8 4 = lanes.toNat ∧ field 12 4 = gang % 2 ^ 32 ∧ field 16 4 = pc % 2 ^ 32 ∧ field 20 4 = 0 ∧ field 24 8 = req % 2 ^ 64 ∧
    field 32 32 = 0 ∧ ∀ k n, k < (lanesOf lanes).length → n < 8 → field (64 + 32 * k + 4 * n) 4 = (word k n).toNat

/-- R67, R194, R248, R290: SVC parks the gang, whose lanes resume after the chain. Without room in the service ring it waits for room. With
room, in a ring that is resident ordinary memory, its record is written, with a release at system scope, the vector of the context is
sent, and the gang waits for the reply: each lane's block has its `v0` to `v7` as the chain found them, and a pad fills the ring's end
where the record does not fit before it. Nothing else changes. The ring's place is a virtual address of the context (log 33, DEDUCED), the
park comes after the rest of the chain (log 17, DEDUCED), and a pad's words beside SIZE and FLAGS are 0 (log 49, DESIGN CHOICE).
R68, R69, R249: SOFTINT sets the wake code of a queue of the gang's context and sends its vector, or sends the management vector, or
has no effect; a queue belongs to the context that its entry names (log 49, DESIGN CHOICE); it is not idempotent in its lanes. HALT stops the Lamplighter slot that issues it, and nothing of its chain follows
(log 48, DESIGN CHOICE). Nothing else changes. -/
def Obligations.ServiceCallsSignalsAndHalt : Prop :=
  (∀ (s : State) (y : BitVec 10),
    let ctx := s.ctxNum s.issue.gang
    let c := s.ctxAt ctx
    let lanes := lanesOf s.issue.lanes
    let size := 64 + 32 * lanes.length
    let pad := c.padBytes size
    let pos := c.shead % max 1 c.ringBytes
    let start := (c.shead + pad) % max 1 c.ringBytes
    let found := s.issue.src.closeAll (BitVec.allOnes 32)
    let parked : Park := .svcRoom y.toNat s.issue.lanes s.issue.pc
      (lanes.flatMap fun l => (List.range 8).map fun n => (found.lane l).vreg n)
    parksWith parked s s (fun t =>
      (c.recordFits size = false → t.cur.park = some parked ∧ t = { s with gangs := t.gangs, issue := t.issue }) ∧
        (c.recordFits size = true → ∀ place, plainRange s (s.lampNear ctx s.cur.core) c.srbase c.ringBytes place →
          t.cur.park = some (.svcReply s.issue.lanes start) ∧
            recordStands t place start ctx y.toNat s.cur.num s.issue.pc c.req s.issue.lanes
              (fun k n => (found.lane (lanes.getD k 0)).vreg n) ∧
            (∀ i, i < pad → t.byteAt (place (pos + i)) =
              if i < 4 then BitVec.ofNat 8 (pad / 256 ^ i) else if i < 6 then 0xFF else if i = 6 then 1 else
                if i = 7 then BitVec.ofNat 8 ctx else 0) ∧
            (∀ a, (∀ i, i < size → a ≠ place (start + i)) → (∀ i, i < pad → a ≠ place (pos + i)) → t.byteAt a = s.byteAt a) ∧
            t.ctxAt ctx = { c with
              shead := c.shead + pad + size, req := c.req + 1,
              records := c.records ++ (if pad = 0 then [] else [{ at_ := pos, size := pad, gang := none }]) ++
                [{ at_ := start, size := size, gang := some s.issue.gang }] } ∧
            (∀ k, k ≠ ctx → t.ctxAt k = s.ctxAt k) ∧ released 5 s t ∧ t.out = s.out ++ [.ctxVector ctx] ∧
            t = { s with gangs := t.gangs, issue := t.issue, mem := t.mem, ctxs := t.ctxs, dirty := t.dirty, pins := t.pins,
                         out := t.out })) (exec (.svc y) s)) ∧
  (∀ (s : State) (x : BitVec 7) (y : BitVec 10),
    let n := (s.scalar x).toNat
    let code : Word := BitVec.ofNat 32 y.toNat
    let q := s.queueAt n
    let mine := q.ctx = s.ctxNum s.issue.gang
    let lanesOnly := fun (t : State) => lanesSpoiled s t ∧ t.cur = { s.cur with lanes := t.cur.lanes } ∧ othersStay s t
    (n < 1024 → mine → goes (exec (.softint x y) s) fun t =>
      t.queueAt n = { q with wake := code } ∧ (∀ k, k ≠ n → t.queueAt k = s.queueAt k) ∧
        t.out = s.out ++ [.vector n q.vec (some code)] ∧ lanesOnly t ∧
        t = { s with gangs := t.gangs, queues := t.queues, out := t.out }) ∧
    (n = 0x7FF → goes (exec (.softint x y) s) fun t =>
      t.out = s.out ++ [.mgmtVector code] ∧ lanesOnly t ∧
        t = { s with gangs := t.gangs, pkg := { s.pkg with mwake := code }, out := t.out }) ∧
    ((n < 1024 ∧ ¬ mine) ∨ (1024 ≤ n ∧ n ≠ 0x7FF) → goes (exec (.softint x y) s) fun t =>
      lanesOnly t ∧ t = { s with gangs := t.gangs }) ∧
    (s.cur.lamp = true → goes (exec .halt s) fun t =>
      t.coreAt s.cur.core = { s.coreAt s.cur.core with slot := .halted } ∧ (∀ k, k ≠ s.cur.core → t.coreAt k = s.coreAt k) ∧
        t = { s with cores := t.cores, issue := { s.issue with diverted := true } }))

/-- R71: SNUFFHOLD opens a hold of at most 20,000 ns where none is open, the gang is not in wrap-up and the duration is not 0, and
else changes nothing; SNUFFREL ends a hold: a snuff that waits for it strikes as the chain ends, in the place of a trap of it (R247).
R72, R73, R74: SNUFFPC gives each issuing lane where its diversion found it, or its depth, and all ones outside wrap-up; VALID changes
the launch's validity word by its mode; REGION makes its packet, with the window as it stands, the lanes' region entry. -/
def Obligations.SnuffAndDeadlineResults : Prop :=
  (∀ (s : State) (x : BitVec 7),
    let n := min 20000 (s.scalar x).toNat
    let isOver := fun (h : Hold) => h.pending = none ∧ h.til ≤ s.now
    (s.cur.wrap = false → n ≠ 0 → (s.cur.hold = none ∨ ∃ h, s.cur.hold = some h ∧ isOver h) → goes (exec (.snuffhold x) s) fun t =>
      t.cur = { s.cur with hold := some { til := s.now + n, pending := none } } ∧ onlyGang s t) ∧
    ((s.cur.wrap = true ∨ n = 0 ∨ ∃ h, s.cur.hold = some h ∧ ¬ isOver h) → exec (.snuffhold x) s = .next s) ∧
    (s.cur.hold = none → exec .snuffrel s = .next s) ∧
    (∀ h, s.cur.hold = some h → h.pending = none → goes (exec .snuffrel s) fun t =>
      t.cur = { s.cur with hold := none } ∧ onlyGang s t) ∧
    (∀ h r, s.cur.hold = some h → h.pending = some r → goes (exec .snuffrel s) fun t =>
      t = { s with issue := { s.issue with after := some (.divert r) } }) ∧
    (∀ h r, s.cur.hold = some h → h.pending = some r → s.issue.after = some (.divert r) → s.issue.closing = none →
      s.cur.wrap = false → s.cur.alive = true → s.cur.delaysSnuff = false →
        let t := s.afterChain
        (s.cur.retries = [] → t.cur.wrap = true ∧ t.cur.hold = none ∧
          ∀ l, l < 32 → (s.cur.lane l).live = true → (t.cur.lane l).pc = (s.launchAt s.cur.launch).pkt.snuffe) ∧
        (s.cur.retries ≠ [] → s.trapLeft = false →
          t.cur = { s.cur with hold := none, marked := some (r, true) } ∧ (∀ p ∈ t.pins, p.line ∉ s.cur.retries) ∧ memoryStays s t))) ∧
  (∀ (s : State) (x : BitVec 7) (y : BitVec 10),
    let l := s.launchAt s.cur.launch
    let w := s.scalar x
    let words := fun (v : DWord) (partly : Bool) (t : State) =>
      (t.launchAt s.cur.launch).valid = v ∧ (t.launchAt s.cur.launch).isPartial = (l.isPartial || partly) ∧
        (∀ k, k ≠ s.cur.launch → t.launchAt k = s.launchAt k) ∧ lanesSpoiled s t ∧ t.cur = { s.cur with lanes := t.cur.lanes } ∧
        othersStay s t ∧ t = { s with gangs := t.gangs, launches := t.launches }
    goes (exec (.snuffpc x y) s) (fun t =>
      (∀ n, issuing s n → vreg s t n x.toNat = if s.issue.src.wrap = false then 0xFFFFFFFF else
          if y = 0 then (s.srcLane n).snuffPc else (s.srcLane n).snuffDepth) ∧
        (∀ n m, m ≠ x.toNat ∨ ¬ issuing s n → vreg s t n m = vreg s s n m) ∧ onlyGang s t) ∧
    goes (exec (.valid x 0) s) (words (l.valid ||| (0 : Word) ++ w) false) ∧
    goes (exec (.valid x 1) s) (words (l.valid ||| w ++ (0 : Word)) false) ∧
    goes (exec (.valid x 2) s) (words (l.valid &&& ~~~((0 : Word) ++ w)) false) ∧
    goes (exec (.valid x 3) s) (words (l.valid &&& ~~~(w ++ (0 : Word))) false) ∧
    goes (exec (.valid x 4) s) (words (l.valid ||| (0 : Word) ++ w) true) ∧
    goes (exec (.valid x 5) s) (words (l.valid ||| w ++ (0 : Word)) true) ∧
    goes (exec (.valid x 6) s) (words (l.valid &&& ~~~((0 : Word) ++ w)) true) ∧
    goes (exec (.valid x 7) s) (words (l.valid &&& ~~~(w ++ (0 : Word))) true) ∧
    (s.issue.word.toNat % 2 ^ 17 < (s.codeOf s.cur).regions.length → goes (exec .region s) fun t =>
      (∀ n, issuing s n → t.cur.lane n =
          { s.cur.lane n with region := some (s.issue.pc / 12), spoiled := false, regionBase := (s.cur.lane n).wbase }) ∧
        (∀ n, ¬ issuing s n → t.cur.lane n = s.cur.lane n) ∧ t.cur = { s.cur with lanes := t.cur.lanes } ∧ onlyGang s t))

/-- R75, R183, R353, R356: FAN numbers its gangs from the launch's next number on, gives `s`x the first, and creates them at the entry with
the role: fresh gangs with the launch's argument in `s0` and `s1`, or, in a launch that is in wrap-up, gangs that begin at the snuff
entry. It gives 0xFFFFFFFF in wrap-up or where the numbers run out, 0xFFFFFFFE for a packet that is no entry, and creates none then. It
is not idempotent in its lanes (R249). Nothing else changes. The gangs of one FAN share a placement ticket (log 26, DEDUCED).
R76, R185, R186, R249, R290: ENQ.TRY and ENQ.PARK give status 3 in wrap-up, with no release (log 24, DEDUCED). Else they release at package scope, and give 1 for a queue
that is not open to the context. With room, in a ring that is resident ordinary memory, they write the image at the write index, VALID
set and the deadline no later than the launch's, and give 0; the packet counts in the launch and its intake is posted. Without
room ENQ.TRY gives 2 and ENQ.PARK parks with the image. The translations of the image read enter the caches (R284). Nothing else changes. -/
def Obligations.FanAndEnqueueResults : Prop :=
  (∀ (s : State) (x : BitVec 7) (y : BitVec 2),
    let n := x.toNat
    let launch := s.cur.launch
    let l := s.launchAt launch
    let count := (s.issue.src.sreg n).toNat
    let entry := (s.issue.src.sreg (n + 1)).toNat
    let mine := fun (v : Word) (t : State) =>
      t.cur.sreg n = v ∧ (∀ m, m ≠ n → t.cur.sreg m = s.cur.sreg m) ∧ lanesSpoiled s t ∧
        t.cur = { s.cur with lanes := t.cur.lanes, sregs := t.cur.sregs }
    let only := fun (v : Word) => goes (exec (.fan x y) s) fun t => mine v t ∧ othersStay s t ∧ t = { s with gangs := t.gangs }
    let bad := s.cur.wrap = true ∨ 65535 < count ∨ 16777215 < l.nextGang + count
    (bad → only 0xFFFFFFFF) ∧ (¬ bad → entry ∉ l.code.entries → only 0xFFFFFFFE) ∧
    (¬ bad → entry ∈ l.code.entries → count = 0 → only (BitVec.ofNat 32 l.nextGang)) ∧
    (¬ bad → entry ∈ l.code.entries → count ≠ 0 →
      (∀ i, i < count → gangKey launch (l.nextGang + i) ≠ s.issue.gang) →
      goes (exec (.fan x y) s) fun t =>
        mine (BitVec.ofNat 32 l.nextGang) t ∧
          t.launchAt launch =
            { l with nextGang := l.nextGang + count, spawn := l.spawn + count, groups := (t.launchAt launch).groups } ∧
          (∀ k, k ≠ launch → t.launchAt k = s.launchAt k) ∧
          (∀ k, k ≠ s.issue.gang → (∀ i, i < count → k ≠ gangKey launch (l.nextGang + i)) → t.gangAt k = s.gangAt k) ∧
          (∀ i, i < count →
            let g := t.gangAt (gangKey launch (l.nextGang + i))
            g.num = l.nextGang + i ∧ g.launch = launch ∧ g.place = .unplaced ∧ g.role = y.toNat ∧ g.dstack = l.stackDepth y.toNat ∧
              g.scratchSize = l.code.scratch ∧ g.pair 0 = l.pkt.karg ∧
              (l.wrap = none → g.wrap = false ∧ (∀ m, 2 ≤ m → g.sreg m = 0) ∧
                ∀ m, m < 32 → g.lane m = { Lane.vacant with live := true, pc := 12 * entry }) ∧
              ∀ r, l.wrap = some r → g.wrap = true ∧ g.sreg 95 = BitVec.ofNat 32 (7 * 2 ^ 8 + r % 2 ^ 8) ∧
                (∀ m, 2 ≤ m → m ≠ 95 → g.sreg m = 0) ∧
                ∀ m, m < 32 → g.lane m = { Lane.vacant with live := true, pc := l.pkt.snuffe, snuffPc := BitVec.ofNat 32 (12 * entry),
                                                            snuffDepth := 0 }) ∧
          (∃ k ∈ (t.dieAt l.die).tickets, k.job = .placement (gangKey launch l.nextGang) count) ∧
          memoryStays s t ∧ t.queues = s.queues ∧ t.ctxs = s.ctxs ∧
          (l.wrap = none → t = { s with gangs := t.gangs, launches := t.launches, dies := t.dies, nextBorn := t.nextBorn }))) ∧
  (∀ (s : State) (x : BitVec 7) (y : BitVec 10),
    let n := x.toNat
    let key := s.issue.gang
    let launch := s.cur.launch
    let l := s.launchAt launch
    let q := s.queueAt y.toNat
    let va := s.issue.src.pair n
    let mine := fun (v : Word) (t : State) =>
      t.cur.sreg n = v ∧ (∀ m, m ≠ n → t.cur.sreg m = s.cur.sreg m) ∧ lanesSpoiled s t ∧
        t.cur = { s.cur with lanes := t.cur.lanes, sregs := t.cur.sregs } ∧ othersStay s t
    let gives := fun (v : Word) (tlb : List TlbEntry) (r : Host.Outcome State Fault Refusal) => goes r fun t =>
      mine v t ∧ released 4 s t ∧ t = { s with gangs := t.gangs, dirty := t.dirty, pins := t.pins, tlb := tlb }
    let noted := (s.noteRange (s.agentOf key) va 64).tlb
    ∀ i : Instr, (i = .enqTry x y ∨ i = .enqPark x y) →
    (s.cur.wrap = true → goes (exec i s) fun t => mine 3 t ∧ t = { s with gangs := t.gangs }) ∧
    (s.cur.wrap = false → va.toNat % 64 = 0 → q.openTo (s.ctxNum key) = false → gives 1 s.tlb (exec i s)) ∧
    (∀ bs, s.cur.wrap = false → va.toNat % 64 = 0 → q.openTo (s.ctxNum key) = true →
      readRange s (s.agentOf key) va 64 = .ok bs → bs.length = 64 →
      let own := natLE ((bs.drop 24).take 8)
      let deadline := if l.pkt.deadline ≠ 0 ∧ (own = 0 ∨ l.pkt.deadline < own) then l.pkt.deadline else own
      let byte := fun i : Nat =>
        if i = 0 then bs.getD 0 0 ||| 1 else if 24 ≤ i ∧ i < 32 then BitVec.ofNat 8 (deadline / 256 ^ (i - 24)) else bs.getD i 0
      (s.enqRoom y.toNat = true → ∀ place,
        plainRange { s with tlb := noted } (s.slotAgent q key) (q.ring + BitVec.ofNat 64 (64 * (q.widx % 2 ^ q.slots))) 64 place →
        goes (exec i s) fun t =>
          mine 0 t ∧ released 4 s t ∧
            (∀ k, k < 64 → t.byteAt (place k) = byte k) ∧ (∀ a, (∀ k, k < 64 → a ≠ place k) → t.byteAt a = s.byteAt a) ∧
            t.queueAt y.toNat =
              { q with widx := q.widx + 1, enqueued := q.enqueued ++ [{ index := q.widx, parent := launch }] } ∧
            (∀ k, k ≠ y.toNat → t.queueAt k = s.queueAt k) ∧
            t.launchAt launch = { l with spawn := l.spawn + 1 } ∧ (∀ k, k ≠ launch → t.launchAt k = s.launchAt k) ∧
            (∃ k ∈ (t.dieAt q.home).tickets, k.job = .intake y.toNat) ∧
            t = { s with gangs := t.gangs, dirty := t.dirty, pins := t.pins, mem := t.mem, queues := t.queues,
                         launches := t.launches, dies := t.dies, tlb := noted }) ∧
      (s.enqRoom y.toNat = false →
        (i = .enqTry x y → gives 2 noted (exec i s)) ∧
        (i = .enqPark x y → ∃ image, image.length = 64 ∧ (∀ k, k < 64 → image.getD k 0 = byte k) ∧
          parksWith (.enq n y.toNat image) s (({ s with tlb := noted } : State).releaseAll key 4) (fun t =>
            t.cur.park = some (.enq n y.toNat image) ∧ released 4 s t ∧
              t = { s with gangs := t.gangs, issue := t.issue, dirty := t.dirty, pins := t.pins, tlb := noted }) (exec i s)))))

/-- R25: a prefix word gives the next instruction its guard, sense, rounding, fourth operand, zeroing and auxiliary bits, at the places
of R15. -/
def Obligations.PrefixFields : Prop :=
  ∀ (s : State), goes (exec .pfx s) fun t =>
    t = { s with issue := { s.issue with pfx :=
      { g := s.issue.word.extractLsb' 20 7, gn := s.issue.word.extractLsb' 19 1, rm := s.issue.word.extractLsb' 16 3,
        o := s.issue.word.extractLsb' 9 7, z := s.issue.word.extractLsb' 8 1, x := s.issue.word.extractLsb' 0 8 } } }

/-- R66, R244, R245: TRAP and BKPT take the trap with their code, TRAP resuming after the chain (at once where it ends the chain) and
BKPT at itself; both are delivered at the instruction, and what follows in the chain is dropped (log 17, DEDUCED).
R54, R246: RET from a trap frame sends each issuing lane to where the offset in its `v9` leads, as the chain found it, with the frame
and its window gone; it counts for the lane's yield counter and the lane has no region entry any more. The sets homed at the depths left
lose these lanes as at a call's return. -/
def Obligations.TrapEntryAndReturn : Prop :=
  (∀ (s : State) (y : BitVec 10) (entry : Nat), trapReady s entry →
    (s.issue.more = false →
      goes (exec (.trap y) s) (trapped s entry fun _ => TrapRec.of (9 + y.toNat * 2 ^ 16) s.issue.nextPc s.issue.pc)) ∧
    (s.issue.more = true →
      goes (exec (.trap y) s) fun t =>
        t.issue.pend = some { code := 9, pc := s.issue.pc, y := y.toNat, v11 := 0, v12 := 0 } ∧
          t = { s with issue := t.issue }) ∧
    goes (exec (.bkpt y) s) (trapped s entry fun _ => TrapRec.of (10 + y.toNat * 2 ^ 16) s.issue.pc s.issue.pc)) ∧
  (∀ (s : State), noWindows s →
    let v9 := fun l => ((s.srcLane l).vreg 9).toNat
    let leads := fun l off => ∃ ws, fetchPacket s s.issue.gang (v9 l / 12) = .ok ws ∧ trapResume (s.codeOf s.cur).n ws (v9 l) = some off
    (∀ l, issuing s l → (s.srcLane l).links = (s.cur.lane l).links ∧ (s.cur.lane l).depth ≠ 0 ∧
      (∃ e es, (s.cur.lane l).links = e :: es ∧ e.trap = true) ∧ ∃ off, leads l off) →
    goes (exec .ret s) fun t =>
      (∀ l off, issuing s l → leads l off →
        let x := s.cur.lane l
        let y := t.cur.lane l
        y.resumePc = off ∧ y.depth = x.depth - 1 ∧ y.links = x.links.drop 1 ∧ y.region = none ∧
          y.cnt = min 16 (x.cnt + 1) ∧ ∀ e es, x.links = e :: es → y.wbase = x.wbase - 8 * e.shift) ∧
        homeLeft s t ∧ memoryStays s t ∧ ∀ j, j ≠ s.issue.gang → t.gangAt j = s.gangAt j)

/-! ### Floating point (R82, R88 to R91, R226) -/

/-- R82, R88: the rounding arithmetic of class 5 writes the exact result rounded once, by the rm field or to nearest even, on FP32 or on
each half, and raises its flags; FMA and FDOT2 add the operand o or, without one, the old destination. An inline addend of FDOT2 is the 32-bit value of R19 (log 47, DESIGN CHOICE); the
sign of a zero sum of zeros is the model's reading (log 22, DEDUCED). -/
def Obligations.FloatArithmeticResults : Prop :=
  ∀ (s : State) (d : BitVec 6) (a b : BitVec 7) (h : BitVec 1),
    let R := if s.issue.pfx.rm = 0 then 1 else s.issue.pfx.rm.toNat
    let A := fun l => s.vectorFp h l a
    let B := fun l => s.vectorFp h l b
    let o := s.issue.pfx.o
    let C := fun l => if o = 0 then (s.srcLane l).vreg d.toNat else s.vectorFp h l o
    let C32 := fun l => if o = 0 then (s.srcLane l).vreg d.toNat else s.vector l o
    let t := s.halfFormat
    let X := fun l => s.vectorFp 1 l a
    let Y := fun l => s.vectorFp 1 l b
    let gives := flaggedTo s d.toNat
    gives (fun l => s.elements h (fun f x y _ => f.sum R [f.value x, f.value y]) (A l) (B l) 0) (exec (.fadd d a b h) s) ∧
    gives (fun l => s.elements h (fun f x y _ => f.sum R [f.value x, (f.value y).negate]) (A l) (B l) 0)
      (exec (.fsub d a b h) s) ∧
    gives (fun l => s.elements h (fun f x y _ => f.mul R (f.value x) (f.value y)) (A l) (B l) 0) (exec (.fmul d a b h) s) ∧
    gives (fun l => s.elements h (fun f x y z => f.fused R [(f.value x, f.value y)] (f.value z)) (A l) (B l) (C l))
      (exec (.fma d a b h) s) ∧
    gives (fun l =>
        let r := fp32.fused R
          [(t.value ((X l).toNat % 2 ^ 16), t.value ((Y l).toNat % 2 ^ 16)),
            (t.value ((X l).toNat / 2 ^ 16), t.value ((Y l).toNat / 2 ^ 16))] (fp32.value (C32 l).toNat)
        (BitVec.ofNat 32 r.1, r.2)) (exec (.fdot2 d a b) s) ∧
    (h = 0 → gives (fun l =>
        let r := fp32.scale R (A l).toNat (max (-400) (min 400 (s.vector l b).toInt))
        (BitVec.ofNat 32 r.1, r.2)) (exec (.fscale d a b h) s)) ∧
    (h = 1 → gives (fun l =>
        let N := s.vectorInt 1 l b
        let r0 := t.scale R ((A l).toNat % 2 ^ 16) (N.extractLsb' 0 16).toInt
        let r1 := t.scale R ((A l).toNat / 2 ^ 16) (N.extractLsb' 16 16).toInt
        (BitVec.ofNat 32 (r0.1 % 2 ^ 16 + r1.1 * 2 ^ 16), r0.2 ||| r1.2)) (exec (.fscale d a b h) s))

/-- R89: FMIN and FMAX give the lesser and the greater number, FABS and FNEG change sign bits only, FCLASS writes its mask, and the FP32
compares write a predicate: a NaN makes EQ, LT and LE 0 and UN 1. -/
def Obligations.FloatCompareAndSignResults : Prop :=
  ∀ (s : State) (d : BitVec 6) (a b : BitVec 7) (h : BitVec 1),
    let A := fun l => s.vectorFp h l a
    let B := fun l => s.vectorFp h l b
    let x := fun l => fp32.value (s.vector l a).toNat
    let y := fun l => fp32.value (s.vector l b).toNat
    let nan := fun l => (x l).isNan || (y l).isNan
    let anyNan : Nat → BitVec 5 := fun l => if nan l then 1 else 0
    let snan : Nat → BitVec 5 := fun l => if (x l).isSignalling || (y l).isSignalling then 1 else 0
    let gives := flaggedTo s d.toNat
    let cmp := flaggedPredTo s (2 * d.toNat + h.toNat)
    gives (fun l => s.elements h (fun f p q _ => f.minMax false p q) (A l) (B l) 0) (exec (.fmin d a b h) s) ∧
    gives (fun l => s.elements h (fun f p q _ => f.minMax true p q) (A l) (B l) 0) (exec (.fmax d a b h) s) ∧
    gives (fun l => (A l &&& (if h = 1 then 0x7FFF7FFF else 0x7FFFFFFF), 0)) (exec (.fabs d a h) s) ∧
    gives (fun l => (A l ^^^ (if h = 1 then 0x80008000 else 0x80000000), 0)) (exec (.fneg d a h) s) ∧
    gives (fun l => s.elements h (fun f p _ _ => (f.classMask p, 0)) (A l) 0 0) (exec (.fclass d a h) s) ∧
    cmp (fun l => (!nan l && !(x l).lt (y l) && !(y l).lt (x l), snan l)) (exec (.fcmpeq d a b h) s) ∧
    cmp (fun l => ((x l).lt (y l), anyNan l)) (exec (.fcmplt d a b h) s) ∧
    cmp (fun l => (!nan l && !(y l).lt (x l), anyNan l)) (exec (.fcmple d a b h) s) ∧
    cmp (fun l => (nan l, snan l)) (exec (.fcmpun d a b h) s)

/-- R90, R91: FCVT converts the element of A that auxiliary bits 1:0 name into the element of D that bits 3:2 name, FCVTI and ICVTF
convert between FP32 and integers, FRND rounds to an integral value. The flags of infinities, signalling NaNs and inexact conversions are the
model's readings (log 22, DEDUCED). -/
def Obligations.FloatConversionResults : Prop :=
  ∀ (s : State) (d : BitVec 6) (a b : BitVec 7) (h : BitVec 1),
    let rm := s.issue.pfx.rm
    let R := if rm = 0 then 1 else rm.toNat
    let Z := if rm = 0 then 2 else rm.toNat
    let x := s.issue.pfx.x
    let ieee := x.getLsbD 4
    let from' := cvtFormat ieee (b.toNat % 8)
    let into := cvtFormat ieee (b.toNat / 16)
    let sw := cvtWidth (b.toNat % 8)
    let dw := cvtWidth (b.toNat / 16)
    let A := fun l => (s.vector l a).toNat
    let r := fun l => convert from' into R (b.getLsbD 3) (A l / 2 ^ (sw * (x.toNat % 4)) % 2 ^ sw)
    let toInt := fun lo hi l => let v := toInteger Z lo hi (s.vector l a); (BitVec.ofInt 32 v.1, v.2)
    let ofInt := fun (v : Int) => let r := fp32.round R false (decide (v < 0)) v.natAbs 0; (BitVec.ofNat 32 r.1, r.2)
    let gives := flaggedTo s d.toNat
    (dw = 32 → gives (fun l => (BitVec.ofNat 32 (r l).1, (r l).2)) (exec (.fcvt d a b) s)) ∧
    (dw ≠ 32 → flaggedElementTo s d.toNat
      (fun l => (insertElement dw (x.toNat / 4 % 4) ((s.srcLane l).vreg d.toNat) (r l).1, (r l).2))
      (fun l => insertElement dw (x.toNat / 4 % 4) ((s.srcLane l).vreg d.toNat) 0) (exec (.fcvt d a b) s)) ∧
    gives (toInt (-(2 ^ 31)) (2 ^ 31 - 1)) (exec (.fcvti d a 0) s) ∧ gives (toInt 0 (2 ^ 32 - 1)) (exec (.fcvti d a 1) s) ∧
    gives (toInt (-128) 127) (exec (.fcvti d a 2) s) ∧
    gives (fun l => ofInt (s.vector l a).toInt) (exec (.icvtf d a 0) s) ∧ gives (fun l => ofInt (A l)) (exec (.icvtf d a 1) s) ∧
    gives (fun l => s.elements h (fun f p _ _ => f.integral R p) (s.vectorFp h l a) 0 0) (exec (.frnd d a h) s)

/-- R92 to R95: FMXUP and FMXPK read and write element k at its scale; FMXSCL, FMXMUL and FMXADD issue once every live lane has reached
them, and write the scale bytes by FMXSCL's rule. FMXSCL raises no flag, nor does an infinity that FMXPK saturates (log 47, DESIGN CHOICE); the
flags of a NaN block are the model's reading (log 22, DEDUCED). -/
def Obligations.MxBlockResults : Prop :=
  ∀ (s : State) (d : BitVec 6) (a b : BitVec 7) (h : BitVec 1),
    let x := s.issue.pfx.x
    let ty := x.toNat % 8
    let n := x.toNat / 8 % 16
    let R := if s.issue.pfx.rm = 0 then 1 else s.issue.pfx.rm.toNat
    let k := b.toNat
    let f32 := fun l => fp32.value (s.vector l a).toNat
    let all := s.issue.lanes = s.issue.src.liveMask
    let block := fun (op : Sys2Proof.Machine.Num → Sys2Proof.Machine.Num → Sys2Proof.Machine.Num) (r : Host.Outcome State Fault Refusal) =>
      let ps := (List.range (mxPositions x)).map fun k => (k, s.mxPosition op a b k)
      let value := fun l => ps.foldl (fun (w : Word × BitVec 5) p =>
        (mxInsert ty p.1 w.1 (p.2.2 l).1, w.2 ||| (p.2.2 l).2)) ((s.srcLane l).vreg d.toNat, 0)
      goes r fun t =>
        vectorPart s t d.toNat (fun l => (value l).1) ∧ raises s t (fun l => (value l).2) ∧
          (∀ j, j < mxPositions x → t.cur.scale (n + 2) j = (s.mxPosition op a b j).1) ∧
          ∀ q, q ≠ n + 2 → t.cur.qreg q = s.cur.qreg q
    flaggedTo s d.toNat (fun l =>
      let e := scaled (s.issue.src.scale n k) ((mxFormat ty).value (mxElement ty k (s.vector l a)))
      let r := fp32.encode R e
      (if r.2.getLsbD 2 then (if e.isNeg then 0xFF800000 else 0x7F800000) else BitVec.ofNat 32 r.1, r.2)) (exec (.fmxup d a b) s) ∧
    flaggedElementTo s d.toNat (fun l =>
      let r := mxPack ty R (s.issue.src.scale n k) (f32 l)
      (mxInsert ty k ((s.srcLane l).vreg d.toNat) r.1, r.2)) (fun l => mxInsert ty k ((s.srcLane l).vreg d.toNat) 0)
      (exec (.fmxpk d a b) s) ∧
    (all → k < 8 → goes (exec (.fmxscl a b h) s) fun t =>
      t.cur.scale n k = mxScale ty (s.active.map f32) ∧ (∀ j, j < 8 → j ≠ k → t.cur.scale n j = s.cur.scale n j) ∧
        (∀ q, q ≠ n → t.cur.qreg q = s.cur.qreg q) ∧ t.cur = { s.cur with qregs := t.cur.qregs } ∧ onlyGang s t) ∧
    (all → block mulExact (exec (.fmxmul d a b h) s)) ∧
    (all → block (fun p q => (sumExact R [p, q]).1) (exec (.fmxadd d a b h) s))

/-- A value that is a number. -/
def Sys2Proof.Says.finite (x : Machine.Num) : Prop := ∃ n m e, x = .fin n m e

/-- The encoding that a value of an operation becomes: NaN and infinity as the format writes them, a number rounded once. -/
def Sys2Proof.Says.encodes (f : Format) (mode : Nat) (x : Machine.Num) (bits : Nat) : Prop :=
  ∀ n m e, (x = .nan n → bits = f.nanCode) ∧ (x = .inf n → bits = (if n then f.signBit else 0) + f.infCode) ∧
    (x = .fin n m e → bits = (f.round mode false n m e).1)

/-- R226: a magnitude between two neighbours goes to the one that its rounding mode names: toward zero the lower, up and down by its
sign, to nearest the nearer, a tie to the even one or away from zero; inexact says whether it was between them.
R222, R226: rounding the value of any finite encoding of any format gives that encoding back, without a flag, in every mode.
R88, R90, R91, R93, R226, R227: products and sums are exact, with the zeros, infinities and NaNs of R88, and are encoded once; a rounded number
is the neighbour that its mode names, and overflows beyond the largest finite one; scaling, conversions and packing. The sign of a zero sum of
zeros, and the flags of conversions and NaN elements, are the model's readings (log 22, DEDUCED); an infinity that packing saturates raises
no flag (log 47, DESIGN CHOICE). -/
def Obligations.RoundingIsNearestOrDirected : Prop :=
  (∀ (mode : Nat) (neg : Bool) (mag k : Nat) (exp : Int), 0 < k →
    let r := quantize mode neg mag exp (exp + k)
    let q := r.1 * 2 ^ k
    let low := q ≤ mag ∧ mag < q + 2 ^ k
    let high := mag ≤ q ∧ q < mag + 2 ^ k
    (r.2 = true ↔ mag % 2 ^ k ≠ 0) ∧
    (mode = 2 → low) ∧
    (mode = 3 → if neg then low else high) ∧
    (mode = 4 → if neg then high else low) ∧
    (mode = 1 → 2 * q ≤ 2 * mag + 2 ^ k ∧ 2 * mag ≤ 2 * q + 2 ^ k ∧
      (2 * q = 2 * mag + 2 ^ k ∨ 2 * mag = 2 * q + 2 ^ k → r.1 % 2 = 0)) ∧
    (mode = 5 → 2 * q ≤ 2 * mag + 2 ^ k ∧ 2 * mag < 2 * q + 2 ^ k)) ∧
  (∀ f ∈ [fp32, fp16, bf16, e4m3, e4m3Ieee, e5m2, e3m2, e2m3, e2m1], ∀ (mode bits : Nat) (sat n : Bool) (m : Nat) (e : Int),
    bits < 2 * f.signBit → f.value bits = .fin n m e → f.round mode sat n m e = (bits, 0)) ∧
  ((∀ (a b : Machine.Num) (u v : Int), finite a → finite b → u ≤ a.expOf → v ≤ b.expOf →
    finite (mulExact a b) ∧ (mulExact a b).units (u + v) = a.units u * b.units v) ∧
  (∀ a b : Machine.Num, (a.isNan = true ∨ b.isNan = true → (mulExact a b).isNan = true) ∧ (zeroInf a b = true → mulExact a b = .nan false) ∧
    ∀ n, a = .inf n → b.isNan = false → b.isZero = false → mulExact a b = .inf (n != b.isNeg) ∧ mulExact b a = .inf (n != b.isNeg)) ∧
  (∀ (mode : Nat) (ts : List Machine.Num),
    let r := sumExact mode ts
    let clash := .inf true ∈ ts ∧ .inf false ∈ ts
    let nan := ∃ t ∈ ts, t.isNan = true
    (∀ u : Int, (∀ t ∈ ts, finite t ∧ u ≤ t.expOf) → u ≤ 0 → finite r.1 ∧ r.2 = 0 ∧ r.1.units u = (ts.map fun t => t.units u).sum ∧
      ((ts.map fun t => t.units u).sum = 0 → r.1.isNeg = ((ts.all fun t => t.isZero && t.isNeg) ||
        (!(ts.all fun t => t.isZero && !t.isNeg) && mode == 4)))) ∧
    (clash ∨ nan → r.1 = .nan false) ∧ (¬ clash → ¬ nan → ∀ n, .inf n ∈ ts → r.1 = .inf n) ∧
    (clash ∨ .nan true ∈ ts → r.2 = flagInvalid) ∧ (¬ clash → .nan true ∉ ts → r.2 = 0)) ∧
  (∀ (f : Format) (mode : Nat) (ts : List Machine.Num) (ps : List (Machine.Num × Machine.Num)) (a b c : Machine.Num),
    let terms := ps.map (fun p => mulExact p.1 p.2) ++ [c]
    encodes f mode (sumExact mode ts).1 (f.sum mode ts).1 ∧ encodes f mode (mulExact a b) (f.mul mode a b).1 ∧
      encodes f mode (sumExact mode terms).1 (f.fused mode ps c).1 ∧
      (∀ n m e, (∀ t ∈ ts, finite t) → (sumExact mode ts).1 = .fin n m e → f.sum mode ts = f.round mode false n m e) ∧
      (∀ n m e, mulExact a b = .fin n m e → f.mul mode a b = f.round mode false n m e) ∧
      (∀ n m e, (∀ t ∈ terms, finite t) → (sumExact mode terms).1 = .fin n m e → f.fused mode ps c = f.round mode false n m e) ∧
      (zeroInf a b = true ∨ a.isSignalling = true ∨ b.isSignalling = true → (f.mul mode a b).2.getLsbD 0 = true) ∧
      ((∃ p ∈ ps, zeroInf p.1 p.2 = true) → (f.fused mode ps c).2.getLsbD 0 = true)) ∧
  (∀ f ∈ [fp32, fp16, bf16, e4m3, e4m3Ieee, e5m2, e3m2, e2m3, e2m1], ∀ (mode mag : Nat) (sat neg : Bool) (exp k : Int), mag ≠ 0 → k ≤ f.minExp →
    let unit := max ((mag.log2 : Int) + exp - f.fbits) f.minExp
    let q := quantize mode neg mag exp unit
    let r := f.round mode sat neg mag exp
    let size : Int := q.1 * 2 ^ (unit - k).toNat
    let sign := if neg then f.signBit else 0
    let toMax := sat = true ∨ f.special = .finite ∨ mode = 2 ∨ (mode = 3 ∧ neg = true) ∨ (mode = 4 ∧ neg = false)
    (size ≤ (f.value f.maxCode).units k → (f.value r.1).units k = (if neg then -size else size) ∧ r.2.getLsbD 2 = false ∧
      (r.2.getLsbD 4 = true ↔ q.2 = true)) ∧
    ((f.value f.maxCode).units k < size → r.2 = flagOverflow ||| flagInexact ∧ (toMax → r.1 = sign + f.maxCode) ∧
      (¬ toMax → r.1 = if f.special = .ocp then f.nanCode else sign + f.infCode))) ∧
  (∀ (f g : Format) (mode bits : Nat) (i : Int) (sat n : Bool) (m : Nat) (e : Int),
    let snan := fun q : Bool => if q then flagInvalid else 0
    (f.value bits = .nan n → f.scale mode bits i = (f.nanCode, snan n) ∧ convert f g mode sat bits = (g.nanCode, snan n)) ∧
    (f.value bits = .inf n → f.scale mode bits i = (bits, 0) ∧ convert f g mode sat bits =
      if sat then ((if n then g.signBit else 0) + g.maxCode, 0) else if g.special = .ocp then (g.nanCode, flagInvalid)
      else ((if n then g.signBit else 0) + g.infCode, 0)) ∧
    (f.value bits = .fin n m e → convert f g mode sat bits = g.round mode sat n m e ∧
      f.scale mode bits i = if m = 0 then (bits, 0) else f.round mode false n m (e + max (-400) (min 400 i)))) ∧
  (∀ (mode : Nat) (lo hi : Int) (x : Word) (n : Bool) (m : Nat) (e : Int), lo ≤ hi →
    let q := quantize mode n m e 0
    let v : Int := if n then -q.1 else q.1
    (fp32.value x.toNat = .nan n → toInteger mode lo hi x = (0, flagInvalid)) ∧
    (fp32.value x.toNat = .inf n → toInteger mode lo hi x = (if n then lo else hi, flagInvalid)) ∧
    (fp32.value x.toNat = .fin n m e → toInteger mode lo hi x =
      if lo ≤ v ∧ v ≤ hi then (v, if q.2 then flagInexact else 0) else (max lo (min hi v), flagInvalid))) ∧
  ∀ (t mode : Nat) (s : Byte) (n : Bool) (m : Nat) (e : Int) (x : Machine.Num),
    let f := mxFormat t
    (s = 0xFF → mxPack t mode s x = (0, 0)) ∧
    (s ≠ 0xFF → mxPack t mode s (.fin n m e) = f.round mode true n m (e - (s.toNat - 127)) ∧
      mxPack t mode s (.inf n) = ((if n then f.signBit else 0) + f.maxCode, 0) ∧
      mxPack t mode s (.nan n) = (if t = 0 then 0x7F else if t = 1 then 0x7E else 0, if t < 2 then (if n then flagInvalid else 0) else flagInvalid)))

/-! ### Cross-lane instructions (R96 to R105) -/

/-- The active participants of an issuing lane, ascending: its band's issuing lanes with set 15, its band's members for a member of the
set, itself for another lane, those of them whose guard passes (R96). -/
def Sys2Proof.Says.partners (s : State) (j : BitVec 4) (l : Nat) : List Nat :=
  let member := fun m => (s.issue.src.jset j.toNat).member.getLsbD m
  let band := fun m => decide (m / s.issue.src.band = l / s.issue.src.band)
  ((List.range 32).filter fun m => s.issue.lanes.getLsbD m &&
    if j = 15 then band m else if member l then member m && band m else decide (m = l)).filter s.guardOn

/-- A class 6 instruction on set j goes: no use of the set is orphaned, and every member in the band of an issuing member issues with it,
unless a snuff has released the set in wrap-up; the band width is one that BAND sets (R51, R61, R96). -/
def Sys2Proof.Says.crossReady (s : State) (j : BitVec 4) : Prop :=
  let g := s.issue.src
  let js := g.jset j.toNat
  (∃ i, i ≤ 5 ∧ g.band = 2 ^ i) ∧
    (j = 15 ∨
      (js.freed = false ∧ (∀ l, issuing s l → js.home ≤ (g.lane l).depth) ∧
        ((g.wrap = true ∧ js.snuffed = true) ∨
          ∀ l m, issuing s l → js.member.getLsbD l = true → m < 32 → js.member.getLsbD m = true → (g.lane m).live = true →
            m / g.band = l / g.band → issuing s m)))

/-- R96, R99: the lane moves give each active lane the value of its source lane where that is an active participant of its band, else its
own. -/
def Obligations.LaneMoveResults : Prop :=
  ∀ (s : State) (d a b : BitVec 6) (j : BitVec 4), crossReady s j →
    let w := s.issue.src.band
    let wraps := s.issue.pfx.x.getLsbD 0
    let v := fun l (n : BitVec 6) => (s.srcLane l).vreg n.toNat
    let takes := fun (src : Nat → Int) => vectorTo s d.toNat fun l =>
      if 0 ≤ src l ∧ (src l).toNat / w = l / w ∧ (src l).toNat ∈ partners s j l then v (src l).toNat a else v l a
    takes (fun l => ((l / w * w + (if wraps then l % w + (v l b).toNat else (v l b).toNat) % w : Nat) : Int))
      (exec (.xpull d a b j) s) ∧
    takes (fun l => if wraps then ((l / w * w : Nat) : Int) + (((l % w : Nat) : Int) - b.toNat) % w else (l : Int) - b.toNat)
      (exec (.xback d a b j) s) ∧
    takes (fun l => ((if wraps then l / w * w + (l % w + b.toNat) % w else l + b.toNat : Nat) : Int)) (exec (.xfwd d a b j) s) ∧
    takes (fun l => ((l / w * w + (l % w ^^^ b.toNat) : Nat) : Int)) (exec (.xflip d a b j) s)

/-- R100: the gathers give the or, the and and the mask of a predicate over the active participants, and whether, and which, lanes hold
the same value. -/
def Obligations.GatherResults : Prop :=
  ∀ (s : State) (d a : BitVec 6) (j : BitVec 4), crossReady s j →
    let A := partners s j
    let P := fun m => (s.srcLane m).pred a.toNat
    let v := fun m => (s.srcLane m).vreg a.toNat
    let place := fun m => if s.issue.pfx.x.getLsbD 0 then m % s.issue.src.band else m
    let mask := fun (f : Nat → Word) (p : Nat → Nat → Prop) => ∀ l i, i < 32 →
      ((f l).getLsbD i = true ↔ ∃ m ∈ A l, p l m ∧ place m = i)
    predTo s d.toNat (fun l => (A l).any P) (exec (.pany d a j) s) ∧
    predTo s d.toNat (fun l => (A l).all P) (exec (.pall d a j) s) ∧
    predTo s d.toNat (fun l => (A l).all fun m => (A l).all fun n => v m == v n) (exec (.xsame d a j) s) ∧
    (∃ f, mask f (fun _ m => P m = true) ∧ vectorTo s d.toNat f (exec (.pmask d a j) s)) ∧
    ∃ f, mask f (fun l m => v m = v l) ∧ vectorTo s d.toNat f (exec (.xeqm d a j) s)

/-- R101: the integer reductions give every active lane the sum, the least and the greatest of the active participants' values, and
SCAN.ADD the sum of those up to its position, its own left out where the scan is exclusive.
R101: the floating-point reductions run the tree over the band's positions, with nothing at the positions of lanes that are no active
participants, and SCAN.FADD its doubling steps; each addition rounds by rm and raises its flags, and a signalling NaN of a maximum raises invalid. The union of the flags and the sign of a
zero sum are the model's readings (log 22, DEDUCED). -/
def Obligations.ReductionResults : Prop :=
  (∀ (s : State) (d a : BitVec 6) (j : BitVec 4), crossReady s j →
    let A := partners s j
    let v := fun m => (s.srcLane m).vreg a.toNat
    let unsigned := s.issue.pfx.x.getLsbD 0
    let below := fun (x y : Word) => if unsigned then x.toNat ≤ y.toNat else x.toInt ≤ y.toInt
    let before := fun l m => if s.issue.pfx.x.getLsbD 0 then decide (m < l) else decide (m ≤ l)
    vectorTo s d.toNat (fun l => ((A l).map v).foldl (· + ·) 0) (exec (.redAdd d a j) s) ∧
    (∃ f, (∀ l, A l ≠ [] → (∃ m ∈ A l, f l = v m) ∧ ∀ m ∈ A l, below (f l) (v m)) ∧
      vectorTo s d.toNat f (exec (.redMin d a j) s)) ∧
    (∃ f, (∀ l, A l ≠ [] → (∃ m ∈ A l, f l = v m) ∧ ∀ m ∈ A l, below (v m) (f l)) ∧
      vectorTo s d.toNat f (exec (.redMax d a j) s)) ∧
    vectorTo s d.toNat (fun l => (((A l).filter (before l)).map v).foldl (· + ·) 0) (exec (.scanAdd d a j) s)) ∧
  (∀ (s : State) (d a : BitVec 6) (j : BitVec 4), crossReady s j →
    let w := s.issue.src.band
    let R := if s.issue.pfx.rm = 0 then 1 else s.issue.pfx.rm.toNat
    let at' := fun (from' : Word → Word × BitVec 5) l i =>
      ((partners s j l).find? fun m => m % w == i).map fun m => from' ((s.srcLane m).vreg a.toNat)
    let plain := fun (x : Word) => (x, (0 : BitVec 5))
    let number := fun (x : Word) =>
      let v := fp32.value x.toNat
      if v.isNan then ((0x7FC00000 : Word), (if v.isSignalling then 1 else 0 : BitVec 5)) else (x, 0)
    let ts := fun l => (List.range w).map (at' plain l)
    let tree := fun from' (f : Term → Term → Term) l => let r := treeOf f none ((List.range w).map (at' from' l)); (r.word, r.flags)
    let start := fun l => if s.issue.pfx.x.getLsbD 0 then ((none : Term) :: ts l).take w else ts l
    let scan := fun l => ([1, 2, 4, 8, 16].filter fun n => n < w).foldl (fun ts n => scanStep (addTerms R) n ts) (start l)
    flaggedTo s d.toNat (tree plain (addTerms R)) (exec (.redFadd d a j) s) ∧
    flaggedTo s d.toNat (tree number maxTerms) (exec (.redFmax d a j) s) ∧
    flaggedTo s d.toNat (fun l =>
      (Term.word ((scan l).getD (l % w) none), (scan l).foldl (fun f x => f ||| x.flags) 0)) (exec (.scanFadd d a j) s))

/-- R98, R102 to R105: SORT.KV puts the pairs of the active participants in the order of their keys, ties by lane; TOPK ranks them and
sums those below rank k and the others, with the flags of these sums; an inactive issuing lane gets 0 with .z. SEARCH counts the keys below the query's; CXCH exchanges with a partner lane by the key. -/
def Obligations.SortAndSearchResults : Prop :=
  ∀ (s : State) (d a b : BitVec 6) (j : BitVec 4), crossReady s j →
    let A := partners s j
    let x := s.issue.pfx.x
    let w := s.issue.src.band
    let v := fun m (n : BitVec 6) => (s.srcLane m).vreg n.toNat
    let key := fun u => keyOf (x.toNat % 4) u
    let down := x.getLsbD 2
    let first := fun (desc : Bool) (n : BitVec 6) m m' =>
      (if desc then decide (key (v m' n) < key (v m n)) else decide (key (v m n) < key (v m' n))) ||
        (decide (key (v m n) = key (v m' n)) && decide (m < m'))
    let rank := fun l => (A l).countP fun m => first (!down) a m l
    let others := fun (t : State) (ds : List Nat) =>
      (∀ l m, m ∉ ds ∨ ¬ issuing s l ∨ ¬ activeLane s l ∧ s.issue.pfx.z = 0 → vreg s t l m = vreg s s l m) ∧
        (∀ l m, m ∈ ds → issuing s l → ¬ activeLane s l → s.issue.pfx.z = 1 → vreg s t l m = 0) ∧
        (∀ l, t.cur.lane l = { s.cur.lane l with globals := (t.cur.lane l).globals, stack := (t.cur.lane l).stack }) ∧
        memoryStays s t ∧ ∀ k, k ≠ s.issue.gang → t.gangAt k = s.gangAt k
    goes (exec (.sortKv d a j) s) (fun t =>
      (∀ l, activeLane s l → ∃ m ∈ A l,
        (A l).countP (fun n => first down d n m) = (A l).countP (fun n => decide (n < l)) ∧
          vreg s t l d.toNat = v m d ∧ vreg s t l a.toNat = v m a) ∧ others t [d.toNat, a.toNat] ∧
      t.cur = { s.cur with lanes := t.cur.lanes } ∧ onlyGang s t) ∧
    goes (exec (.topk d a b j) s) (fun t =>
      (∀ l, activeLane s l →
        vreg s t l d.toNat = BitVec.ofNat 32 (rank l) ∧
          vreg s t l (d.toNat + 1) = (s.topSum a ((A l).filter fun m => rank m < b.toNat)).1 ∧
          vreg s t l (d.toNat + 2) = (s.topSum a ((A l).filter fun m => b.toNat ≤ rank m)).1) ∧
        others t [d.toNat, d.toNat + 1, d.toNat + 2] ∧
        raises s t fun l =>
          (s.topSum a ((A l).filter fun m => rank m < b.toNat)).2 ||| (s.topSum a ((A l).filter fun m => b.toNat ≤ rank m)).2) ∧
    vectorTo s d.toNat (fun l => BitVec.ofNat 32 ((A l).countP fun m =>
      key (v m a) < key (v l b) || (x.getLsbD 3 && key (v m a) == key (v l b)))) (exec (.search d a b j) s) ∧
    vectorTo s d.toNat (fun l =>
      let q := l / w * w + (l % w ^^^ b.toNat)
      let lo := min l q
      let hi := max l q
      let swap := decide (key (v hi a) < key (v lo a))
      if q / w ≠ l / w ∨ q ∉ A l then v l a
      else if decide (l = lo) = (s.srcLane lo).pred s.issue.pfx.o.toNat then (if swap then v hi a else v lo a)
      else if swap then v lo a else v hi a) (exec (.cxch d a b j) s)

/-! ### Special functions (R26, R106, R107, R229) -/

/-- R26, R106, R229: a class 7 word gives each active lane the function of its operand, with its flags: at once where L is 0 and no trap
is enabled, else through a window that counts L instructions; with .z an inactive lane gets 0.
R106, R108: the special values: a reciprocal or a logarithm of a zero divides by zero, a root or a logarithm of a negative number is
invalid, infinities and zeros give what the rules list, and a NaN gives the canonical one. Which exact value the flags of a
function compare with is the model's choice (log 49, DESIGN CHOICE). -/
def Obligations.SpecialFunctionResults : Prop :=
  (∀ (s : State) (d : BitVec 6) (a : BitVec 7) (m : BitVec 3) (L : BitVec 4),
    let x := fun l => s.vectorBy (if m = 0 then inlineConst else inlineFp16 (m == 2)) l a
    let cubic := fun l => decide (l % 8 < s.issue.src.expmix.toNat)
    ∀ p ∈ [(0, Instr.fexp2 d a m L), (1, .flog2 d a m L), (2, .frcp d a m L), (3, .frsqrt d a m L), (4, .fsqrt d a m L),
        (5, .fsin d a m L), (6, .fcos d a m L), (7, .ftanh d a m L), (8, .fexp d a m L)],
      let r := fun l => specialWord m p.1 (p.1 == 8 && cubic l) (x l)
      (L = 0 → s.cur.fptrap = 0 → goes (exec p.2 s) fun t =>
        vectorPart s t d.toNat (fun l => (r l).1) ∧
          (∀ i, t.cur.fpflag.getLsbD i = true ↔
            s.cur.fpflag.getLsbD i = true ∨ ∃ l, activeLane s l ∧ (r l).2.getLsbD i = true) ∧
          (∀ i, t.issue.kept.getLsbD i = true ↔
            s.issue.kept.getLsbD i = true ∨ ∃ l, activeLane s l ∧ (r l).2.getLsbD i = true) ∧
          t.cur = { s.cur with lanes := t.cur.lanes, fpflag := t.cur.fpflag, windows := s.cur.windows + 1 } ∧
          t.issue = { s.issue with entered := t.issue.entered, kept := t.issue.kept } ∧ onlyGangIssue s t) ∧
      (L ≠ 0 → s.issue.diverted = false → s.issue.word.toNat / 2 ^ 27 % 16 = 7 → goes (exec p.2 s) fun t =>
        (∀ l, activeLane s l → t.cur.lane l = { s.cur.lane l with wins := (s.cur.lane l).wins ++
          [{ seq := s.cur.windows, off := s.issue.pc, base := (s.srcLane l).wbase, left := L.toNat, seven := true, vregs := [(d.toNat, (r l).1)], preds := [],
             flags := (r l).2 }] }) ∧
          (∀ l, issuing s l → ¬ activeLane s l → t.cur.lane l = { s.cur.lane l with wins := (s.cur.lane l).wins ++
            [{ seq := s.cur.windows, off := s.issue.pc, base := (s.srcLane l).wbase, left := L.toNat, seven := true,
               vregs := [(d.toNat, if s.issue.pfx.z = 1 then 0 else vreg s s l d.toNat)], preds := [], flags := 0 }] }) ∧
          (∀ l, ¬ issuing s l → t.cur.lane l = s.cur.lane l) ∧
          t.cur = { s.cur with lanes := t.cur.lanes, windows := s.cur.windows + 1 } ∧ onlyGang s t)) ∧
  (let f := fun op x => special op false x
  let inf : Word := 0x7F800000
  let ninf : Word := 0xFF800000
  let nan : Word := 0x7FC00000
  (∀ op, op < 9 → f op nan = (nan, 0) ∧ f op 0x7F800001 = (nan, 1)) ∧
  f 2 0 = (inf, 2) ∧ f 2 0x80000000 = (ninf, 2) ∧ f 3 0 = (inf, 2) ∧ f 3 0x80000000 = (ninf, 2) ∧
  f 1 0 = (ninf, 2) ∧ f 1 0x80000000 = (ninf, 2) ∧ f 1 0x3F800000 = (0, 0) ∧
  f 2 inf = (0, 0) ∧ f 2 ninf = (0x80000000, 0) ∧ f 4 0x80000000 = (0x80000000, 0) ∧ f 4 inf = (inf, 0) ∧
  (∀ x : Word, x.getLsbD 31 = true → x.toNat < 0xFF800000 → x ≠ 0x80000000 →
    f 1 x = (nan, 1) ∧ f 3 x = (nan, 1) ∧ f 4 x = (nan, 1)) ∧
  f 5 inf = (nan, 1) ∧ f 6 inf = (nan, 1) ∧ f 7 inf = (0x3F800000, 0) ∧ f 7 ninf = (0xBF800000, 0) ∧
  f 0 ninf = (0, 0) ∧ f 0 inf = (inf, 0) ∧ f 8 0 = (0x3F800000, 0) ∧ f 6 0 = (0x3F800000, 0) ∧ f 5 0x80000000 = (0x80000000, 0))

/-! ### Memory instructions (R109 to R124, R131) -/

/-- `v`(n), …, `v`(n + c - 1) of each active lane become what f gives them; an inactive issuing lane keeps its registers, or gets 0 with
.z; every other register stays, and so does the rest of each lane but its predicates. -/
def Sys2Proof.Says.loadPart (s t : State) (n c : Nat) (f : Nat → Nat → Word) : Prop :=
  (∀ l k, k < c → activeLane s l → vreg s t l (n + k) = f l k) ∧
    (∀ l k, k < c → issuing s l → ¬ activeLane s l →
      vreg s t l (n + k) = if s.issue.pfx.z = 1 then 0 else vreg s s l (n + k)) ∧
    (∀ l m, m < n ∨ n + c ≤ m ∨ ¬ issuing s l → vreg s t l m = vreg s s l m) ∧
    ∀ l, t.cur.lane l = { s.cur.lane l with globals := (t.cur.lane l).globals, stack := (t.cur.lane l).stack,
                                            preds := (t.cur.lane l).preds }

/-- The results of the lanes wait in windows that count L instructions: those of an active lane what f and b give, those of an inactive
issuing lane what it keeps, or zeros with .z; `ps` are the predicates among them (R26, R28). -/
def Sys2Proof.Says.inWindows (s t : State) (L : Nat) (n c : Nat) (f : Nat → Nat → Word) (ps : List Nat) (b : Bool) : Prop :=
  let holds := fun (l : Nat) (v : Nat → Word) (p : Nat → Bool) => ∃ w, (t.cur.lane l).wins = (s.cur.lane l).wins ++ [w] ∧ w.left = L ∧
    w.flags = 0 ∧ (w.vregs = (List.range c).map fun k => (n + k, v k)) ∧ w.preds = ps.map fun m => (m, p m)
  (∀ l, activeLane s l → holds l (f l) fun _ => b) ∧
    (∀ l, issuing s l → ¬ activeLane s l →
      holds l (fun k => if s.issue.pfx.z = 1 then 0 else vreg s s l (n + k)) (s.cur.lane l).pred) ∧
    ∀ l, ¬ issuing s l → (t.cur.lane l).wins = (s.cur.lane l).wins

/-- A vector load completes: its registers are there with L = 0, and else they wait in windows; memory, the scalar registers and the other
gangs stay. -/
def Sys2Proof.Says.loadsTo (s : State) (L : BitVec 4) (n c : Nat) (f : Nat → Nat → Word)
    (r : Host.Outcome State Fault Refusal) : Prop :=
  (L = 0 → goes r fun t => loadPart s t n c f ∧ (∀ l, (t.cur.lane l).preds = (s.cur.lane l).preds) ∧
    t.cur = { s.cur with lanes := t.cur.lanes, windows := t.cur.windows } ∧ memoryStays s t ∧
      ∀ k, k ≠ s.issue.gang → t.gangAt k = s.gangAt k) ∧
    (L ≠ 0 → s.issue.diverted = false → goes r fun t => inWindows s t L.toNat n c f [] false ∧
      (∀ l, t.cur.lane l = { s.cur.lane l with wins := (t.cur.lane l).wins }) ∧
      t.cur = { s.cur with lanes := t.cur.lanes, windows := t.cur.windows } ∧ memoryStays s t ∧
        ∀ k, k ≠ s.issue.gang → t.gangAt k = s.gangAt k)

/-- Words of loaded bytes. -/
def Sys2Proof.Says.wordAt (bs : List Byte) (k : Nat) : Word := BitVec.ofNat 32 (natLE ((bs.drop (4 * k)).take 4))

/-- R111, R114, R115, R116: a vector load whose addresses are aligned and can be read gives each active lane the bytes at its address,
extended by NARROWS below 4 bytes. -/
def Obligations.VectorLoadResults : Prop :=
  ∀ (s : State) (t x i : BitVec 6) (L : BitVec 4) (bs : Nat → List Byte),
    let ready := fun (n : Nat) => ∀ l, activeLane s l → (s.vmAddr x i n l).toNat % n = 0 ∧ (bs l).length = n ∧
      readGlobal s s.agent (s.vmAddr x i n l) n .read = .ok (bs l)
    let signed := s.issue.pfx.x.getLsbD 7
    let byte := fun l (_ : Nat) => let b := BitVec.ofNat 8 (natLE (bs l)); if signed then b.signExtend 32 else b.setWidth 32
    let half := fun l (_ : Nat) => let b := BitVec.ofNat 16 (natLE (bs l)); if signed then b.signExtend 32 else b.setWidth 32
    let words := fun l k => wordAt (bs l) k
    (ready 1 → loadsTo s L t.toNat 1 byte (exec (.vldB8 t x i L) s)) ∧
    (ready 2 → loadsTo s L t.toNat 1 half (exec (.vldB16 t x i L) s)) ∧
    (ready 4 → loadsTo s L t.toNat 1 words (exec (.vldW t x i L) s)) ∧
    (ready 8 → loadsTo s L t.toNat 2 words (exec (.vldD t x i L) s)) ∧
    (ready 16 → loadsTo s L t.toNat 4 words (exec (.vldQ t x i L) s))

/-- Where the lanes of a store put their bytes in memory, in ascending order: address and number of bytes. -/
def Sys2Proof.Says.storePlaces (s : State) (a : Agent) (addr : Nat → DWord) (data : Nat → List Byte) : List Nat → List (Nat × Nat)
  | [] => []
  | l :: ls =>
    match locate s a (addr l) (data l).length .write, writeGlobal s a (addr l) (data l) with
    | .ok (.mem pa), .ok t | .ok (.home pa), .ok t => (pa, (data l).length) :: storePlaces t a addr data ls
    | _, .ok t => storePlaces t a addr data ls
    | _, .error _ => []

/-- Byte i of what a lane stores from `v`t on: little-endian, four bytes a register (R4, R115). -/
def Sys2Proof.Says.storedByte (s : State) (t : BitVec 6) (l i : Nat) : Byte :=
  ((s.srcLane l).vreg (t.toNat + i / 4)).extractLsb' (8 * (i % 4)) 8

/-- R111, R115, R116, R277, R294: a vector store whose addresses are aligned and can be written stores each active lane's bytes, in ascending
lane order: where the lanes' accesses are ordinary ones each byte is that of the highest lane that stores it, and its line is dirty
for the gang unless the store is NT. In every case the next state is what the lanes' stores leave, no byte outside the places that they
store to changes, and no register and no flag. -/
def Obligations.VectorStoreResults : Prop :=
  ∀ (s : State) (t x i : BitVec 6),
    let stores := fun (n : Nat) (r : Host.Outcome State Fault Refusal) =>
      let addr := s.vmAddr x i n
      let data := s.vmData t n
      let nt := s.issue.pfx.x.getLsbD 5
      let agent : Agent := { s.agent with nt := nt }
      (∀ l, activeLane s l → (addr l).toNat % n = 0) →
        (∀ place : Nat → Nat, (∀ l, activeLane s l → plain s s.agent (addr l) n (place l)) →
          goes r fun u =>
            (∀ l k, activeLane s l → k < n →
              (∀ m, activeLane s m → l < m → place l + k < place m ∨ place m + n ≤ place l + k) →
              u.byteAt (place l + k) = storedByte s t l k) ∧
            (∀ a, (∀ l, activeLane s l → a < place l ∨ place l + n ≤ a) → u.byteAt a = s.byteAt a) ∧
            (nt = true → u.dirty = s.dirty) ∧
            (nt = false → ∀ d, d ∈ u.dirty ↔
              d ∈ s.dirty ∨ d.gang = s.issue.gang ∧ ∃ l, activeLane s l ∧ d.line = place l / 128) ∧
            u = { s with mem := u.mem, dirty := u.dirty }) ∧
        ∀ u, storeLanes s agent addr data s.active = .ok u →
          r = .next u ∧
            (∀ a, (∀ p ∈ storePlaces s agent addr data s.active, a < p.1 ∨ p.1 + p.2 ≤ a) → u.byteAt a = s.byteAt a) ∧
            u = { s with mem := u.mem, dirty := u.dirty, tlb := u.tlb, fab := { s.fab with held := u.fab.held } }
    stores 1 (exec (.vstB8 t x i) s) ∧ stores 2 (exec (.vstB16 t x i) s) ∧ stores 4 (exec (.vstW t x i) s) ∧
    stores 8 (exec (.vstD t x i) s) ∧ stores 16 (exec (.vstQ t x i) s)

/-- The offsets of the active lanes are aligned, inside a window and not poisoned (R110, R111, R266). -/
def Sys2Proof.Says.scratchReady (s : State) (key : Nat) (off : Nat → Nat) (n : Nat) : Prop :=
  ∀ l, activeLane s l → off l % n = 0 ∧ off l + n ≤ (s.gangAt key).scratchSize ∧ scratchPoisoned s key (off l) n = false

/-- A store of the active lanes into the window of a gang: each byte is that of the highest lane that stores it, and every other byte of
it stays. -/
def Sys2Proof.Says.scratchStores (s : State) (key : Nat) (off : Nat → Nat) (t : BitVec 6) (n : Nat) (u : State) : Prop :=
  let byte := fun (u : State) a => Table.get 0 a (u.gangAt key).scratch
  (∀ a, (∀ l, activeLane s l → a < off l ∨ off l + n ≤ a) → byte u a = byte s a) ∧
    ∀ l k, activeLane s l → k < n → (∀ m, activeLane s m → l < m → off l + k < off m ∨ off m + n ≤ off l + k) →
      byte u (off l + k) = storedByte s t l k

/-- Predicate n of each active lane becomes b, p0 excepted, and every other predicate stays. -/
def Sys2Proof.Says.statusIs (s t : State) (n : Nat) (b : Bool) : Prop :=
  (∀ l, activeLane s l → n ≠ 0 → n < 96 → (t.cur.lane l).pred n = b) ∧
    ∀ l m, m ≠ n ∨ m = 0 ∨ ¬ activeLane s l → (t.cur.lane l).pred m = (s.cur.lane l).pred m

/-- A load of one register with a status predicate completes: both are there with L = 0, and else they wait in windows; memory, the scalar
registers and the other gangs stay. -/
def Sys2Proof.Says.statusLoadsTo (s : State) (L : BitVec 4) (n o : Nat) (b : Bool) (f : Nat → Word)
    (r : Host.Outcome State Fault Refusal) : Prop :=
  (L = 0 → goes r fun t => loadPart s t n 1 (fun l _ => f l) ∧ statusIs s t o b ∧
    t.cur = { s.cur with lanes := t.cur.lanes, windows := t.cur.windows } ∧ memoryStays s t ∧ othersStay s t) ∧
  (L ≠ 0 → s.issue.diverted = false → goes r fun t =>
    inWindows s t L.toNat n 1 (fun l _ => f l) [o] b ∧ (∀ l, t.cur.lane l = { s.cur.lane l with wins := (t.cur.lane l).wins }) ∧
    t.cur = { s.cur with lanes := t.cur.lanes, windows := t.cur.windows } ∧ memoryStays s t ∧ othersStay s t)

/-- R110, R114, R116, R117, R255: loads and stores of the own scratchpad window and of a group member's, and the status predicate of the
latter: 0 where the target is there, 1 where it is not yet placed, and then nothing is read or written: a load leaves its registers, or
gives 0 with .z. A reference to a window that is off-core waits. The status keeps its bit in inactive lanes, also with .z (log 27, DEDUCED). Nothing
else changes. -/
def Obligations.ScratchpadResults : Prop :=
  ∀ (s : State) (t x i : BitVec 6) (L : BitVec 4),
    let o := s.issue.pfx.o.toNat
    let own := s.issue.gang
    let off := s.vmOff x i
    let load := fun key n l k => wordAt (s.scratchBytes key (off n l) n) k
    let stores := fun key n (r : Host.Outcome State Fault Refusal) => goes r fun u =>
      scratchStores s key (off n) t n u ∧ u.gangAt key = { s.gangAt key with scratch := (u.gangAt key).scratch } ∧
        (∀ k, k ≠ key → u.gangAt k = s.gangAt k) ∧ u = { s with gangs := u.gangs }
    let target := resolveScratch s own (s.issue.src.sreg (2 * x.toNat + 1))
    let aligned := ∀ l, activeLane s l → off 4 l % 4 = 0
    (scratchReady s own (off 4) 4 →
      loadsTo s L t.toNat 1 (load own 4) (exec (.vldsW t x i L) s) ∧ stores own 4 (exec (.vstsW t x i) s)) ∧
    (scratchReady s own (off 16) 16 →
      loadsTo s L t.toNat 4 (load own 16) (exec (.vldsQ t x i L) s) ∧ stores own 16 (exec (.vstsQ t x i) s)) ∧
    (∀ key, target = .window key → scratchReady s key (off 4) 4 →
      statusLoadsTo s L t.toNat o false (fun l => load key 4 l 0) (exec (.vldmW t x i L) s) ∧
      goes (exec (.vstmW t x i) s) fun u =>
        scratchStores s key (off 4) t 4 u ∧ statusIs s u o false ∧
          u.cur = { s.cur with lanes := u.cur.lanes, scratch := u.cur.scratch } ∧
          (∀ l, u.cur.lane l = { s.cur.lane l with preds := (u.cur.lane l).preds }) ∧
          (∀ k, k ≠ own → u.gangAt k = { s.gangAt k with scratch := (u.gangAt k).scratch }) ∧
          (∀ k, k ≠ key → (u.gangAt k).scratch = (s.gangAt k).scratch) ∧ u = { s with gangs := u.gangs }) ∧
    (target = .absent → aligned → s.active ≠ [] →
      statusLoadsTo s L t.toNat o true (fun l => if s.issue.pfx.z = 1 then 0 else vreg s s l t.toNat) (exec (.vldmW t x i L) s) ∧
      goes (exec (.vstmW t x i) s) fun u =>
        statusIs s u o true ∧ u.cur = { s.cur with lanes := u.cur.lanes } ∧
          (∀ l, u.cur.lane l = { s.cur.lane l with preds := (u.cur.lane l).preds }) ∧ othersStay s u ∧
          u = { s with gangs := u.gangs }) ∧
    (target = .offCore → aligned → s.active ≠ [] →
      let waits : State := { s with issue := { s.issue with hold := s.issue.hold ||| s.issue.lanes, holdWait := .retest } }
      exec (.vldmW t x i L) s = .next waits ∧ exec (.vstmW t x i) s = .next waits)

/-- What a scalar store or atomic of the chain's gang at pa leaves: u is the package once its bytes stand there, with their line dirty for the
gang (R277, R294), and t the package after the release that an ordered one makes (R121, R290). -/
def Sys2Proof.Says.writtenAt (s : State) (pa : Nat) (ordered : Prop) (scope : Nat) (t : State) : Prop :=
  ∃ u : State, u.issue = s.issue ∧ u.pins = s.pins ∧ (∃ d ∈ u.dirty, d.gang = s.issue.gang ∧ d.line = pa / 128) ∧
    (∀ d, d ∈ u.dirty → d ∈ s.dirty ∨ d.gang = s.issue.gang ∧ d.line = pa / 128) ∧ (∀ d ∈ s.dirty, d ∈ u.dirty) ∧
    (ordered → released scope u t) ∧ (¬ ordered → t.dirty = u.dirty ∧ t.pins = u.pins)

/-- Scalar results of the chain's gang: there at once with L = 0, and else in a window of the gang that counts L instructions (R26, R121). -/
def Sys2Proof.Says.scalarsTo (s t : State) (L : Nat) (vs : List (Nat × Word)) : Prop :=
  (L = 0 → (∀ v ∈ vs, t.cur.sreg v.1 = v.2) ∧ (∀ m, (∀ v ∈ vs, m ≠ v.1) → t.cur.sreg m = s.cur.sreg m) ∧ t.cur.swins = s.cur.swins) ∧
    (L ≠ 0 → s.issue.diverted = false → (∀ m, t.cur.sreg m = s.cur.sreg m) ∧
      t.cur.swins = s.cur.swins ++ [{ seq := s.cur.windows, left := L, sregs := vs, lanes := s.issue.lanes }])

/-- R118, R119: VATOM gives each active lane the old word at its address and stores what the operation makes of it, lane after lane in
ascending order; with one active lane exactly the four bytes there change. With L = 0 the old words are there, and else they wait in
windows; every issuing lane is no longer restartable (R249), and the ordered form releases at its scope (R290). VPREF changes nothing. -/
def Obligations.VectorAtomicResults : Prop :=
  ∀ (s : State) (t x i : BitVec 6) (L : BitVec 4),
    let op := s.issue.pfx.x.toNat % 16
    let addr := fun l => s.issue.src.pair (2 * x.toNat) + BitVec.ofNat 64 ((s.srcLane l).vreg i.toNat).toNat
    let a := fun l => (s.srcLane l).vreg t.toNat
    let b := fun l => (s.srcLane l).vreg (t.toNat + 1)
    (∀ rs u, (∀ l, activeLane s l → (addr l).toNat % 4 = 0) →
      atomicLanes s op addr (fun l => (a l).setWidth 64) (fun l => (b l).setWidth 64) s.active = .ok (rs, u) →
      (∀ r ∈ rs, r.2.length = 4) → goes (exec (.vatom t x i L) s) fun v =>
        let old := fun l => BitVec.ofNat 32 (natLE (bytesOf rs l))
        (L = 0 → ∀ l, activeLane s l → vreg s v l t.toNat = old l) ∧
          (L ≠ 0 → s.issue.diverted = false → inWindows s v L.toNat t.toNat 1 (fun l _ => old l) [] false ∧
            ∀ l m, vreg s v l m = vreg s s l m) ∧
          (∀ l, issuing s l → (v.cur.lane l).spoiled = true) ∧ (∀ m, v.cur.sreg m = s.cur.sreg m) ∧
          (s.issue.pfx.x.getLsbD 7 = true → released (s.issue.pfx.x.toNat / 16 % 8) u v) ∧
          (s.issue.pfx.x.getLsbD 7 = false → v.dirty = u.dirty ∧ v.pins = u.pins) ∧
          memoryStays u v ∧ othersStay s v) ∧
    (∀ l pa, s.active = [l] → (addr l).toNat % 4 = 0 → locate s s.agent (addr l) 4 .atomic = .ok (.mem pa) → L = 0 →
      goes (exec (.vatom t x i L) s) fun v =>
        let old : Word := BitVec.ofNat 32 (natLE (s.bytesAt pa 4))
        vreg s v l t.toNat = old ∧ BitVec.ofNat 32 (natLE (v.bytesAt pa 4)) = atomic32 op old (a l) (b l) ∧
          (∀ m, m < pa ∨ pa + 4 ≤ m → v.byteAt m = s.byteAt m)) ∧
    exec .vpref s = .next s

/-- R111, R121: scalar loads and stores of aligned addresses in memory; with L = 0 a load's registers are there at once, else they wait in
a window of the gang. A store changes its own bytes and nothing else of memory and no register; an ordered one then releases at its
scope (R290).
R110, R121: SLDS.W and SSTS.W access a window that a scratch reference names; with L ≠ 0 the word waits in a window of the gang, and an
ordered SSTS.W releases (R290). -/
def Obligations.ScalarMemoryResults : Prop :=
  (∀ (s : State) (d : BitVec 7) (x : BitVec 6) (L : BitVec 4) (sc : BitVec 3) (o : BitVec 1),
    let va := s.issue.src.pair (2 * x.toNat)
    let loads := fun (n : Nat) (r : Host.Outcome State Fault Refusal) => ∀ bs, va.toNat % n = 0 → bs.length = n →
      readGlobal s s.agent va n .read = .ok bs →
      (L = 0 → goes r fun t => (∀ k, k < n / 4 → t.cur.sreg (d.toNat + k) = wordAt bs k) ∧
        (∀ m, m < d.toNat ∨ d.toNat + n / 4 ≤ m → t.cur.sreg m = s.cur.sreg m) ∧
          t.cur = { s.cur with sregs := t.cur.sregs, windows := s.cur.windows + 1 } ∧ memoryStays s t) ∧
      (L ≠ 0 → s.issue.diverted = false → goes r fun t => t.cur = { s.cur with windows := s.cur.windows + 1, swins := s.cur.swins ++
        [{ seq := s.cur.windows, left := L.toNat, sregs := (List.range (n / 4)).map fun k => (d.toNat + k, wordAt bs k),
           lanes := s.issue.lanes }] } ∧ memoryStays s t)
    let stores := fun (bs : List Byte) (r : Host.Outcome State Fault Refusal) => ∀ pa, va.toNat % bs.length = 0 →
      locate s s.agent va bs.length .write = .ok (.mem pa) →
      goes r fun t => t.bytesAt pa bs.length = bs ∧ (∀ m, m < pa ∨ pa + bs.length ≤ m → t.byteAt m = s.byteAt m) ∧ t.gangs = s.gangs ∧
        writtenAt s pa (o = 1) sc.toNat t
    loads 4 (exec (.sldW d x L sc o) s) ∧ loads 8 (exec (.sldD d x L sc o) s) ∧ loads 16 (exec (.sldQ d x L sc o) s) ∧
    loads 8 (exec (.acq d x L sc) s) ∧
    stores (bytesLE 4 (s.scalar d).toNat) (exec (.sstW d x sc o) s) ∧
    stores (bytesLE 8 (s.scalar64 d).toNat) (exec (.sstD d x sc o) s) ∧
    stores (bytesLE 8 (s.issue.src.pair d.toNat).toNat ++ bytesLE 8 (s.issue.src.pair (d.toNat + 2)).toNat)
      (exec (.sstQ d x sc o) s)) ∧
  (∀ (s : State) (d : BitVec 7) (x : BitVec 6) (L : BitVec 4) (sc : BitVec 3) (o : BitVec 1) (key : Nat),
    let ref := s.issue.src.pair (2 * x.toNat)
    let off := ref.toNat % 2 ^ 32
    resolveScratch s s.issue.gang (ref.extractLsb' 32 32) = .window key → off % 4 = 0 →
      off + 4 ≤ (s.gangAt key).scratchSize → scratchPoisoned s key off 4 = false →
      goes (exec (.sldsW d x L sc o) s) (fun t =>
        scalarsTo s t L.toNat [(d.toNat, BitVec.ofNat 32 (natLE (s.scratchBytes key off 4)))] ∧
          t.cur = { s.cur with sregs := t.cur.sregs, swins := t.cur.swins, windows := s.cur.windows + 1 } ∧ onlyGang s t) ∧
      goes (exec (.sstsW d x sc o) s) (fun t =>
        t.scratchBytes key off 4 = bytesLE 4 (s.scalar d).toNat ∧
          (∀ a, a < off ∨ off + 4 ≤ a → Table.get 0 a (t.gangAt key).scratch = Table.get 0 a (s.gangAt key).scratch) ∧
          (∀ m, t.cur.sreg m = s.cur.sreg m) ∧ (o = 1 → released sc.toNat s t) ∧ (o = 0 → t.dirty = s.dirty ∧ t.pins = s.pins) ∧
          memoryStays s t))

/-- R122 to R124, R132: the scalar atomics give the old value and store the new one, REL stores its value and counts the version up,
SSIG.SUB subtracts; exactly the bytes of the location change. The old value waits in a window of the gang with L ≠ 0. An ordered atomic and
SSIG.SUB release at their scope (R290); REL at gang or dome scope pins, and at a wider one performs, the lines of the gang that hold bytes of
its object or of a region bound to it, and no other line (R293 to R295). The lanes are no longer restartable (R249). -/
def Obligations.ScalarAtomicResults : Prop :=
  ∀ (s : State) (d : BitVec 7) (x : BitVec 6) (L : BitVec 4) (sc : BitVec 3) (o : BitVec 1) (pa : Nat),
    let va := s.issue.src.pair (2 * x.toNat)
    let old : Word := BitVec.ofNat 32 (natLE (s.bytesAt pa 4))
    let old64 : DWord := BitVec.ofNat 64 (natLE (s.bytesAt pa 8))
    let a := s.issue.src.sreg d.toNat
    let b := s.issue.src.sreg (d.toNat + 1)
    let a64 := s.issue.src.pair d.toNat
    let b64 := s.issue.src.pair (d.toNat + 2)
    let ready := fun n => va.toNat % n = 0 ∧ locate s s.agent va n .atomic = .ok (.mem pa)
    let spoils := fun (t : State) => ∀ l, issuing s l → (t.cur.lane l).spoiled = true
    let gives := fun (v : Word) (r : Host.Outcome State Fault Refusal) => ready 4 → goes r fun t =>
      scalarsTo s t L.toNat [(d.toNat, old)] ∧ spoils t ∧ writtenAt s pa (o = 1) sc.toNat t ∧
        BitVec.ofNat 32 (natLE (t.bytesAt pa 4)) = v ∧ (∀ m, m < pa ∨ pa + 4 ≤ m → t.byteAt m = s.byteAt m)
    let to64 := fun (v : DWord) (r : Host.Outcome State Fault Refusal) => ready 8 → goes r fun t =>
      scalarsTo s t L.toNat [(d.toNat, old64.extractLsb' 0 32), (d.toNat + 1, old64.extractLsb' 32 32)] ∧ spoils t ∧
        writtenAt s pa (o = 1) sc.toNat t ∧ BitVec.ofNat 64 (natLE (t.bytesAt pa 8)) = v ∧
        (∀ m, m < pa ∨ pa + 8 ≤ m → t.byteAt m = s.byteAt m)
    let sets := fun (v : DWord) (after : State → Prop) (r : Host.Outcome State Fault Refusal) => ready 8 → goes r fun t =>
      BitVec.ofNat 64 (natLE (t.bytesAt pa 8)) = v ∧ (∀ m, m < pa ∨ pa + 8 ≤ m → t.byteAt m = s.byteAt m) ∧
        (∀ m, t.cur.sreg m = s.cur.sreg m) ∧ spoils t ∧ after t
    let key := s.issue.gang
    let entry := fun (t : State) =>
      let bound := relCovers t t.agent va
      ∃ u : State, u.issue = s.issue ∧ u.pins = s.pins ∧
      (∃ e ∈ u.dirty, e.gang = key ∧ e.line = pa / 128) ∧ (∀ e ∈ s.dirty, e ∈ u.dirty) ∧
      (∀ e ∈ u.dirty, e ∈ s.dirty ∨ e.gang = key ∧ e.line = pa / 128) ∧
      (sc.toNat ≤ 2 → t.dirty = u.dirty ∧ (∀ p ∈ s.pins, p ∈ t.pins) ∧
        (∀ e ∈ u.dirty, e.gang = key → bound e.line = true → ∃ p ∈ t.pins, p.line = e.line ∧ p.gang = key ∧ p.scope = sc.toNat) ∧
        ∀ p ∈ t.pins, p ∈ s.pins ∨ p.gang = key ∧ p.scope = sc.toNat ∧ bound p.line = true) ∧
      (3 ≤ sc.toNat → (∀ e ∈ t.dirty, e ∈ u.dirty ∧ (e.gang = key → bound e.line = false)) ∧
        (∀ p ∈ t.pins, p ∈ s.pins ∧ (p.gang = key → bound p.line = false)) ∧
        (∀ e ∈ u.dirty, bound e.line = false → e ∈ t.dirty) ∧ ∀ p ∈ s.pins, bound p.line = false → p ∈ t.pins)
    gives (old + a) (exec (.satomAdd d x L sc o) s) ∧
    gives (BitVec.ofInt 32 (min old.toInt a.toInt)) (exec (.satomMin d x L sc o) s) ∧
    gives (BitVec.ofInt 32 (max old.toInt a.toInt)) (exec (.satomMax d x L sc o) s) ∧
    gives (old &&& a) (exec (.satomAnd d x L sc o) s) ∧ gives (old ||| a) (exec (.satomOr d x L sc o) s) ∧
    gives (old ^^^ a) (exec (.satomXor d x L sc o) s) ∧ gives a (exec (.satomXchg d x L sc o) s) ∧
    gives (if old = a then b else old) (exec (.satomCas d x L sc o) s) ∧
    to64 (old64 + a64) (exec (.satomAdd64 d x L sc o) s) ∧
    to64 (if old64 = a64 then b64 else old64) (exec (.satomCas64 d x L sc o) s) ∧
    sets (s.scalar d ++ (old64.extractLsb' 0 32 + 1)) entry (exec (.rel d x sc) s) ∧
    sets (old64 - BitVec.ofNat 64 (s.scalar d).toNat) (writtenAt s pa True sc.toNat) (exec (.ssigSub d x sc) s)

/-- R123: BIND adds a binding of a whole number of 64-byte pieces that overlaps none and finds room among 1,024; UNBIND takes exactly
that binding away; the status goes to `s`(d + 3), at once with L = 0, and else through a window of the gang. The bindings change as the
instruction issues. A region that passes the end of the address space is compared without wrap (log 49, DESIGN CHOICE). -/
def Obligations.BindAndUnbind : Prop :=
  ∀ (s : State) (d : BitVec 7) (x : BitVec 6) (L : BitVec 4) (bs : List Byte),
    let va := s.issue.src.pair (2 * x.toNat)
    let n : Binding :=
      { base := s.issue.src.pair d.toNat, length := (s.issue.src.sreg (d.toNat + 2)).toNat, object := va }
    let have' := (s.ctxAt (s.ctxNum s.issue.gang)).bindings
    let lo := n.base.toNat
    let bad := lo % 64 ≠ 0 ∨ n.length % 64 ≠ 0 ∨ n.length = 0
    let overlaps := ∃ c ∈ have', c.base.toNat < lo + n.length ∧ lo < c.base.toNat + c.length
    let gives := fun (v : Word) (after : List Binding) (r : Host.Outcome State Fault Refusal) => goes r fun t =>
      scalarsTo s t L.toNat [(d.toNat + 3, v)] ∧ (t.ctxAt (s.ctxNum s.issue.gang)).bindings = after ∧
        (∀ k, k ≠ s.ctxNum s.issue.gang → t.ctxAt k = s.ctxAt k) ∧ lanesSpoiled s t ∧ othersStay s t ∧ memoryStays s t
    va.toNat % 8 = 0 → readGlobal s s.agent va 8 .read = .ok bs →
      (bad → gives 3 have' (exec (.bind d x L) s)) ∧
      (¬ bad → overlaps → gives 2 have' (exec (.bind d x L) s)) ∧
      (¬ bad → ¬ overlaps → 1024 ≤ have'.length → gives 1 have' (exec (.bind d x L) s)) ∧
      (¬ bad → ¬ overlaps → have'.length < 1024 → gives 0 (have' ++ [n]) (exec (.bind d x L) s)) ∧
      (n ∈ have' → gives 0 (have'.filter fun c => c != n) (exec (.unbind d x L) s)) ∧
      (n ∉ have' → gives 4 have' (exec (.unbind d x L) s))

/-- The scalar atomics with the bytes of their location (R122). -/
def Sys2Proof.Says.atomics (d : BitVec 7) (x : BitVec 6) (L : BitVec 4) (sc : BitVec 3) (o : BitVec 1) : List (Instr × Nat) :=
  [(.satomAdd d x L sc o, 4), (.satomMin d x L sc o, 4), (.satomMax d x L sc o, 4), (.satomAnd d x L sc o, 4), (.satomOr d x L sc o, 4),
    (.satomXor d x L sc o, 4), (.satomXchg d x L sc o, 4), (.satomCas d x L sc o, 4), (.satomAdd64 d x L sc o, 8),
    (.satomCas64 d x L sc o, 8)]

/-- An access of global memory by an instruction does not happen, for a cause: first in lane `low`, at an address, of a kind. `fails` says
which lanes the record marks: all of a scalar form, whose lowest one is `low`, and `low` alone of a vector form (log 49, DESIGN CHOICE).
`u` is the package with what the lanes below it have stored (R116, R131). -/
def Sys2Proof.Says.accessFails (s : State) (i : Instr) (c : AccCause) (low : Nat) (fails : Nat → Bool) (va : DWord) (k : Kind)
    (u : State) : Prop :=
  ∃ (t x j : BitVec 6) (d : BitVec 7) (L : BitVec 4) (sc : BitVec 3) (o : BitVec 1) (n : Nat),
    let group := va = s.issue.src.pair (2 * x.toNat) ∧ va.toNat % n = 0 ∧ issuing s low ∧ (∀ l, issuing s l → low ≤ l) ∧
      (∀ l, fails l = true) ∧ u = s
    let lanes := fun (addr : Nat → DWord) => va = addr low ∧ (∀ l, activeLane s l → (addr l).toNat % n = 0) ∧ activeLane s low ∧
      ∀ l, fails l = true ↔ l = low
    let at_ := s.vmAddr x j n
    let atom := fun l => s.issue.src.pair (2 * x.toNat) + BitVec.ofNat 64 ((s.srcLane l).vreg j.toNat).toNat
    group ∧ k = .read ∧ readGlobal s s.agent va n .read = .error c ∧
        (i, n) ∈ [(Instr.sldW d x L sc o, 4), (.sldD d x L sc o, 8), (.sldQ d x L sc o, 16), (.acq d x L sc, 8), (.bind d x L, 8),
          (.unbind d x L, 8)] ∨
      group ∧ k = .atomic ∧ readGlobal s s.agent va n .atomic = .error c ∧
        (i, n) ∈ [(Instr.rel d x sc, 8), (.ssigSub d x sc, 8)] ++ atomics d x L sc o ∨
      group ∧ k = .write ∧ locate s s.agent va n .write = .error c ∧
        (i, n) ∈ [(Instr.sstW d x sc o, 4), (.sstD d x sc o, 8), (.sstQ d x sc o, 16)] ∨
      lanes at_ ∧ k = .read ∧ u = s ∧ readGlobal s s.agent va n .read = .error c ∧
        (∀ l, activeLane s l → l < low → ∃ bs, readGlobal s s.agent (at_ l) n .read = .ok bs) ∧
        (i, n) ∈ [(Instr.vldB8 t x j L, 1), (.vldB16 t x j L, 2), (.vldW t x j L, 4), (.vldD t x j L, 8), (.vldQ t x j L, 16)] ∨
      lanes at_ ∧ k = .write ∧
        (∃ v, storeLanes s { s.agent with nt := s.issue.pfx.x.getLsbD 5 } at_ (s.vmData t n) s.active = .error (c, low, v) ∧
          u = if c = .page ∨ c = .prot then v else s) ∧
        (i, n) ∈ [(Instr.vstB8 t x j, 1), (.vstB16 t x j, 2), (.vstW t x j, 4), (.vstD t x j, 8), (.vstQ t x j, 16)] ∨
      lanes atom ∧ k = .atomic ∧ u = s ∧ n = 4 ∧ i = .vatom t x j L ∧
        atomicLanes s (s.issue.pfx.x.toNat % 16) atom (fun l => ((s.srcLane l).vreg t.toNat).setWidth 64)
          (fun l => ((s.srcLane l).vreg (t.toNat + 1)).setWidth 64) s.active = .error (c, low)

/-- A scratch reference of an access of n bytes, aligned to `to`, fails with a code: GRPFAULT, ALIGN, SPRANGE or an uncorrectable error (R110,
R111, R266). -/
def Sys2Proof.Says.refFails (s : State) (high : Word) (off n unit size code : Nat) : Prop :=
  match resolveScratch s s.issue.gang high with
  | .groupFault => code = 3
  | .window key =>
    if off % unit ≠ 0 then code = 1 else if size < off + n then code = 2 else scratchPoisoned s key off n = true ∧ code = 4
  | _ => off % unit ≠ 0 ∧ code = 1

/-- R76, R111, R116, R242, R245: every access of global memory at a misaligned address, and an ENQ whose image is not 64-byte aligned, is the
trap ALIGN: the lowest failing lane and its address stand in the record, the lanes resume at the instruction, and memory stays.
R116, R131, R242, R245, R266, R270: an access of global memory that gets an error response or meets an uncorrectable error is the trap
MEMERR: the lowest failing lane, which lanes fail, and the address stand in the record, and the lanes resume at the instruction. Nothing
is loaded or stored.
R110, R111, R114, R117, R121, R129, R142, R242, R245, R266: what a scratch reference of a vector or scalar access, of an instruction on a
barrier object, of BKICK or of BLIST breaks first, of GRPFAULT, ALIGN, SPRANGE and MEMERR, is the trap taken: its record has the lowest
failing lane, which lanes fail, and the reference. Of a vector form every active lane at fault is marked, with MEMERR the lowest alone (log
49, DESIGN CHOICE). A reference of VLDS and VSTS has all ones for its high word (log 48, DESIGN CHOICE).
R116, R131, R193, R248: an access of global memory without a translation parks the gang: its record asks the companion for the page, of
the kind of the access and for the lowest failing lane, the lanes stand at the instruction, and nothing is loaded; a vector store has
stored for the lanes below. -/
def Obligations.MisalignedAndUntranslatedAccesses : Prop :=
  (∀ (s : State) (t x i : BitVec 6) (d : BitVec 7) (y : BitVec 10) (L : BitVec 4) (sc : BitVec 3) (o : BitVec 1) (entry low : Nat),
    trapReady s entry →
    let pc := s.issue.pc
    let align := fun (addr : DWord) (fails : Nat → Bool) (l : Nat) =>
      { TrapRec.of 1 pc pc with
          v11 := BitVec.ofNat 32 (low + if fails l then 2 ^ 8 else 0), v12 := addr.extractLsb' 0 32, v13 := addr.extractLsb' 32 32 }
    let vector := fun (n : Nat) (r : Host.Outcome State Fault Refusal) =>
      let addr := s.vmAddr x i n
      let fails := fun l => s.active.contains l && (addr l).toNat % n != 0
      activeLane s low → (addr low).toNat % n ≠ 0 → (∀ l, activeLane s l → l < low → (addr l).toNat % n = 0) →
        goes r (trapped s entry (align (addr low) fails))
    let group := fun (va : DWord) (n : Nat) (r : Host.Outcome State Fault Refusal) =>
      issuing s low → (∀ l, issuing s l → low ≤ l) → va.toNat % n ≠ 0 → goes r (trapped s entry (align va fun _ => true))
    let scalar := group (s.issue.src.pair (2 * x.toNat))
    let image := group (s.issue.src.pair d.toNat) 64
    let atom := fun l => s.issue.src.pair (2 * x.toNat) + BitVec.ofNat 64 ((s.srcLane l).vreg i.toNat).toNat
    vector 2 (exec (.vldB16 t x i L) s) ∧ vector 4 (exec (.vldW t x i L) s) ∧ vector 8 (exec (.vldD t x i L) s) ∧
    vector 16 (exec (.vldQ t x i L) s) ∧ vector 2 (exec (.vstB16 t x i) s) ∧ vector 4 (exec (.vstW t x i) s) ∧
    vector 8 (exec (.vstD t x i) s) ∧ vector 16 (exec (.vstQ t x i) s) ∧
    (activeLane s low → (atom low).toNat % 4 ≠ 0 → (∀ l, activeLane s l → l < low → (atom l).toNat % 4 = 0) →
      goes (exec (.vatom t x i L) s) (trapped s entry (align (atom low) fun l => s.active.contains l && (atom l).toNat % 4 != 0))) ∧
    (∀ p ∈ [(Instr.sldW d x L sc o, 4), (.sldD d x L sc o, 8), (.sldQ d x L sc o, 16), (.acq d x L sc, 8), (.bind d x L, 8), (.unbind d x L, 8),
        (.sstW d x sc o, 4), (.sstD d x sc o, 8), (.sstQ d x sc o, 16), (.rel d x sc, 8), (.ssigSub d x sc, 8)] ++ atomics d x L sc o,
      scalar p.2 (exec p.1 s)) ∧
    (s.cur.wrap = false → image (exec (.enqTry d y) s) ∧ image (exec (.enqPark d y) s))) ∧
  (∀ (s u : State) (i : Instr) (c : AccCause) (entry low : Nat) (fails : Nat → Bool) (va : DWord) (k : Kind),
    accessFails s i c low fails va k u → c = .memerr ∨ c = .poison → trapReady s entry →
      goes (exec i s) (trapped s entry fun l =>
        { TrapRec.of 4 s.issue.pc s.issue.pc with
            v11 := BitVec.ofNat 32 (low + if fails l then 2 ^ 8 else 0), v12 := va.extractLsb' 0 32, v13 := va.extractLsb' 32 32 })) ∧
  (∀ (s : State) (t x j : BitVec 6) (d a b c : BitVec 7) (L : BitVec 4) (sc : BitVec 3) (o p : BitVec 1) (entry low code : Nat),
    trapReady s entry →
    let record := fun (ref : DWord) (fails : Nat → Prop) (r : Host.Outcome State Fault Refusal) => goes r fun u =>
      ∃ rec : Nat → TrapRec, trapped s entry rec u ∧ ∀ l, issuing s l → ∃ q, (fails l → q = 2 ^ 8) ∧ (¬ fails l → q = 0) ∧
        rec l = { TrapRec.of code s.issue.pc s.issue.pc with
          v11 := BitVec.ofNat 32 (low + q), v12 := ref.extractLsb' 0 32, v13 := ref.extractLsb' 32 32 }
    let vector := fun (high : Word) (n : Nat) (r : Host.Outcome State Fault Refusal) =>
      let off := s.vmOff x j n
      let bad := fun l e => ∃ key, resolveScratch s s.issue.gang high = .window key ∧ refFails s high (off l) n n (s.gangAt key).scratchSize e
      let fails := fun l => activeLane s l ∧
        (code = 3 ∧ resolveScratch s s.issue.gang high = .groupFault ∨ code = 1 ∧ off l % n ≠ 0 ∧ resolveScratch s s.issue.gang high ≠ .groupFault ∨
          (code = 2 ∨ code = 4) ∧ bad l code)
      fails low → (∀ l, l < low → ¬ fails l) → (1 < code → code ≠ 3 → ∀ l, activeLane s l → off l % n = 0) →
        (code = 4 → ∀ l, activeLane s l → ¬ bad l 2) →
        record (high ++ BitVec.ofNat 32 (off low)) (fun l => if code = 4 then l = low else fails l) r
    let group := fun (ref : DWord) (n : Nat) (r : Host.Outcome State Fault Refusal) =>
      let high := ref.extractLsb' 32 32
      issuing s low → (∀ l, issuing s l → low ≤ l) →
        (∀ key, resolveScratch s s.issue.gang high = .window key → (s.gangAt key).scratchSize = s.cur.scratchSize) →
        refFails s high (ref.toNat % 2 ^ 32) n (min n 16) s.cur.scratchSize code → record ref (fun _ => True) r
    let own : Word := 0xFFFFFFFF
    let high := s.issue.src.sreg (2 * x.toNat + 1)
    let at_ := s.issue.src.pair a.toNat
    vector own 4 (exec (.vldsW t x j L) s) ∧ vector own 16 (exec (.vldsQ t x j L) s) ∧ vector own 4 (exec (.vstsW t x j) s) ∧
    vector own 16 (exec (.vstsQ t x j) s) ∧ vector high 4 (exec (.vldmW t x j L) s) ∧ vector high 4 (exec (.vstmW t x j) s) ∧
    group (s.issue.src.pair (2 * x.toNat)) 4 (exec (.sldsW d x L sc o) s) ∧ group (s.issue.src.pair (2 * x.toNat)) 4 (exec (.sstsW d x sc o) s) ∧
    group at_ 16 (exec (.arset a b sc) s) ∧ group at_ 16 (exec (.barArr a sc) s) ∧ group at_ 16 (exec (.barArrn a b sc) s) ∧
    group at_ 16 (exec (.barWait a b sc) s) ∧ group at_ 16 (exec (.arwait a b sc p) s) ∧
    (s.counterFull 0 = false → group at_ 64 (exec (.bkick a) s)) ∧
    (s.counterFull 0 = false → at_.toNat % 16 = 0 → (s.scalar b).toNat ≤ 65535 → c ≠ 96 → code ≠ 4 →
      group (s.issue.src.pair c.toNat) 16 (exec (.blist a b c) s))) ∧
  (∀ (s u : State) (i : Instr) (low : Nat) (fails : Nat → Bool) (va : DWord) (k : Kind),
    accessFails s i .page low fails va k u →
    s.cur.lamp = false → s.cur.alive = true → s.issue.pend = none → s.issue.flags &&& s.cur.fptrap = 0 → noWindows s →
      s.cur.liveMask ≠ 0 → (∀ l, issuing s l → (s.cur.lane l).restartable = false) →
      goes (exec i s) fun t =>
        t.cur.place = .parked s.cur.core ∧ t.cur.park = some (.page [s.pkg.nextFault] s.issue.lanes) ∧
          (∀ l, issuing s l → (t.cur.lane l).pc = s.issue.pc) ∧ (∀ m, t.cur.sreg m = s.cur.sreg m) ∧
          (∀ l m, vreg s t l m = vreg s s l m) ∧ memoryStays u t ∧
          ∃ f ∈ t.pkg.faults, f.id = s.pkg.nextFault ∧ f.va = va ∧ f.ctx = s.ctxNum s.issue.gang ∧
            f.kind = (match k with | .read => 0 | .write => 1 | .atomic => 2 | .fetch => 3) ∧
            f.gang = some s.issue.gang ∧ f.pc = s.issue.pc ∧ f.lane = low)

/-- R242, R243, R244, R258: a trap without a trap entry, or of a lane at depth 255, is a fatal fault: the launch stops, LERR says FATAL with
NOTRAPENT or TRAPDEPTH.
R116, R131, R242, R258: an access of global memory that the page's permissions forbid is the fatal fault PROT of the launch. -/
def Obligations.FatalFaults : Prop :=
  (∀ (s : State) (m : LaneMask) (rec : Nat → TrapRec),
    let key := s.issue.gang
    let l := s.launchAt s.cur.launch
    let ends := fun (code : Nat) (t : State) =>
      (t.launchAt s.cur.launch).faulted = true ∧ (t.launchAt s.cur.launch).lerr.getLsbD 2 = true ∧
        (t.launchAt s.cur.launch).lerr.toNat / 2 ^ 24 = l.lerr.toNat / 2 ^ 24 ||| code
    s.cur.lamp = false → l.phase = .running → noDiversion s →
      (trapEntry s key = none → ends 20 (s.deliver key m rec)) ∧
      (∀ e, trapEntry s key = some e → (∃ n, n < 32 ∧ m.getLsbD n = true ∧ (s.cur.lane n).depth = 255) →
        ends 19 (s.deliver key m rec))) ∧
  (∀ (s u : State) (i : Instr) (low : Nat) (fails : Nat → Bool) (va : DWord) (k : Kind),
    let l := s.launchAt s.cur.launch
    accessFails s i .prot low fails va k u → s.cur.lamp = false → l.phase = .running →
      goes (exec i s) fun t =>
        (t.launchAt s.cur.launch).faulted = true ∧ (t.launchAt s.cur.launch).lerr.getLsbD 2 = true ∧
          (t.launchAt s.cur.launch).lerr.toNat / 2 ^ 24 = l.lerr.toNat / 2 ^ 24 ||| 6)

/-! ### Fences, barriers, groups and wake-ups (R125 to R130) -/

/-- No register of any gang, no wait and no byte of memory changes. -/
def Sys2Proof.Says.registersStay (s t : State) : Prop :=
  (∀ k m, (t.gangAt k).sreg m = (s.gangAt k).sreg m) ∧
    (∀ k l, (t.gangAt k).lane l = { (s.gangAt k).lane l with spoiled := ((t.gangAt k).lane l).spoiled }) ∧ memoryStays s t

/-- The chain cannot issue yet: its lanes stand at it with a wait, and nothing of it has happened. -/
def Sys2Proof.Says.standsAt (s : State) (w : Wait) : State :=
  { s with issue := { s.issue with hold := s.issue.hold ||| s.issue.lanes, holdWait := w } }

/-- A scratch reference of the gang leads to n readable bytes at an offset of a window (R110, R111). -/
def Sys2Proof.Says.refersTo (s : State) (ref : DWord) (n key off : Nat) : Prop :=
  off = ref.toNat % 2 ^ 32 ∧ off % 16 = 0 ∧ resolveScratch s s.issue.gang ((ref >>> 32).setWidth 32) = .window key ∧
    off + n ≤ (s.gangAt key).scratchSize ∧ scratchPoisoned s key off n = false

/-- R125: b' is what repeating the completion test makes of b. -/
def Sys2Proof.Says.settles (b b' : Bar) : Prop :=
  ∃ n, b'.thr + n * b.thrTgt = b.thr ∧ b'.arrived + n * b.byteTgt = b.arrived ∧ b'.thrTgt = b.thrTgt ∧ b'.byteTgt = b.byteTgt ∧
    b'.phase = (b.phase != (n % 2 == 1)) ∧
    (b.thrTgt = 0 ∧ b.byteTgt = 0 ∧ n = 0 ∨ b'.thr < b.thrTgt ∨ b'.arrived < b.byteTgt)

/-- An operation that a CANCEL can still stop: a sent FATOM or FRESV goes on (R140). -/
def Sys2Proof.Says.stoppable (o : Op) : Prop :=
  o.status = .active ∧
    match o.kind with
    | .fatom _ _ _ _ _ _ | .fresv _ _ _ => o.sent = 0
    | _ => True

/-- R128, R139, R140: WAITC passes once at most the threshold's operations of its class are outstanding and takes the trap of the
oldest failed one that it retires; CANCEL keeps the oldest operations of the class and stops the others. -/
def Obligations.EngineWaitAndCancel : Prop :=
  ∀ (s : State) (a : BitVec 7) (n : BitVec 4),
    let key := s.issue.gang
    let ops := s.opsOf key n.toNat
    let keep := (s.scalar a).toNat
    let fails := s.cur.engfails.filter fun f => f.cls == n.toNat
    (keep < ops.length → exec (.waitc a n) s = .next (standsAt s .retest)) ∧
    (ops.length ≤ keep → fails = [] → exec (.waitc a n) s = .next s) ∧
    (∀ entry f rest, ops.length ≤ keep → fails = f :: rest → trapReady s entry → s.issue.more = false →
      goes (exec (.waitc a n) s) (trapped s entry fun _ =>
        { TrapRec.of 8 s.issue.nextPc s.issue.pc with
            v11 := BitVec.ofNat 32 (f.cls + f.cause * 256 + if rest = [] then 0 else 4096),
            v12 := BitVec.ofNat 32 f.unit })) ∧
    ((s.ops.map Op.id).Nodup → goes (exec (.cancel a n) s) fun t =>
      (∃ f : Op → Op, t.ops = s.ops.map f ∧
        (∀ o ∈ s.ops, o ∉ ops ∨ o ∈ ops.take keep ∨ ¬ stoppable o → f o = o) ∧
        ∀ o ∈ ops.drop keep, stoppable o →
          (o.wick = .waiting → (f o).status = .cancelled) ∧
            (o.wick = .granted ∨ o.wick = .notNeeded → f o = { o with cancelling := true, fault := none })) ∧
        registersStay s t)

/-- The scalar result of an instruction that changes registers of the gang only at s`n`. -/
def Sys2Proof.Says.statusIn (s t : State) (n : Nat) (v : Word) : Prop :=
  t.cur.sreg n = v ∧ (∀ m, m ≠ n → t.cur.sreg m = s.cur.sreg m) ∧
    (∀ l, t.cur.lane l = { s.cur.lane l with spoiled := (t.cur.lane l).spoiled, yieldAt := (t.cur.lane l).yieldAt }) ∧ memoryStays s t

/-- R125, R127, R129: fences release, but an acquire FENCE, which changes nothing (log 2, DEDUCED); ARSET writes an object, BAR.ARR and BAR.ARRN arrive at one for the lanes of the group or for a
count, with the release first and the completion test after it; BAR.WAIT and ARWAIT pass once the object has changed its phase, or has
the bytes, and else stand at it.
R130: SSTEP releases at package scope and makes its lanes wait for the group, passes in wrap-up and takes GRPFAULT where the gang is
no live member, with address 0 in its record (log 48, DESIGN CHOICE); GRPJOIN, which counts live memberships, and GRPLEAVE write the first
status that applies; NOTIFY sets the wake bits it names, which wakes sleepers at once, those of a saved gang apart (log 28, DEDUCED);
SLEEP ends at once with the wake bit or no duration, and else sleeps. -/
def Obligations.FencesBarriersAndGroups : Prop :=
  (∀ (s : State) (a b : BitVec 7) (sc : BitVec 3) (p : BitVec 1) (key off : Nat),
    let kind := s.issue.word.toNat % 16
    let o := s.barAt key off
    let group := ((List.range 32).filter fun l => s.issue.lanes.getLsbD l).length
    let put := fun (r : Host.Outcome State Fault Refusal) (holds : Bar → Prop) => goes r fun t =>
      holds (t.barAt key off) ∧ released sc.toNat s t ∧ registersStay s t ∧
        ∀ k i, k ≠ key ∨ i < off ∨ off + 16 ≤ i →
          Table.get 0 i (t.gangAt k).scratch = Table.get 0 i (s.gangAt k).scratch
    let set : Bar :=
      { phase := false, thr := 0, thrTgt := (s.issue.src.sreg b.toNat).toNat % 2 ^ 31, arrived := 0,
        byteTgt := (s.issue.src.sreg (b.toNat + 1)).toNat }
    let plus := fun (n : Nat) => { o with thr := min (2 ^ 31 - 1) (o.thr + n) }
    let passes := fun (r : Host.Outcome State Fault Refusal) (test : Prop) =>
      (test → r = .next s) ∧ (¬ test → r = .next (standsAt s .retest))
    (kind = 2 → exec .fence s = .next s) ∧
    (kind ≠ 2 → goes (exec .fence s) fun t => released (s.issue.word.toNat / 16 % 8) s t ∧
      t = { s with dirty := t.dirty, pins := t.pins }) ∧
    (refersTo s (s.issue.src.pair a.toNat) 16 key off →
      put (exec (.arset a b sc) s) (fun x => x = set) ∧
      put (exec (.barArr a sc) s) (settles (plus group)) ∧
      put (exec (.barArrn a b sc) s) (settles (plus (s.scalar b).toNat)) ∧
      passes (exec (.barWait a b sc) s) (o.phase ≠ (s.scalar b).getLsbD 0) ∧
      passes (exec (.arwait a b sc p) s) (o.phase ≠ (p == 1) ∨ (s.scalar b).toNat ≤ o.arrived))) ∧
  (∀ (s : State) (a b : BitVec 7) (sc : BitVec 3),
    let g := s.cur
    let n := (s.scalar a).toNat
    let declared := (s.launchOf s.issue.gang).groups.find? fun x => x.index == n
    let co := declared.any GroupState.coresident
    let mine := g.inGroup n
    (mine = true → g.wrap = true → goes (exec (.sstep a) s) fun t => released 4 s t ∧ registersStay s t) ∧
    (mine = true → g.wrap = false → goes (exec (.sstep a) s) fun t =>
      released 4 s t ∧ memoryStays s t ∧ (∀ m, t.cur.sreg m = g.sreg m) ∧ (∀ l, ¬ issuing s l → t.cur.lane l = g.lane l) ∧
        ∀ l, issuing s l → t.cur.lane l =
          { g.lane l with wait := .sstep n (g.lane l).pc, pc := s.issue.pc, spoiled := true }) ∧
    (∀ entry, mine = false → trapReady s entry →
      goes (exec (.sstep a) s) (trapped s entry fun _ =>
        { TrapRec.of 3 s.issue.pc s.issue.pc with v11 := BitVec.ofNat 32 ((lanesOf s.issue.lanes).headD 0 + 256) })) ∧
    goes (exec (.grpjoin a b) s) (fun t =>
      let st : Word := if declared = none then 3 else if co = true then 4 else if mine = true then 1
        else if 4 ≤ (g.members.filter Membership.live).length then 2 else 0
      statusIn s t b.toNat st ∧ (st = 0 → t.cur.inGroup n = true) ∧ (st ≠ 0 → t.cur.members = g.members)) ∧
    goes (exec (.grpleave a b) s) (fun t =>
      let st : Word := if declared = none then 3 else if co = true then 4 else if mine = true then 0 else 1
      statusIn s t b.toNat st ∧ (st = 0 → t.cur.inGroup n = false) ∧ (st ≠ 0 → t.cur.members = g.members)) ∧
    goes (exec (.notify a sc) s) (fun t =>
      let hit := fun k =>
        let x := s.gangAt k
        x.launch = g.launch ∧ x.lamp = false ∧ x.alive = true ∧ (s.scalar a = 0xFFFFFFFF ∨ BitVec.ofNat 32 x.num = s.scalar a)
      (∀ k, hit k → (s.gangAt k).place = .saved ∨
          (∀ l til r e, l < 32 → ((s.gangAt k).lane l).live = true → ((s.gangAt k).lane l).wait ≠ .sleep til r e) →
        (t.gangAt k).wake = true ∧ ∀ l, ((t.gangAt k).lane l).wait = ((s.gangAt k).lane l).wait) ∧
      (∀ k l til r e, hit k → (s.gangAt k).place ≠ .saved → l < 32 → ((s.gangAt k).lane l).live = true → ((s.gangAt k).lane l).wait = .sleep til r e →
        (t.gangAt k).wake = false ∧ (t.gangAt k).sreg r = 1 ∧
          ((t.gangAt k).lane l).wait = .ready ∧ ((t.gangAt k).lane l).pc = e) ∧
      (∀ k, ¬ hit k → k ≠ s.issue.gang → t.gangAt k = s.gangAt k) ∧ released sc.toNat s t ∧ memoryStays s t) ∧
    (g.wake = true → goes (exec (.sleep a b) s) fun t => statusIn s t b.toNat 1 ∧ t.cur.wake = false ∧ onlyGang s t) ∧
    (g.wake = false → n = 0 → goes (exec (.sleep a b) s) fun t =>
      statusIn s t b.toNat 0 ∧ (∀ l, issuing s l → (t.cur.lane l).yieldAt = g.chains + 1) ∧ onlyGang s t) ∧
    (g.wake = false → n ≠ 0 → goes (exec (.sleep a b) s) fun t =>
      (∀ l, issuing s l → t.cur.lane l =
        { g.lane l with wait := .sleep (s.now + n) b.toNat (g.lane l).pc, pc := s.issue.pc }) ∧
      (∀ l, ¬ issuing s l → t.cur.lane l = g.lane l) ∧ t.cur = { g with lanes := t.cur.lanes } ∧ onlyGang s t))

/-! ### Engine instructions (R135 to R172) -/

/-- What a copy endpoint allows at issue (R142, R156, R157): the offsets lo to hi from its address stay in its space, which for a scratch target has
the size of the gang's own window, wherever the target stands (log 28, DEDUCED). -/
def Sys2Proof.Says.endpointFits (s : State) (e : Endpoint) (lo hi : Int) : Prop :=
  let off : Nat := e.addr.toNat % 2 ^ 32
  let gives := resolveScratch s s.issue.gang (e.addr.extractLsb' 32 32)
  (e.space = 0 ∧ 0 ≤ e.addr.toNat + lo ∧ e.addr.toNat + hi ≤ 2 ^ 64) ∨
    (e.space = 1 ∧ gives ≠ .groupFault ∧ off < s.cur.scratchSize ∧ 0 ≤ off + lo ∧ off + hi ≤ s.cur.scratchSize) ∨
    (e.space = 2 ∧ 0 ≤ e.addr.toNat + lo ∧ e.addr.toNat + hi ≤ (s.coreAt s.cur.core).opbSize)

/-- An arrival reference names an object of a group member, inside its window (R110, R125). -/
def Sys2Proof.Says.objectFits (s : State) (ref : DWord) : Prop :=
  let off := ref.toNat % 2 ^ 32
  let gives := resolveScratch s s.issue.gang (ref.extractLsb' 32 32)
  gives ≠ .groupFault ∧ off % 16 = 0 ∧ off + 16 ≤ s.cur.scratchSize

/-- The operation stands at its engine as the gang's newest one, from unit 0 on; the spawn tree counts it, every other operation, register
and byte of memory stays, and a wick is asked for where watts are named (R128, R136, R184, R366). -/
def Sys2Proof.Says.handedOver (cls : Nat) (k : OpKind) (wick : WickState) (watts : List (Nat × Nat)) (s t : State) : Prop :=
  (∃ o ∈ t.ops, o.id = s.nextOp ∧ o.gang = s.issue.gang ∧ o.cls = cls ∧ o.kind = k ∧ o.core = s.cur.core ∧ o.pc = 0 ∧ o.ps = 0 ∧
    o.status = .active ∧ o.wick = wick) ∧
    (∀ o ∈ s.ops, o.id ≠ s.nextOp → o ∈ t.ops) ∧ t.nextOp = s.nextOp + 1 ∧ t.ops.length = s.ops.length + 1 ∧
    (t.launchAt s.cur.launch).spawn = (s.launchAt s.cur.launch).spawn + 1 ∧
    (wick = .waiting → t.chandler.queue = s.chandler.queue ++ [{ op := s.nextOp, watts := watts, since := s.ran }]) ∧
    (wick ≠ .waiting → t.chandler = s.chandler) ∧ registersStay s t

/-- The instruction issues its operation while fewer than 1,023 of the class are outstanding, and stands at its place while 1,023
are. -/
def Sys2Proof.Says.issues (cls : Nat) (k : OpKind) (wick : WickState) (watts : List (Nat × Nat)) (s : State)
    (r : Host.Outcome State Fault Refusal) : Prop :=
  ((s.opsOf s.issue.gang cls).length < 1023 → goes r (handedOver cls k wick watts s)) ∧
    (1023 ≤ (s.opsOf s.issue.gang cls).length → r = .next (standsAt s .ready))

/-- R128, R136, R142, R156 to R161: the copies, gathers and Lantern attention issue their operation, with its operands captured, wherever these
keep to their limits; a BKICK whose request stands in a window that is not there is issued all the same, and its engine reads the request
later. -/
def Obligations.CopyGatherLanternIssue : Prop :=
  ∀ (s : State) (a b c : BitVec 7),
    let g := s.issue.src
    let A := g.pair a.toNat
    let B := g.pair b.toNat
    let C := g.pair c.toNat
    let ctl : Nat := (s.scalar c).toNat
    let n := (s.scalar b).toNat
    let len : Nat := ctl % 2 ^ 28
    let d : Endpoint := { space := ctl / 2 ^ 28 % 4, addr := A }
    let r : Endpoint := { space := ctl / 2 ^ 30, addr := B }
    (endpointFits s d 0 len → endpointFits s r 0 len → issues 0 (.bcopy d r len) .notNeeded [] s (exec (.bcopy a b c) s)) ∧
    (let w : Nat := (g.sreg c.toNat).toNat
     let row : Nat := w % 2 ^ 24
     let rows := (g.sreg (c.toNat + 1)).toNat
     let ds := (g.sreg (c.toNat + 2)).toInt
     let ss := (g.sreg (c.toNat + 3)).toInt
     let d : Endpoint := { space := w / 2 ^ 24 % 4, addr := A }
     let r : Endpoint := { space := w / 2 ^ 26 % 4, addr := B }
     let last := fun (stride : Int) => ((rows - 1 : Nat) : Int) * stride
     w < 2 ^ 28 → row ≠ 0 → 0 < rows → rows < 65536 → endpointFits s d (min 0 (last ds)) (max 0 (last ds) + row) →
       endpointFits s r (min 0 (last ss)) (max 0 (last ss) + row) →
       issues 0 (.bcopy2d d r row rows ds ss) .notNeeded [] s (exec (.bcopy2d a b c) s)) ∧
    (A.toNat % 16 = 0 → n ≤ 65535 → (c ≠ 96 → objectFits s C) →
      issues 0 (.blist A n (if c = 96 then none else some C)) .notNeeded [] s (exec (.blist a b c) s)) ∧
    (let target := resolveScratch s s.issue.gang (A.extractLsb' 32 32)
     let off := A.toNat % 2 ^ 32
     target = .absent ∨ target = .offCore → off % 16 = 0 → off + 64 ≤ s.cur.scratchSize →
       issues 0 (.bkickAt A) .notNeeded [] s (exec (.bkick a) s)) ∧
    (∀ key off, refersTo s A 64 key off → off + 64 ≤ s.cur.scratchSize →
      let q := Gather.ofBytes (s.scratchBytes key off 64)
      let last := ((q.rows - 1 : Nat) : Int) * q.dstStride
      0 < q.rows → q.rows ≤ 65535 → 0 < q.rowBytes → q.rowBytes ≤ 65536 → q.idx.space ≤ 1 → q.idx.addr.toNat % 4 = 0 →
        (q.dst.space = 1 ∨ endpointFits s q.dst (min 0 last) (max 0 last + q.rowBytes)) →
        issues 0 (.bkick q) .notNeeded [] s (exec (.bkick a) s)) ∧
    (A.toNat % 64 = 0 → n ≠ 0 → n ≤ 4096 → objectFits s C → issues 2 (.lattn A n C) .notAsked [] s (exec (.lattn a b c) s))

/-- R136, R167 to R171, R366: the fabric instructions issue their operation wherever their operands keep to their limits; FRED takes the next
reduction number of its group; an FBULK of more than 1,048,576 bytes asks for a wick of 16 W on the die of its port, or on its own die where
no port reaches the peer (log 30, DEDUCED). -/
def Obligations.FabricIssue : Prop :=
  ∀ (s : State) (a b c : BitVec 7),
    let g := s.issue.src
    let A := g.pair a.toNat
    let B := g.pair b.toNat
    let C := g.pair c.toNat
    let n := (g.sreg c.toNat).toNat
    let w := g.sreg (c.toNat + 1)
    let sig := g.pair (c.toNat + 2)
    let r : Route :=
      { arr := w.getLsbD 20, scratch := w.getLsbD 19, dom := w.toNat / 2 ^ 15 % 16, tc := w.toNat / 2 ^ 12 % 8, peer := w.toNat % 4096 }
    let gives := fun (k : OpKind) (r : Host.Outcome State Fault Refusal) => issues 3 k .notNeeded [] s r
    (n ≤ 2 ^ 24 → w.toNat < 2 ^ 19 → gives (.fput A B n r none) (exec (.fput a b c) s)) ∧
    (n ≤ 2 ^ 24 → w.toNat < 2 ^ 19 → sig.toNat % 8 = 0 → gives (.fput A B n r (some sig)) (exec (.fsput a b c) s)) ∧
    (n ≤ 2 ^ 24 → w.toNat < 2 ^ 21 → endpointFits s { space := if r.scratch then 1 else 0, addr := A } 0 n →
      (r.arr = true → objectFits s sig) → gives (.fget A B n r sig) (exec (.fget a b c) s)) ∧
    (n < 12 → w.toNat < 2 ^ 19 → A.toNat % 4 = 0 → sig.toNat % 4 = 0 →
      gives (.fatom A n ((g.sreg b.toNat).setWidth 64) ((g.sreg (b.toNat + 1)).setWidth 64) r sig) (exec (.fatom a b c) s)) ∧
    (n = 16 ∨ n = 24 ∨ n = 25 → w.toNat < 2 ^ 19 → b.toNat % 4 = 0 → b.toNat ≤ 92 → A.toNat % 8 = 0 → sig.toNat % 8 = 0 →
      gives (.fatom A n B (g.pair (b.toNat + 2)) r sig) (exec (.fatom a b c) s)) ∧
    (let group := w.toNat % 4096
     let number := fun (t : State) => Table.get 0 group (t.ctxAt (s.ctxNum s.issue.gang)).reductions
     n ≤ 2 ^ 24 → n % 4 = 0 → w.toNat < 2 ^ 14 → w.toNat / 4096 ≠ 3 → sig.toNat % 8 = 0 →
       gives (.fred A B n group (w.toNat / 4096) sig (number s)) (exec (.fred a b c) s) ∧
         ((s.opsOf s.issue.gang 3).length < 1023 →
           goes (exec (.fred a b c) s) fun t => number t = (number s + 1) % 65536)) ∧
    (let v := s.scalar a
     let r : Route := { arr := v.getLsbD 20, scratch := v.getLsbD 19, dom := v.toNat / 2 ^ 15 % 16, tc := v.toNat / 2 ^ 12 % 8,
                        peer := v.toNat % 4096 }
     v.toNat < 2 ^ 19 → s.scalar b ≠ 0 → C.toNat % 8 = 0 → gives (.fresv r (s.scalar b).toNat C) (exec (.fresv a b c) s)) ∧
    (let n := (g.sreg (a.toNat + 4)).toNat
     let w := g.sreg (a.toNat + 5)
     let r : Route := { arr := w.getLsbD 20, scratch := w.getLsbD 19, dom := w.toNat / 2 ^ 15 % 16, tc := w.toNat / 2 ^ 12 % 8,
                        peer := w.toNat % 4096 }
     let k : OpKind := .fbulk A (g.pair (a.toNat + 2)) n r (g.pair (a.toNat + 6))
     n ≠ 0 → w.toNat < 2 ^ 19 → (g.pair (a.toNat + 6)).toNat % 8 = 0 →
       (n ≤ 1048576 → gives k (exec (.fbulk a) s)) ∧
         (1048576 < n → issues 3 k .waiting [(s.routeDie r, 16)] s (exec (.fbulk a) s)))

/-- A synchronous engine instruction has begun: its lanes wait at it, and nothing but its result is to come for the gang; a drain of the
bank's owner stands in the bank's order, and it is ready from this cycle on, behind those that began before it (R136, R333, R336). -/
def Sys2Proof.Says.begun (k : SyncKind) (ordered : Bool) (s t : State) : Prop :=
  (∀ l, issuing s l → t.cur.lane l =
      { s.cur.lane l with wait := .engine (s.cur.lane l).pc, pc := s.issue.pc, spoiled := true }) ∧
    (∀ l, ¬ issuing s l → t.cur.lane l = s.cur.lane l) ∧
    (∃ rank, (∀ kg ∈ s.gangs, ∀ y ∈ kg.2.syncs, y.rank < rank) ∧ t.cur = { s.cur with lanes := t.cur.lanes, syncs := s.cur.syncs ++
      [{ kind := k, lanes := s.issue.lanes, rows := 0, ordered := ordered, ready := s.clock.cycles, rank := rank }] }) ∧
    ∀ j, j ≠ s.issue.gang → t.gangAt j = s.gangAt j

/-- The free list of a pool as its indices, head first. -/
def Sys2Proof.Says.freeIndices (p : Pool) : List Nat := p.free.flatMap fun r => (List.range r.2).map (r.1 + ·)

/-- R165: which requests are granted when `have` blocks are free and `got` have been granted already, and whether the limit stops it. -/
def Sys2Proof.Says.grants : List (Nat × DWord) → Nat → Nat → Nat × Bool
  | [], _, _ => (0, false)
  | (k, _) :: rest, left, got =>
    if k ≠ 0 ∧ 512 < got + k then (0, true)
    else if left < k then (0, false)
    else ((grants rest (left - k) (got + k)).1 + 1, (grants rest (left - k) (got + k)).2)

/-- R59, R61, R242, R245: an orphaned use of a set by JENTER or JWAIT, of a set that is freed or whose home lies above an issuing lane's
depth, is the trap JORPHAN, and so is a REFILL into a set that is freed or whose home is not 0: no set changes, and the lanes resume at
the instruction.
R142, R346: an operand that breaks a limit takes the ENGARG trap before anything is issued: a put that is too long, a multiply or a fill on a bank that
the gang does not own, a request or a job card that is not aligned (log 28, DEDUCED), a tag that is none, a pool that is off. -/
def Obligations.RejoinSetAndEngineArgumentTraps : Prop :=
  (∀ (s : State) (j : BitVec 4) (c : BitVec 7) (f : BitVec 15) (i : Instr) (entry k : Nat), trapReady s entry → s.issue.lanes ≠ 0 →
    ((i = .jenter j ∨ i = .jwait j) ∧ ¬ ownedSet s j.toNat ∨
      i = .refill c f ∧ leadsTo s f k ∧ ((s.cur.jset (c.toNat % 16)).freed = true ∨ (s.cur.jset (c.toNat % 16)).home ≠ 0)) →
    goes (exec i s) fun t =>
      trapped s entry (fun _ => TrapRec.of 12 s.issue.pc s.issue.pc) t ∧ ∀ k, t.cur.jset k = s.cur.jset k) ∧
  (∀ (s : State) (a b c : BitVec 7) (n : BitVec 3) (d : BitVec 1) (entry : Nat),
    let traps := fun (r : Host.Outcome State Fault Refusal) => goes r (trapped s entry fun _ =>
      { TrapRec.of 7 s.issue.pc s.issue.pc with v11 := BitVec.ofNat 32 ((lanesOf s.issue.lanes).headD 0 + 256) })
    let room := fun (cls : Nat) => (s.opsOf s.issue.gang cls).length < 1023
    let pool := (s.ctxAt (s.ctxNum s.issue.gang)).pool
    trapReady s entry →
      (room 3 → 2 ^ 24 < (s.issue.src.sreg c.toNat).toNat → traps (exec (.fput a b c) s)) ∧
      (room 2 → (s.issue.src.pair a.toNat).toNat % 64 ≠ 0 → traps (exec (.lattn a b c) s)) ∧
      (room 1 → (s.issue.src.pair a.toNat).toNat % 128 ≠ 0 → traps (exec (.mjob a d) s)) ∧
      (room 1 → s.owns n.toNat = false → traps (exec (.mma n a b) s) ∧ traps (exec (.mmaz n a b) s) ∧
        traps (exec (.mfill n a b d) s) ∧ traps (exec (.mzero n a) s)) ∧
      (pool.enabled = false ∨ (s.scalar a).toNat = 0 ∨ 4095 < (s.scalar a).toNat →
        traps (exec (.bdrop a c) s) ∧ traps (exec (.bkeep a c) s)) ∧
      (pool.enabled = false ∨ 256 < (s.scalar b).toNat → traps (exec (.balloc a b c) s) ∧ traps (exec (.btent a b c) s)) ∧
      (pool.enabled = false ∨ 512 < (s.scalar b).toNat → traps (exec (.bfree a b c) s)))

/-- R164 to R166, R347: BALLOC and BTENT grant requests whole, in order, from the head of the free list; BFREE returns permanent blocks up to the
first that is none; BDROP returns the blocks of a tag in the order of their grants and BKEEP makes them permanent. Their status goes to
`s`c when they finish; bit 16 of an allocation's status says that the limit of 512 blocks stopped it, also where the free list would have
too (log 28, DEDUCED).
R172: COHREC in a Lamplighter slot gives the first of the statuses 2, 1 and 3 that applies, and else installs the 64 bytes, clears their poison
and makes the line home-owned. A line whose translation at its home is missing or denied gives 2 (log 41, DESIGN CHOICE). -/
def Obligations.BlockPoolAndLineRecovery : Prop :=
  (∀ (s : State) (a b c : BitVec 7) (bs : List Byte),
    let ctx := s.ctxNum s.issue.gang
    let va := s.issue.src.pair a.toNat
    let n := (s.scalar b).toNat
    let pool := fun (t : State) => (t.ctxAt ctx).pool
    let free := freeIndices (pool s)
    let held := (pool s).held
    let result := fun (v : Nat) => begun (.result c.toNat (BitVec.ofNat 32 v)) false s
    let readable := fun (len : Nat) => rangeFault s s.agent va len .read = none ∧ readRange s s.agent va len = .ok bs
    let alloc := fun (tag : Option Nat) (r : Host.Outcome State Fault Refusal) =>
      let rs := poolRequests bs
      let granted := grants rs free.length 0
      let took := ((rs.take granted.1).map Prod.fst).sum
      n ≤ 256 → va.toNat % 8 = 0 → readable (16 * n) →
        (∀ q ∈ rs, q.1 ≤ 65535 ∧ q.2.toNat % 4 = 0 ∧ (q.1 ≠ 0 → rangeFault s s.agent q.2 (4 * q.1) .write = none)) →
        let noted := rs.foldl (fun u q => if q.1 = 0 then u else u.noteRange s.agent q.2 (4 * q.1)) (s.noteRange s.agent va (16 * n))
        ∀ m stop u, grantRequests noted s.agent tag rs 0 = .ok (m, stop, u) → goes r fun t =>
          (m, stop) = granted ∧ result (m + if stop then 65536 else 0) t ∧ t.mem = u.mem ∧
            freeIndices (pool t) = free.drop took ∧
            (pool t).held = held ++ (free.take took).map fun i => { index := i, tag := tag }
    (pool s).enabled = true →
      alloc none (exec (.balloc a b c) s) ∧
      (let tag := (s.issue.src.sreg c.toNat).toNat
       tag ≠ 0 → tag < 4096 → alloc (some tag) (exec (.btent a b c) s)) ∧
      (n ≤ 512 → va.toNat % 4 = 0 → readable (4 * n) → goes (exec (.bfree a b c) s) fun t =>
        let is := (List.range n).map fun i => natLE ((bs.drop (4 * i)).take 4)
        ∃ m, m ≤ n ∧ (is.take m).Nodup ∧ (∀ i ∈ is.take m, { index := i, tag := none } ∈ held) ∧
          (∀ i, is[m]? = some i → { index := i, tag := none } ∉ held ∨ i ∈ is.take m) ∧
          result (m + if m < n then 2 ^ 31 else 0) t ∧ freeIndices (pool t) = free ++ is.take m ∧
          (pool t).held = (held.filter fun x => !(is.take m).contains x.index) ∧ memoryStays s t) ∧
      (let tag := (s.scalar a).toNat
       let mine := held.filter fun x => x.tag == some tag
       tag ≠ 0 → tag ≤ 4095 →
         goes (exec (.bdrop a c) s) (fun t => result mine.length t ∧ freeIndices (pool t) = free ++ mine.map Block.index ∧
           (pool t).held = (held.filter fun x => x.tag != some tag) ∧ memoryStays s t) ∧
         goes (exec (.bkeep a c) s) (fun t => result mine.length t ∧ (pool t).free = (pool s).free ∧
           (pool t).held = (held.map fun x => if x.tag = some tag then { x with tag := none } else x) ∧ memoryStays s t))) ∧
  (∀ (s : State) (a b c : BitVec 7),
    let line := s.issue.src.pair a.toNat
    let data := s.issue.src.pair b.toNat
    let ctx := s.ctxNum s.issue.gang
    let gives := fun (v : Word) (p : State → Prop) => goes (exec (.cohrec a b c) s) fun t => begun (.result c.toNat v) false s t ∧ p t
    let same := fun t => memoryStays s t ∧ t.fab = s.fab
    s.cur.lamp = true → line.toNat % 64 = 0 → data.toNat % 64 = 0 →
      (homedLine s ctx line = none → gives 2 same) ∧
      ∀ pa, homedLine s ctx line = some pa →
        ((∀ p, (s.dirAt (pa / 64)).state ≠ .lost p) → gives 1 same) ∧
        ∀ p, (s.dirAt (pa / 64)).state = .lost p →
          (∀ e va, readRange s s.agent data 64 = .error (e, va) → e ≠ .wait → gives 3 same) ∧
          ∀ bs, readRange s s.agent data 64 = .ok bs → bs.length = 64 → gives 0 fun t =>
            t.bytesAt pa 64 = bs ∧ (∀ x, x < pa ∨ pa + 64 ≤ x → t.byteAt x = s.byteAt x) ∧
              (t.dirAt (pa / 64)).state = .home ∧ (∀ w, pa / 8 ≤ w → w < (pa + 64) / 8 → .memory w ∉ t.poison))

/-! ### Matrix instructions (R143 to R154) -/

/-- A handle's rows, K-steps and element type, and its bytes in the operand buffer (R145). -/
def Sys2Proof.Says.tileFits (s : State) (off desc : Word) : Prop :=
  let rows := desc.toNat % 512
  let type := desc.toNat / 512 % 16
  let steps := desc.toNat / 8192 % 65536
  let scales := if type = 7 then 12 else if 3 ≤ type ∧ type ≤ 6 then 6 else 0
  desc.toNat < 2 ^ 29 ∧ 1 ≤ rows ∧ rows ≤ 256 ∧ type ≤ 8 ∧ 1 ≤ steps ∧ off.toNat % 64 = 0 ∧
    off.toNat + (192 + scales) * (rows * steps) ≤ (s.coreAt s.cur.core).opbSize

/-- R144: MACQ takes a free bank, takes what its wait was given, keeps a bank that is its own, and waits for another's in its owner queue or, with
.try, goes on; its status says which. MREL gives a bank of its own to the next in its queue, with its contents, after the operations
on it.
R145 to R154, R333: MTILE sets a handle; MMA, MMAZ, MFILL, MZERO and MJOB issue their operation on a bank of the gang's with the handles' or the
registers' contents captured; MDRAIN begins a drain of the rows it names once older operations on the bank have retired and the gang's older
drains of it have begun, and, for an owner, the drains of the owners before it have finished; a bank whose owner left the machine can
still be drained by its launch (log 44, DEDUCED); MPROG gives the positions of a job. -/
def Obligations.BankAndMatrixResults : Prop :=
  (∀ (s : State) (n : BitVec 3) (b : BitVec 7) (t : BitVec 1),
    let k := n.toNat
    let bank := fun (u : State) => u.bankAt (domeOf s.cur.core) k
    let me := s.issue.gang
    let status := fun (v : Word) (u : State) => if t = 1 then statusIn s u b.toNat v else registersStay s u
    ((bank s).owner = none → goes (exec (.macq n b t) s) fun u => bank u = { bank s with owner := some me, left := none } ∧ status 0 u) ∧
    ((bank s).owner = some me → k ∈ s.cur.granted → goes (exec (.macq n b t) s) fun u =>
      bank u = bank s ∧ k ∉ u.cur.granted ∧ status 0 u) ∧
    ((bank s).owner = some me → k ∉ s.cur.granted → goes (exec (.macq n b t) s) fun u => bank u = bank s ∧ status 2 u) ∧
    (∀ o, (bank s).owner = some o → o ≠ me →
      (t = 1 → goes (exec (.macq n b t) s) fun u => bank u = bank s ∧ status 1 u) ∧
        (t = 0 → exec (.macq n b t) s = .next (standsAt s (.macq k)))) ∧
    ((bank s).owner ≠ some me → goes (exec (.mrel n) s) fun u => bank u = bank s ∧ registersStay s u) ∧
    ((bank s).owner = some me → s.bankBusy me k = true → goes (exec (.mrel n) s) fun u =>
      (bank u).owner = some me ∧ (bank u).release ≠ none ∧ (bank u).words = (bank s).words ∧ registersStay s u) ∧
    ((bank s).owner = some me → s.bankBusy me k = false → goes (exec (.mrel n) s) fun u =>
      (bank u).words = (bank s).words ∧ registersStay s u ∧
        ((bank s).queue = [] → (bank u).owner = none) ∧
        ∀ h rest, (bank s).queue = h :: rest → h < 2 ^ 61 → (s.gangAt h).place ≠ .saved →
          (bank u).owner = some h ∧ (bank u).queue = rest ∧ k ∈ (u.gangAt h).granted)) ∧
  (∀ (s : State) (n : BitVec 3) (a b : BitVec 7) (f : BitVec 4) (d : BitVec 1),
    let h := (s.scalar a).toNat
    let A := s.scalar a
    let B := s.scalar b
    let row0 := B.toNat
    let ta := s.cur.tile (h % 16)
    let tb := s.cur.tile (h / 16 % 16)
    let die := dieOf s.cur.core
    let first := h % 256
    let count := h / 256 % 128
    let zeros := h / 256 % 512
    let rows := fun (w : Nat) => h < w ∧ 1 ≤ count ∧ count ≤ 64 ∧ first + count ≤ 256 ∧ b.toNat + count ≤ 64
    let mul := fun (zero : Bool) (r : Host.Outcome State Fault Refusal) =>
      let k : OpKind := .mma zero n.toNat ta tb row0
      h < 256 → row0 < 256 → s.owns n.toNat = true → ta.valid = true → tb.valid = true → tb.rows = 32 → ta.ksteps = tb.ksteps →
        row0 + ta.rows ≤ 256 → typesMatch ta.type tb.type = true →
        (ta.ksteps ≤ 4096 → issues 1 k .notNeeded [] s r) ∧ (4096 < ta.ksteps → issues 1 k .waiting [(die, 30)] s r)
    (tileFits s A B →
      (∀ c ∈ s.claims s.cur.core, c.1.launch = s.cur.launch ∨ A.toNat + ({ valid := true, off := A, desc := B } : Tile).bytes ≤ c.2.1 ∨
        c.2.2 ≤ A.toNat) → goes (exec (.mtile a b f) s) fun t =>
      t.cur.tile f.toNat = { valid := true, off := A, desc := B } ∧ (∀ k, k ≠ f.toNat → t.cur.tile k = s.cur.tile k) ∧
        registersStay s t) ∧
    mul false (exec (.mma n a b) s) ∧ mul true (exec (.mmaz n a b) s) ∧
    ((s.issue.src.pair a.toNat).toNat % 128 = 0 →
      issues 1 (.mjob (s.issue.src.pair a.toNat) (d == 1)) .waiting [(die, if d = 1 then 60 else 30)] s (exec (.mjob a d) s)) ∧
    (rows (2 ^ 15) → s.owns n.toNat = true →
      issues 1 (.mfill n.toNat first (d == 1) ((List.range count).map fun i =>
        (List.range 32).map fun l => (s.srcLane l).vreg (b.toNat + i))) .notNeeded [] s (exec (.mfill n a b d) s)) ∧
    (h < 2 ^ 17 → 1 ≤ zeros → zeros ≤ 256 → first + zeros ≤ 256 → s.owns n.toNat = true →
      issues 1 (.mzero n.toNat first zeros) .notNeeded [] s (exec (.mzero n a) s)) ∧
    (let place := s.drainPlace n.toNat
     let turns := s.drainTurns n.toNat
     let mine := place.getD (s.nextOp, 1 + turns.foldl max 0)
     let inOrder := s.owns n.toNat || place.isSome
     let behind := inOrder = true ∧ ((∃ o ∈ s.ops, o.gang = s.issue.gang ∧ o.cls = 1 ∧ o.id < mine.1 ∧ n.toNat ∈ o.banks) ∨
         ∃ x ∈ turns, x < mine.2) ∨
       s.owns n.toNat = true ∧ s.oldDrains s.issue.gang (domeOf s.cur.core) n.toNat = true
     rows (2 ^ 15) →
     ((∃ k, (s.myBank n.toNat).owner = some k ∧ (s.gangAt k).launch = s.cur.launch) ∨
        (s.myBank n.toNat).owner = none ∧ (s.myBank n.toNat).left = some s.cur.launch ∨ place.isSome = true) →
      (behind → exec (.mdrain n a b d) s = .next (standsAt s (.drainOrder n.toNat mine.1 mine.2))) ∧
        (¬ behind → (∀ r ∈ (s.myBank n.toNat).poisoned, r < first ∨ first + count ≤ r) →
          goes (exec (.mdrain n a b d) s) fun t =>
            begun (.mdrain n.toNat first count b.toNat (d == 1)) inOrder s t ∧ memoryStays s t)) ∧
    (let jobs := (s.opsOf s.issue.gang 1).filter fun o => match o.kind with | .mjob _ _ => true | _ => false
     let p : DWord × DWord := match jobs[B.toNat]? with
       | none => (BitVec.allOnes 64, BitVec.allOnes 64)
       | some o => if o.wick = .waiting ∨ o.wick = .notAsked then (0, 0) else (BitVec.ofNat 64 o.pc, BitVec.ofNat 64 o.ps)
     goes (exec (.mprog a b) s) fun t =>
       t.cur.pair a.toNat = p.1 ∧ t.cur.pair (a.toNat + 2) = p.2 ∧
         (∀ m, m < a.toNat ∨ a.toNat + 3 < m → t.cur.sreg m = s.cur.sreg m) ∧ memoryStays s t))

/-! ### Events of gangs (R26, R130, R136, R203, R206, R248, R253 to R257, R362) -/

/-- Every gang but one stays as it was, and so does memory. -/
def Sys2Proof.Says.onlyOf (k : Nat) (s t : State) : Prop := (∀ j, j ≠ k → t.gangAt j = s.gangAt j) ∧ memoryStays s t

/-- The gang's registers: scalar, vector and predicate ones of every lane. -/
def Sys2Proof.Says.sameRegisters (g h : Gang) : Prop :=
  (∀ m, h.sreg m = g.sreg m) ∧ ∀ l m, (h.lane l).vreg m = (g.lane l).vreg m ∧ (h.lane l).pred m = (g.lane l).pred m

/-- R26, R67, R76, R130, R136, R141, R148, R206, R248: what the events do that end a gang's waits: windows that have counted close, a
service, a synchronous instruction, a park, a sleep, a superstep or a snuff hold ends. A service leaves each lane's spill area with the pieces
that it needs (R205). The service ring stands at SRBASE as a virtual address of the context (log 33, DEDUCED), and a record is written whether
a Lamplighter runs or not (log 26, DEDUCED). A saved gang passes a superstep as it is restored (R134). -/
def Obligations.GangWaitEvents : Prop :=
  ∀ (s : State) (k : Nat),
    let g := s.gangAt k
    let here := fun (t : State) => t.gangAt k
    let served := fun (st : Nat) (t : State) => (here t).park = some (.served st)
    (∀ w : Nat → Window, (∀ l, (g.lane l).wins = if l < 32 ∧ (g.lane l).live = true then [w l] else []) → g.swins = [] →
      (∀ l, (w l).left = 0 ∧ (w l).flags &&& g.fptrap = 0 ∧ ((w l).vregs.map Prod.fst).Nodup ∧ ((w l).preds.map Prod.fst).Nodup) →
      goes (exec (.lookaheadResultCommit k) s) fun t => onlyOf k s t ∧ (∀ m, (here t).sreg m = g.sreg m) ∧
        ∀ l, l < 32 → (g.lane l).live = true → ((here t).lane l).wins = [] ∧
          (∀ n v, (n, v) ∈ (w l).vregs → ((here t).lane l).vreg n = v) ∧
          (∀ n, n ∉ (w l).vregs.map Prod.fst → ((here t).lane l).vreg n = (g.lane l).vreg n) ∧
          (∀ n b, (n, b) ∈ (w l).preds → 0 < n → n < 96 → ((here t).lane l).pred n = b) ∧
          ∀ n, n ∉ (w l).preds.map Prod.fst → ((here t).lane l).pred n = (g.lane l).pred n) ∧
    (∀ w, g.swins = [w] → w.left = 0 → (w.sregs.map Prod.fst).Nodup → goes (exec (.lookaheadResultCommit k) s) fun t =>
      onlyOf k s t ∧ (here t).swins = [] ∧ (∀ n v, (n, v) ∈ w.sregs → (here t).sreg n = v) ∧
        ∀ n, n ∉ w.sregs.map Prod.fst → (here t).sreg n = g.sreg n) ∧
    (g.service = true → s.served k = true → g.marked = none → goes (exec (.stackServiceDone k) s) fun t =>
      here t = { g with service := false } ∧ (∀ j, j ≠ k → t.gangAt j = s.gangAt j) ∧ t.mem = (s.writeSpills k).mem ∧
        (∀ l, l < 32 → (g.lane l).live = true →
          ((t.ctxAt (s.ctxNum k)).area (32 * k + l)).length = ((g.lane l).spilled + 4095) / 4096) ∧
        ((∀ l, l < 32 → (g.lane l).live = true → (g.lane l).rbase = 0 ∧ (g.lane l).links.length ≤ (g.lane l).resident) →
          memoryStays s t)) ∧
    (∀ num lanes pc words place, g.park = some (.svcRoom num lanes pc words) → words.length = 8 * (lanesOf lanes).length →
      let ctx := s.ctxNum k
      let c := s.ctxAt ctx
      let size := 64 + 32 * (lanesOf lanes).length
      let start := (c.shead + c.padBytes size) % max 1 c.ringBytes
      c.recordFits size = true → plainRange s (s.lampNear ctx g.core) c.srbase c.ringBytes place →
      goes (exec (.svcRingRoom k) s) fun t =>
        (here t).park = some (.svcReply lanes start) ∧
          recordStands t place start ctx num g.num pc c.req lanes (fun r n => words.getD (8 * r + n) 0) ∧
          (∀ a, (∀ i, i < c.ringBytes → a ≠ place i) → t.byteAt a = s.byteAt a) ∧
          t.out = s.out ++ [.ctxVector ctx] ∧ sameRegisters g (here t) ∧ ∀ j, j ≠ k → t.gangAt j = s.gangAt j) ∧
    (∀ reg queue image u, g.park = some (.enq reg queue image) → s.lampsFor k = true → s.jobWaits (.service k) = false →
      (s.queueAt queue).openTo (s.ctxNum k) = true → s.enqRoom queue = true → s.enqueue queue g.launch (2 ^ 62) image = .ok u →
      goes (exec (.enqParkRoom k) s) fun t =>
        (here t).sreg reg = 0 ∧ served 4 t ∧ t.mem = u.mem ∧ (t.queueAt queue).widx = (s.queueAt queue).widx + 1) ∧
    (∀ c st, g.place = .parked c → g.park = some (.served st) → s.served k = true →
      (s.launchAt g.launch).phase = .running → s.slotFor c g = true → goes (exec (.gangUnpark k) s) fun t =>
        here t = { g with place := .resident g.core, park := none } ∧ onlyOf k s t) ∧
    (g.place ≠ .saved → goes (exec (.sleepTimeout k) s) fun t => onlyOf k s t ∧ ∀ l til r e, l < 32 → (g.lane l).live = true →
      (g.lane l).wait = .sleep til r e →
        (s.now < til → (here t).lane l = g.lane l) ∧
          (til ≤ s.now → (here t).sreg r = 0 ∧ (here t).lane l = { g.lane l with wait := .ready, pc := e } ∧
            (here t).wake = false)) ∧
    (∀ h, g.hold = some h → h.til ≤ s.now →
      (h.pending = none → goes (exec (.snuffHoldExpiry k) s) fun t => here t = { g with hold := none } ∧ onlyOf k s t) ∧
        ∀ r, h.pending = some r → g.wrap = false → g.alive = true → g.delaysSnuff = false → g.retries = [] →
          goes (exec (.snuffHoldExpiry k) s) fun t => (here t).wrap = true ∧ (here t).hold = none ∧
            ∀ l, l < 32 → (g.lane l).live = true → ((here t).lane l).pc = (s.launchAt g.launch).pkt.snuffe) ∧
    (∀ y ys, g.syncs = y :: ys → g.marked = none → ((∃ reg v, y.kind = .result reg v) ∨ s.portTaken k = false) →
      goes (exec (.synchronousInstructionFinish k) s) fun t =>
      (here t).syncs = ys ∧ (∀ j, j ≠ k → t.gangAt j = s.gangAt j) ∧ memoryStays s t ∧
        (∀ l e, l < 32 → y.lanes.getLsbD l = true → (g.lane l).wait = .engine e →
          ((here t).lane l).wait = .ready ∧ ((here t).lane l).pc = e) ∧
        (∀ reg v, y.kind = .result reg v → (here t).sreg reg = v ∧ ∀ m, m ≠ reg → (here t).sreg m = g.sreg m) ∧
        ∀ bank row0 n r clear, y.kind = .mdrain bank row0 n r clear → r + n ≤ 64 →
          let word := fun (u : State) i c => Table.get 0 (32 * (row0 + i) + c) (u.bankAt (domeOf g.core) bank).words
          (∀ i c, y.rows ≤ i → i < n → c < 32 → y.lanes.getLsbD c = true → ((here t).lane c).vreg (r + i) = word s i c) ∧
            (∀ c m, m < r + y.rows ∨ r + n ≤ m ∨ ¬ (c < 32 ∧ y.lanes.getLsbD c = true) → ((here t).lane c).vreg m = (g.lane c).vreg m) ∧
            (∀ i c, i < n → c < 32 → word t i c = if clear = true ∧ y.rows ≤ i then 0 else word s i c) ∧
            ∀ m, (here t).sreg m = g.sreg m) ∧
    ∀ (group : Nat) (st : GroupState),
      let ms := s.stepMembers k group
      let waits := fun (l : Lane) => l.live = true ∧ ∃ e, l.wait = .sstep group e
      (s.launchAt k).groups.find? (fun x => x.index == group) = some st → ms ≠ [] → ms.Nodup →
        (∀ m ∈ ms, (s.gangAt m).stepOf group = st.step ∧ ∃ l, l < 32 ∧ waits ((s.gangAt m).lane l)) →
        (st.step % 2 = 1 → ∀ o ∈ s.ops, o.gang ∈ ms → o.cls = 0 ∨ o.cls = 3 → (group, st.step) ∉ o.steps) →
        goes (exec (.meridianRelease k group) s) fun t =>
          (t.launchAt k).groups.find? (fun x => x.index == group) = some { st with step := st.step + 1 } ∧
            (∀ m ∈ ms, (s.gangAt m).place ≠ .saved → ∀ l e, l < 32 → ((s.gangAt m).lane l).live = true →
              ((s.gangAt m).lane l).wait = .sstep group e →
              ((t.gangAt m).lane l).wait = .ready ∧ ((t.gangAt m).lane l).pc = e) ∧
            (∀ m, m ∉ ms ∨ (s.gangAt m).place = .saved → t.gangAt m = s.gangAt m) ∧ memoryStays s t

/-- A gang is saved whole: its place, its images of banks, operand buffer and partners apart everything of it stays, every lane included, and
each bank that it owned stands in its image (R253). -/
def Sys2Proof.Says.savedWhole (s t : State) (k : Nat) : Prop :=
  let g := s.gangAt k
  let h := t.gangAt k
  h = { g with place := .saved, lanes := h.lanes, savedBanks := h.savedBanks, savedReleases := h.savedReleases, savedOpbuf := h.savedOpbuf,
               savedPartners := h.savedPartners, image := h.image, granted := h.granted, retries := [] } ∧
    (∀ l, h.lane l = { g.lane l with wait := (h.lane l).wait }) ∧
    ∀ b, b < 8 → (s.bankAt (domeOf g.core) b).owner = some k → (b, (s.bankAt (domeOf g.core) b).words) ∈ h.savedBanks

/-- R134, R203, R218, R253 to R257, R362: a new gang that waits alone takes its place on the first core with room, a saved one comes back with its
registers, its waits tested again; a gang at the head of its die's list that has waited its time, or that goes into wrap-up, takes the place
of victims, of which as many are saved, in their order, as it needs; each is saved with its co-resident group. A suspended context has no
gang on a core: what stood there is saved whole. That the first named core that fits is taken, else the first core, and that victims are
taken until the gang fits, is log 25, DEDUCED (DEDUCED). -/
def Obligations.PlacementEvents : Prop :=
  ∀ (s : State) (k die : Nat) (cores : List Nat) (ctx : Nat),
    let g := s.gangAt k
    let finds := fun (c : Nat) (room : Nat × Core) =>
      (coresFrom die cores).findSome? (fun c => (s.roomOn c g).map fun r => (c, r)) = some (c, room)
    let alone := s.lampsOn die = true ∧ s.waitingList die = [k] ∧ s.batchGroup k = none
    (∀ c room, alone → s.placing k = true → g.place = .unplaced → finds c room → goes (exec (.gangPlacement die cores) s) fun t =>
      t.gangAt k = { g with place := .resident c, core := c, scratchBase := room.1 } ∧ t.coreAt c = room.2 ∧ onlyOf k s t) ∧
    (∀ c room, alone → (match cores with | x :: _ => dieOf x | [] => (s.launchOf k).die) = die → g.place = .saved →
      g.park = none → g.marked = none → finds c room → goes (exec (.gangRestore k cores) s) fun t =>
        (t.gangAt k).place = .resident c ∧ (t.gangAt k).core = c ∧ (t.gangAt k).scratchBase = room.1 ∧
          (∀ l m, ((t.gangAt k).lane l).vreg m = (g.lane l).vreg m ∧ ((t.gangAt k).lane l).pred m = (g.lane l).pred m) ∧
          ((∀ l til r e, (g.lane l).wait ≠ .sleep til r e) → sameRegisters g (t.gangAt k)) ∧
          (∀ l til r e, l < 32 → (g.lane l).live = true → (g.lane l).wait = .sleep til r e →
            (g.wake = true → ((t.gangAt k).lane l).wait = .ready ∧ ((t.gangAt k).lane l).pc = e ∧ (t.gangAt k).sreg r = 1) ∧
              (g.wake = false → til ≤ s.now → ((t.gangAt k).lane l).wait = .ready ∧ ((t.gangAt k).lane l).pc = e ∧ (t.gangAt k).sreg r = 0)) ∧
          (∀ x ∈ (s.launchAt g.launch).groups, g.inGroup x.index = true → g.stepOf x.index < x.step → ∀ l e, l < 32 →
            (g.lane l).live = true → (g.lane l).wait = .sstep x.index e →
              ((t.gangAt k).lane l).wait = .ready ∧ ((t.gangAt k).lane l).pc = e) ∧ memoryStays s t) ∧
    (∀ v since, s.lampsOn die = true → s.waitingList die = [k] → (s.dieAt die).headSince = some (k, since) →
      since + 1000 * max 1 s.pkg.prewait ≤ s.ran → (s.gangAt v).onCore = true →
      let cs := coresFrom die []
      s.victims cs k = [v] → s.batchOf v = [v] → s.seat cs (s.batchOf k) = none → s.canSaveBatch v = true →
      (∀ l, ((s.gangAt v).lane l).wins = []) → (s.gangAt v).swins = [] →
      ((s.saveGang v).seat cs ((s.saveGang v).batchOf k)).isSome = true → (s.gangAt v).place ≠ .saved →
      goes (exec (.prewaitExpiry die) s) fun t => t = s.saveGang v ∧ (t.gangAt v).place = .saved) ∧
    (let cs := coresFrom die []
     let vs := s.victims cs k
     let after := fun (n : Nat) => (vs.take n).foldl (fun (u : State) v =>
       if (u.gangAt v).place ≠ .saved ∧ u.canSaveBatch v = true then u.saveBatch v else u) s
     let fits := fun (n : Nat) => ((after n).seat cs ((after n).batchOf k)).isSome = true
     (∀ v, v ∈ vs ↔ (∃ c ∈ cs, v ∈ s.gangsOn c) ∧ ∀ w ∈ s.batchOf v, (s.gangAt w).wrapping = false ∧ (s.gangAt w).holdOpen s.now = false ∧
       (g.wrapping = true ∨ (s.launchOf w).pkt.cls < (s.launchOf k).pkt.cls)) ∧
     ∀ rest, s.lampsOn die = true → s.waitingList die = k :: rest →
       (g.wrapping = true ∨ ∃ since, (s.dieAt die).headSince = some (k, since) ∧ since + 1000 * max 1 s.pkg.prewait ≤ s.ran) →
       (∀ n, n ≤ vs.length → fits n → (∀ j, j < n → ¬ fits j) → exec (.prewaitExpiry die) s = .next (after n)) ∧
         (rest = [] → (∀ n, n ≤ vs.length → ¬ fits n) → exec (.prewaitExpiry die) s = .next s)) ∧
    (∀ v, (s.ctxAt ctx).suspend = false → (s.gangs.map Prod.fst).Pairwise (· < ·) → v ∈ s.onCores ctx →
      (∀ w ∈ s.onCores ctx, s.batchOf w = s.batchOf v) → s.canSaveBatch v = true →
      (∀ w ∈ s.onCoreBatch v, (s.gangAt w).liveMask ≠ 0 ∧ (s.gangAt w).swins = [] ∧
        ∀ l, ((s.gangAt w).lane l).wins = [] ∧ ((s.gangAt w).lane l).restartable = false) →
      goes (exec (.suspend ctx) s) fun t => (t.ctxAt ctx).suspended = true ∧ ∀ w ∈ s.onCoreBatch v, savedWhole s t w) ∧
    ((s.ctxAt ctx).suspend = false → goes (exec (.suspend ctx) s) fun t =>
      (t.ctxAt ctx).suspend = true ∧ ((t.ctxAt ctx).suspended = true ↔ t.onCores ctx = [])) ∧
    goes (exec (.suspendClear ctx) s) fun t =>
      t.ctxAt ctx = { s.ctxAt ctx with suspend := false, suspended := false, noroom := false } ∧ t.gangs = s.gangs ∧ t.mem = s.mem

/-! ### Events of engines and of power (R128, R138, R144 to R153, R158 to R162, R340, R344, R365, R366, R280 to R282) -/

/-- The state in which the engine tries the unit at the committed position: nothing of it waits, and P_s stands beyond it. -/
def Sys2Proof.Says.trying (s : State) (o : Op) : State :=
  (s.unplan (2 ^ 61 + o.id)).updOp o.id fun _ => { o with ps := max o.ps (o.pc + 1) }

/-- The packet of a fabric operation that stands next, the bytes it reads from its source apart (R168, R312, R321); a GET carries as many
zeros as it asks for (log 49, DESIGN CHOICE). -/
def Sys2Proof.Says.nextPacket (s : State) (o : Op) (data : List Byte) : Packet :=
  let p := { blankPacket with xfer := o.xfer }
  match o.kind with
  | .fput tgt _ n _ _ =>
    let b := blockAt tgt.toNat n o.sent
    { p with addr := tgt + BitVec.ofNat 64 b.1, aux := BitVec.ofNat 32 b.1, data := data }
  | .fget d r n w _ =>
    let b := blockAt (if w.scratch then d.toNat % 2 ^ 32 else d.toNat) n o.sent
    { p with kind := 2, addr := r + BitVec.ofNat 64 b.1, aux := BitVec.ofNat 32 b.1, data := List.replicate b.2 0 }
  | .fatom r op a b _ _ =>
    let n := if op / 16 % 2 = 1 then 8 else 4
    { p with kind := 3, addr := r, op := op, data := bytesLE n a.toNat ++ bytesLE n b.toNat }
  | .fresv _ bytes _ => { p with kind := 6, aux := BitVec.ofNat 32 bytes }
  | .fred _ _ n g code _ number =>
    let rank := ((groupEntry s (s.launchAt o.launch).ctx g).map fun e => e.2.1).getD 0
    { p with kind := 4, xfer := g, addr := BitVec.ofNat 64 (256 * o.sent + n * 2 ^ 32), op := code,
             aux := BitVec.ofNat 32 (rank + number * 65536), data := data }
  | .fbulk _ tgt n _ _ =>
    let b := blockAt tgt.toNat n o.sent
    { p with drop := true, addr := tgt + BitVec.ofNat 64 b.1, aux := BitVec.ofNat 32 b.1, data := data }
  | _ => p

/-- Where the next packet of a fabric operation reads its bytes, and how many. -/
def Sys2Proof.Says.packetSource (o : Op) : Option (DWord × Nat) :=
  match o.kind with
  | .fput tgt src n _ _ | .fbulk src tgt n _ _ =>
    let b := blockAt tgt.toNat n o.sent
    some (src + BitVec.ofNat 64 b.1, b.2)
  | .fred _ src n _ _ _ _ => some (src + BitVec.ofNat 64 (256 * o.sent), min 256 (n - 256 * o.sent))
  | _ => none

/-- R128, R138, R139, R149, R150, R152, R156, R340, R344, R366: an engine finishes the unit at the committed position and passes it, a job's
card is read and its start checked, a twin job takes its partner banks, a LATTN asks for its wick, a Lantern finishes the request at the head of its
queue, and an operation that is over retires. That one event commits the unit at P_c, units in order, and how the Lanterns' queues are served
are the model's readings (log 29, DEDUCED); the checks of FULL and EMPTY are made as the card is read (log 28, DEDUCED).
R138, R146, R151, R158, R159, R163, R168, R170: what the unit of an operation writes as its engine commits it: a K-step of MMA or a step of
MJOB its rows of the bank, an entry of BLIST or a row of BKICK the bytes of its source and their arrival, a triple of LATTN its 528 bytes of the
window and their arrival, and a fabric operation its next packet. -/
def Obligations.EngineEvents : Prop :=
  (∀ (s : State) (id : Nat) (o : Op), s.opAt id = some o →
    let goesOn := fun (r : Host.Outcome State Fault Refusal) (x : Op) (p : State → Prop) => goes r fun t => t.opAt id = some x ∧ p t
    let passed := { o with pc := o.pc + 1, ps := max o.ps (o.pc + 1) }
    let dome := domeOf o.core
    let runs := s.opRuns o = true ∧ o.cancelling = false
    (∀ b row0 add rows, o.kind = .mfill b row0 add rows → o.cls = 1 → runs → o.pc < rows.length → (rows.getD o.pc []).length = 32 →
      s.bankTurn o b = true → s.arrayHeld o dome = false → (s.bankAt dome b).owner = some o.gang → s.arrayGone dome = false →
      row0 + o.pc ∉ (s.bankAt dome b).poisoned →
      let word := fun (u : State) r c => Table.get 0 (32 * r + c) (u.bankAt dome b).words
      goesOn (exec (.engineUnitCommit id) s) passed fun t => memoryStays s t ∧ t.gangs = s.gangs ∧ ∀ r c, c < 32 →
        let new := (rows.getD o.pc []).getD c 0
        word t r c = if r = row0 + o.pc then (if add = true then add32 (word s r c) new else new) else word s r c) ∧
    (∀ d r n, o.kind = .bcopy d r n → o.cls = 0 → runs → d.space = 2 → r.space = 2 → o.pc < o.units →
      d.addr.toNat + n ≤ 2 ^ 32 → r.addr.toNat + n ≤ 2 ^ 32 →
      (d.addr.toNat + n ≤ r.addr.toNat ∨ r.addr.toNat + n ≤ d.addr.toNat) →
      let b := blockAt d.addr.toNat n o.pc
      goesOn (exec (.engineUnitCommit id) s) passed fun t => memoryStays s t ∧ t.gangs = s.gangs ∧
        t.opbufBytes o.core (d.addr.toNat + b.1) b.2 = s.opbufBytes o.core (r.addr.toNat + b.1) b.2 ∧
        ∀ x, x < d.addr.toNat + b.1 ∨ d.addr.toNat + b.1 + b.2 ≤ x →
          Table.get 0 x (t.coreAt o.core).opbuf = Table.get 0 x (s.coreAt o.core).opbuf) ∧
    (∀ rest, s.opsOf o.gang o.cls = o :: rest → o.isOver = true → (s.gangAt o.gang).place ≠ .saved →
      goes (exec (.engineOpRetire o.gang o.cls) s) fun t => (∀ p ∈ t.ops, p.id ≠ o.id) ∧ memoryStays s t ∧
        (t.launchAt o.launch).spawn = (s.launchAt o.launch).spawn - 1 ∧
        ∀ cause unit, o.status = .failed cause unit → (s.gangAt o.gang).alive = true →
          (t.gangAt o.gang).engfails = (s.gangAt o.gang).engfails ++ [{ cls := o.cls, cause := cause, unit := unit }]) ∧
    (∀ card twin bs, o.kind = .mjob card twin → s.opOn o = true → o.cancelling = false → o.card = none →
      readRange s (s.opAgent o) card 128 = .ok bs →
      let c := Card.ofBytes bs
      let sound := fun (ref : DWord) => resolveScratch s o.gang (refHigh ref) ≠ .groupFault ∧ ref.toNat % 2 ^ 32 % 16 = 0 ∧
        ref.toNat % 2 ^ 32 + 16 * c.slots twin ≤ (s.gangAt o.gang).scratchSize
      (c.ok = true → sound c.full → sound c.empty →
        goes (exec (.jobCardRead id) s) fun t => memoryStays s t ∧
          ∃ x, t.opAt id = some x ∧ x = { o with card := some c, partners := x.partners }) ∧
      (c.ok = true → ¬ (sound c.full ∧ sound c.empty) →
        goes (exec (.jobCardRead id) s) fun t => ∃ x, t.opAt id = some x ∧ x.status = .failed 9 o.pc) ∧
      (c.ok = false → goes (exec (.jobCardRead id) s) fun t => ∃ x, t.opAt id = some x ∧ x.status = .failed 3 o.pc)) ∧
    (∀ card twin c, o.kind = .mjob card twin → runs → o.card = some c → o.started = false →
      (s.startFault o c twin = none → goesOn (exec (.mjobStart id) s) { o with started := true } (memoryStays s)) ∧
        ∀ cause, s.startFault o c twin = some cause →
          goes (exec (.mjobStart id) s) fun t => ∃ x, t.opAt id = some x ∧ x.status = .failed cause o.pc) ∧
    (∀ b, o.wanted = some b → runs → o.started = true →
      let bank := fun (u : State) => u.bankAt (domeOf (partnerCore o.core)) b
      (bank s).owner = none → (bank s).queue = [] →
      goesOn (exec (.twinPartnerBankAcquire id) s) { o with partners := o.partners ++ [b] } fun t =>
        (bank t).owner = some o.gang ∧ (bank t).heldFor = some o.id ∧ (bank t).words = (bank s).words) ∧
    (∀ list n arr es ks, o.kind = .lattn list n arr → s.opOn o = true → o.cancelling = false → o.wick = .notAsked →
      s.readEntries o list n = .ok es → s.stacksOf o es = .ok ks →
      (ks = [] → goesOn (exec (.lattnWickRequest id) s) { o with prepared := true, entries := es, wick := .granted } fun t =>
        memoryStays s t ∧ ∀ d, t.dieAt d = (s.record (dieOf o.core) 5 0 0).dieAt d) ∧
        (ks ≠ [] → goes (exec (.lattnWickRequest id) s) fun t =>
          (∃ x, t.opAt id = some x ∧ x.prepared = true ∧ x.entries = es ∧ x.wick = .waiting) ∧
            t.chandler.queue = s.chandler.queue ++
              [{ op := id, watts := ks.eraseDups.map fun k => (4 + k, 60), since := s.ran }])) ∧
    ∀ unit e i r bs touched unserved, tripleOf o.entries unit = some (e, i) → runs → o.pc ≤ unit → (∀ x ∈ o.triples, x.unit ≠ unit) →
      s.lanternQueue.find? (fun q => q.op == id && q.unit == unit) = some r →
      (∀ n, s.servedBy r = some n → s.lanternQueue.find? (fun q => s.servedBy q == some n) = some r) →
      (s.unplan (2 ^ 61 + id)).computeTriple o e i r = .ok (bs, touched, unserved) →
      goesOn (exec (.lanternTriple id unit) s)
        { o with triples := o.triples ++ [{ unit := unit, since := r.since, bytes := bs, touched := touched, unserved := unserved }] } fun t =>
        t.lanternQueue = s.lanternQueue.erase r ∧ t.gangs = s.gangs ∧ memoryStays s t) ∧
  (∀ (s : State) (id : Nat) (o : Op), s.opAt id = some o → s.opRuns o = true → o.cancelling = false →
    let u := trying s o
    let dome := domeOf o.core
    let now := exec (.engineUnitCommit id) s
    let word := fun (u : State) dome b r c => Table.get 0 (32 * r + c) (u.bankAt dome b).words
    let passed := { o with pc := o.pc + 1, ps := max o.ps (o.pc + 1) }
    let pass := fun (t : State) => t.updOp id fun x => { x with pc := x.pc + 1, ps := max x.ps (x.pc + 1) }
    (∀ zero b ta tb row0, o.kind = .mma zero b ta tb row0 → o.cls = 1 → o.pc < ta.ksteps →
      s.bankTurn o b = true → s.arrayHeld o dome = false → (o.group = 0 → s.bankReady o dome b row0 ta.rows = .ok ()) →
      (o.group ≠ 0 → o.brows.length = 32) →
      goes now fun t => t.opAt id = some { passed with group := 0, brows := [] } ∧ memoryStays s t ∧ t.gangs = s.gangs ∧ ∀ r c, c < 32 →
        word t dome b r c =
          if row0 + 32 * o.group ≤ r ∧ r < row0 + ta.rows then
            cell ta.type tb.type (if zero = true ∧ o.pc = 0 then 0 else word s dome b r c) (s.tileStep o.core ta (r - row0) o.pc)
              (if o.group = 0 then s.tileStep o.core tb c o.pc else o.brows.getD c ([], []))
          else word s dome b r c) ∧
    (∀ card twin c x, o.kind = .mjob card twin → o.cls = 1 → o.card = some c → o.pc < c.steps → o.started = true → o.wanted = none →
      let j := c.step twin o.pc
      let core := o.stepCore j
      let off := fun (ref : DWord) => (ref.toNat + 16 * j.slot) % 2 ^ 32
      o.loadOf o.pc = some x → o.pass < c.kc → s.arrayHeld o (domeOf core) = false → (∀ b ∈ c.banks, s.bankTurn o b = true) →
      (o.group ≠ 0 → o.brows.length = 32) →
      ((o.runAt o.pc).begun = true ∨
        (j.side = 1 → s.arrayGone (domeOf core) = false) ∧ s.bankReady o (domeOf core) j.bank 0 c.m = .ok () ∧
          ∃ ekey, s.opWindow o (refPlus c.empty (16 * j.slot)) = .ok ekey ∧
            (j.first = true → j.use ≠ 0 → (s.barAt ekey (off c.empty)).phase = (j.use % 2 == 1))) →
      ∀ fkey, s.opWindow o (refPlus c.full (16 * j.slot)) = .ok fkey →
        goes now fun t => memoryStays s t ∧ (∃ y, t.opAt id = some y ∧ y.pc = o.pc + 1 ∧ y.status = .active) ∧
          (j.last = true → t.barAt fkey (off c.full) = (s.barAt fkey (off c.full)).arrive 1 0) ∧
          (j.last = false → t.gangs = s.gangs) ∧
          ∀ r k, k < 32 → word t (domeOf core) j.bank r k =
            if r < c.m then
              ((List.range c.kc).drop (if r < 32 * o.group then o.pass + 1 else o.pass)).foldl (fun acc q =>
                cell c.atype c.btype (if c.zfirst = true ∧ j.first = true ∧ q = 0 then 0 else acc)
                  (s.stagedStep core c j.half r c.atype q (x.ascales.getD r []))
                  (if q = o.pass ∧ o.group ≠ 0 then o.brows.getD k ([], [])
                   else s.stagedStep core c j.half (c.m + k) c.btype q (x.bscales.getD k []))) (word s (domeOf core) j.bank r k)
            else word s (domeOf core) j.bank r k) ∧
    (∀ list n arr es dkey skey data v, o.kind = .blist list n arr → o.cls = 0 → o.pc < n →
      let va := list + BitVec.ofNat 64 (32 * o.pc)
      readRange u (u.opAgent o) va 32 = .ok es →
      let d : Endpoint := { space := field es 20 1 % 4, addr := BitVec.ofNat 64 (field es 0 8) }
      let r : Endpoint := { space := field es 20 1 / 4 % 4, addr := BitVec.ofNat 64 (field es 8 8) }
      let len := field es 16 4
      let opb := (s.coreAt o.core).opbSize
      len < 2 ^ 28 → d.fits len opb = true → r.fits len opb = true →
      let named := (if d.space = 1 then [d.addr] else []) ++ if r.space = 1 then [r.addr] else []
      let w := (u.noteRange (u.opAgent o) va 32).updOp id fun x =>
        { x with named := x.named ++ named.filter fun a => !x.named.contains a }
      w.refKey o d len = .ok dkey → w.refKey o r len = .ok skey →
      (Rows.mk d r dkey skey len 1 0 0).overlap = false → w.readEnd o r skey 0 len = .ok data →
      (w.noteEndpoint o r 0 len).writeEnd o d dkey 0 data = .ok v →
      let ends := fun (t : State) => if o.pc + 1 = n then (pass t).freeWindows o.launch else pass t
      (field es 21 1 % 2 = 0 ∨ arr = none → now = .next (ends v)) ∧
        ∀ a key, arr = some a → field es 21 1 % 2 = 1 → w.opWindow o a = .ok key →
          now = .next (ends (v.arriveAt key (a.toNat % 2 ^ 32) 0 len))) ∧
    (∀ g ikey dkey akey ib data v, o.kind = .bkick g → o.cls = 0 → o.pc < g.rows →
      (g.dst.space = 1 → 0 ≤ (g.dst.low 0 : Int) + (rowSpan g.rowBytes g.rows g.dstStride).1 ∧
        (g.dst.low 0 : Int) + (rowSpan g.rowBytes g.rows g.dstStride).2 ≤ (s.gangAt o.gang).scratchSize) →
      u.refKey o g.dst 0 = .ok dkey → u.refKey o g.idx (4 * g.rows) = .ok ikey → (g.arrive = true → u.opRef o g.arr 16 16 = .ok akey) →
      u.readEnd o g.idx ikey (4 * o.pc) 4 = .ok ib →
      let w := u.noteEndpoint o g.idx (4 * o.pc) 4
      let row : Int := g.dst.low 0 + o.pc * g.dstStride
      let d : Endpoint := { g.dst with addr := if g.dst.space = 1 then refHigh g.dst.addr ++ BitVec.ofInt 32 row else BitVec.ofInt 64 row }
      let r : Endpoint := { space := 0, addr := g.src + BitVec.ofNat 64 (natLE ib * g.srcStride) }
      (Rows.mk d r dkey 0 g.rowBytes 1 0 0).overlap = false → w.readEnd o r 0 0 g.rowBytes = .ok data →
      (w.noteEndpoint o r 0 g.rowBytes).writeEnd o d dkey 0 data = .ok v →
      now = .next (pass (if g.arrive = true then v.arriveAt akey (g.arr.toNat % 2 ^ 32) 0 g.rowBytes else v))) ∧
    (∀ ref key, o.kind = .bkickAt ref → o.cls = 0 → o.pc < 1 → s.opWindow o ref = .ok key →
      let off := ref.toNat % 2 ^ 32
      let g := Gather.ofBytes (s.scratchBytes key off 64)
      scratchPoisoned s key off 64 = false →
      (gatherCheck g (s.coreAt o.core).opbSize = true → goes now fun t => t.opAt id = some { o with kind := .bkick g } ∧ memoryStays s t ∧
        t.gangs = s.gangs) ∧
      (gatherCheck g (s.coreAt o.core).opbSize = false → goes now fun t => ∃ x, t.opAt id = some x ∧ x.status = .failed 6 o.pc)) ∧
    (∀ list n arr e i x key, o.kind = .lattn list n arr → o.cls = 2 → o.pc < o.units → tripleOf o.entries o.pc = some (e, i) →
      o.triples.find? (fun t => t.unit == o.pc) = some x → s.opWindow o arr = .ok key →
      let at_ := e.toff + 528 * i
      (s.gangAt key).inWindow at_ 528 = true → scratchPoisoned s key at_ 528 = false →
      let w := (u.putScratch key at_ x.bytes).arriveAt key (arr.toNat % 2 ^ 32) 0 528
      let rest := { passed with triples := o.triples.filter fun t => t.unit != o.pc }
      let same := fun (t : State) => t.gangs = w.gangs ∧ memoryStays s t
      (x.unserved = false → field x.bytes 8 4 ≠ 2 → o.erred = none → goes now fun t => same t ∧ t.opAt id = some rest) ∧
        (x.unserved = true → o.erred = none → o.pc + 1 < o.units → goes now fun t => same t ∧
          t.opAt id = some { rest with erred := some o.pc }) ∧
        (x.unserved = true → o.erred = none → o.units ≤ o.pc + 1 → goes now fun t => same t ∧
          ∃ y, t.opAt id = some y ∧ y.status = .failed 2 o.pc)) ∧
    (∀ k data, o.cls = 3 → s.opFlow o = some k → o.sent < o.packets → s.flowBusy o k = false → o.begun (o.sent + 1) ≤ o.pc + 4 →
      let w := s.unplan (2 ^ 61 + o.id)
      (match packetSource o with
       | some (a, n) => readRange w (w.opAgent o) a n = .ok data
       | none => data = []) →
      let v := match packetSource o with | some (a, n) => w.noteRange (w.opAgent o) a n | none => w
      ((∃ tgt src n r a, o.kind = .fput tgt src n r a) ∨ (∃ d r n x a, o.kind = .fget d r n x a) ∨
        (∃ r op a b x y, o.kind = .fatom r op a b x y) ∨ (∃ r n x, o.kind = .fresv r n x) ∨
        (∃ d r n g c x m, o.kind = .fred d r n g c x m) →
        now = .next ((v.send (dieOf o.core) k (some id) o.sent (nextPacket w o data)).updOp id Op.sentOne)) ∧
      (∀ src tgt n x sig, o.kind = .fbulk src tgt n x sig → s.orderedBefore o k = false → (v.flowPort (v.outFlow k)).isSome = true →
        v.carrier o (blockAt tgt.toNat n o.sent).2 k = none →
        now = .next ((v.sendFree (dieOf o.core) k (nextPacket w o data)).updOp id Op.sentOne))))

/-- R280 to R282, R365, R366, R371: the head of the Chandler's queue is granted when it fits the cap, or when it has waited a period, and
then the clock of an overloaded die that it draws from is lowered; a period takes over the measured draws and the cap, and gives back the
clock of a die whose draw fits its budget; a region swap starts and completes. That a die is overloaded when its reservations and
its draw outside wicks exceed its budget is the model's reading (log 35, DEDUCED). -/
def Obligations.PowerAndRemapEvents : Prop :=
  ∀ (s : State) (v : Word),
    let c := s.chandler
    let need := fun (w : WickRequest) => ((c.granted ++ [w]).flatMap WickRequest.watts |>.map Prod.snd).sum + c.nonWick.sum
    let granted := fun (w : WickRequest) rest (t : State) =>
      t.chandler = { c with queue := rest, granted := c.granted ++ [w] } ∧ memoryStays s t ∧ t.gangs = s.gangs ∧
        ∀ o, s.opAt w.op = some o → t.opAt w.op = some { o with wick := .granted }
    let domains := fun (d : Nat) => [d, 4 + 2 * d, 5 + 2 * d]
    let dieSum := fun d (f : Nat → Nat) => ((domains d).map f).sum
    let reserved := fun (rs : List WickRequest) x => (((rs.flatMap WickRequest.watts).filter fun w => w.1 == x).map Prod.snd).sum
    let heavy := fun (k : Chandler) d => dieSum d (fun x => k.budget.getD x 0) < dieSum d fun x => reserved k.granted x + k.nonWick.getD x 0
    (∀ w rest, c.queue = w :: rest →
      (need w ≤ c.cap → goes (exec .wickGrant s) fun t => granted w rest t ∧ ∀ d, (t.dieAt d).slowed = (s.dieAt d).slowed) ∧
        (c.cap < need w → w.since + 1000000 ≤ s.ran → goes (exec .wickGrant s) fun t => granted w rest t ∧
          ∀ d, d < 4 → ((t.dieAt d).slowed = true ↔
            (s.dieAt d).slowed = true ∨ (∃ x ∈ w.watts, x.1 ∈ domains d) ∧ heavy t.chandler d)) ∧
        (c.cap < need w → s.ran < w.since + 1000000 → exec .wickGrant s = .next s)) ∧
    (∀ draw nonWick swaps, c.periodStart + 1000000 ≤ s.ran → goes (exec (.chandlerPeriod draw nonWick swaps) s) fun t =>
      (∀ d, d < 12 → t.chandler.draw.getD d 0 = draw.getD d 0 ∧ t.chandler.nonWick.getD d 0 = nonWick.getD d 0) ∧
        t.chandler.cap = max 1000 (min 2800 s.pkg.pwrcap.toNat) ∧ t.chandler.queue = c.queue ∧ t.chandler.granted = c.granted ∧
        (∃ n, t.chandler.periodStart = c.periodStart + 1000000 * n) ∧ t.chandler.periodStart ≤ s.ran ∧
        s.ran < t.chandler.periodStart + 1000000 ∧ memoryStays s t ∧ t.gangs = s.gangs ∧
        (∀ d, d < 4 → (t.dieAt d).slowed = ((s.dieAt d).slowed &&
          decide (dieSum d (fun x => t.chandler.budget.getD x 0) < dieSum d fun x => t.chandler.draw.getD x 0))) ∧
        t.pkg.accesses = [] ∧ ∀ p, swaps = [p] → s.maySwap p = true → Table.find p.stack t.pkg.swaps = some (p.busy, p.idle)) ∧
    (∀ stack a b, Table.find stack s.pkg.swaps = some (a, b) → a < 32768 → b < 32768 → a ≠ b →
      goes (exec (.remapSwapComplete stack) s) fun t =>
        t.remapOf stack a = s.remapOf stack b ∧ t.remapOf stack b = s.remapOf stack a ∧
          (∀ k r, r < 32768 → ¬ (k = stack ∧ (r = a ∨ r = b)) → t.remapOf k r = s.remapOf k r) ∧
          Table.find stack t.pkg.swaps = none ∧ memoryStays s t) ∧
    goes (exec (.rmapctl v) s) fun t =>
      t = { s with pkg := { s.pkg with remapEn := v.getLsbD 0, thresh := (v.extractLsb' 1 15).toNat } }

/-! ### Events of queues and launches (R175 to R187, R195, R271, R353 to R363) -/

/-- R175 to R182, R184, R187, R195, R271, R353 to R355, R358, R360, R361: what happens to queues and launches: activation, write indices, stops and
wake codes; intake, admission, completion and markers; leases and reclaims; wrap-up, the kill at the deadline and slack. That bad SLOTS stop a
queue at its activation, the vectors of its stops, and slack as last computed (log 23, DEDUCED), the corners of admission and completion (log 24,
DEDUCED), where a seed finds its place (log 25, DEDUCED) and how tickets and leases go (log 26, DEDUCED) are the model's readings. -/
def Obligations.QueueAndLaunchEvents : Prop :=
  ∀ (s : State) (n : Nat) (v : DWord) (code : Word),
    let q := s.queueAt n
    let after := fun (t : State) => t.queueAt n
    let parks := fun (t : State) => ∀ k reg image, (s.gangAt k).park = some (.enq reg n image) →
      (t.gangAt k).sreg reg = 1 ∧ (t.gangAt k).park = some (.served 4)
    let closes := fun (r : Host.Outcome State Fault Refusal) (st : QState) (why : Nat) => goes r fun t =>
      (after t).state = st ∧ (after t).reason = why ∧ memoryStays s t ∧ parks t
    (n < 1024 → q.state = .off ∨ q.state = .stopped → 6 ≤ q.slots → q.slots ≤ 16 →
      goes (exec (.queueActivate n) s) fun t => t = s.setQueue n { q with ridx := 0, widx := 0, state := .active }) ∧
    (n < 1024 → q.state = .off ∨ q.state = .stopped → q.slots < 6 ∨ 16 < q.slots → closes (exec (.queueActivate n) s) .stopped 4) ∧
    (q.state = .active ∨ q.state = .stopped → closes (exec (.queueTurnOff n) s) .off 0) ∧
    (q.state = .active → closes (exec (.queueStop n) s) .stopped 0) ∧
    (n < 1024 → q.state = .active → q.ridx + 2 ^ q.slots < v.toNat → q.widx < v.toNat →
      closes (exec (.notifyRegister n v) s) .stopped 3) ∧
    (n < 1024 → q.state = .active → v.toNat ≤ q.ridx + 2 ^ q.slots → goes (exec (.notifyRegister n v) s) fun t =>
      after t = { q with widx := max q.widx v.toNat } ∧ memoryStays s t ∧ t.gangs = s.gangs) ∧
    (n < 1024 → goes (exec (.wake n code) s) fun t =>
      after t = { q with wake := code } ∧ t.out = s.out ++ [.vector n q.vec (some code)] ∧ memoryStays s t) ∧
    (let r := s.renew q.home (.intake n)
     let a := r.lampFor q.ctx q.home (.intake n)
     ∀ bs, n < 1024 → s.works q.home (.intake n) = true → q.state = .active → q.ridx < q.widx → (s.ctxAt q.ctx).suspend = false →
      s.jobWaits (.intake n) = false → ((∃ e ∈ q.enqueued, e.index = q.ridx) ∨ s.storeUsed q.home < 4096) →
      r.lampRead a (q.slotAddr q.ridx) 64 = .ok bs → (bs.headD 0).getLsbD 0 = true →
      let noted := r.noteRange a (q.slotAddr q.ridx) 64
      (∀ u, intakeReason bs = none → noted.lampWrite a (q.slotAddr q.ridx) [0] = .ok u → goes (exec (.queueIntake n) s) fun t =>
        t.mem = u.mem ∧ (after t).ridx = q.ridx + 1 ∧ t.nextIntake = s.nextIntake + 1 ∧ ∃ p, t.pendings = s.pendings ++ [p] ∧
          p.queue = n ∧ p.index = q.ridx ∧ p.bytes = bs ∧ p.ctx = q.ctx ∧ p.die = q.home ∧ p.intake = s.nextIntake ∧
          p.slack = (PacketFields.ofBytes bs).slackAt s.now) ∧
      ∀ u why, intakeReason bs = some why → noted.lampWrite a (q.slotAddr q.ridx) [bs.headD 0 &&& 0xFE] = .ok u →
        goes (exec (.queueIntake n) s) fun t => t.mem = u.mem ∧ (after t).state = .stopped ∧ (after t).reason = why ∧
          t.pendings = s.pendings ∧ ∃ vec, t.out = s.out ++ [.vector n vec none]) ∧
    (∀ cores p k, s.lampsOn n = true → s.pendings = [p] → p.isLaunch = true → p.die = n → s.works n (.admission p.intake) = true →
      s.doomed p = false → p.parent = some k → (s.launchAt k).phase = .killed → goes (exec (.launchAdmission n cores) s) fun t =>
        (t.launchAt s.nextLaunch).timed = true ∧ (t.launchAt s.nextLaunch).isPartial = true ∧ (t.launchAt s.nextLaunch).spawn = 0 ∧
          t.gangs = s.gangs ∧ t.pendings = []) ∧
    (∀ cores p, s.lampsOn n = true → s.candidates n = [p] → s.works n (.admission p.intake) = true →
      (∀ x ∈ s.pendings, s.doomed x = false ∧ s.struck x = false) → p.die = n →
      let f := PacketFields.ofBytes p.bytes
      let new := s.nextLaunch
      let gone := fun (t : State) => ∀ x ∈ t.pendings, ¬ (x.queue = p.queue ∧ x.intake = p.intake)
      (f.deadline ≠ 0 → f.deadline ≤ s.now → goes (exec (.launchAdmission n cores) s) fun t =>
        (t.launchAt new).timed = true ∧ (t.launchAt new).isPartial = true ∧ (t.launchAt new).spawn = 0 ∧ t.gangs = s.gangs ∧ gone t) ∧
      ∀ c items, s.late p = false → s.jobWaits (.admission p.intake) = false →
        let r := s.renew n (.admission p.intake)
        let a := r.lampFor p.ctx n (.admission p.intake)
        r.checkCode a p.denied f.code f.seed f.snuffe = .ok c →
        let probe : Launch := { Launch.absent with pkt := f, code := c, die := n, parent := p.parent }
        let read := r.noteCode a f.code
        s.refusalOf probe = 0 → read.readItems a p.denied f = .ok items → s.wrapAt probe = none →
        let ready := if f.flags.getLsbD 3 = true then read.noteRange a f.karg 12 else read
        let key := gangKey new 0
        let seat := (cores.map dieOf ++ n :: List.range 4).eraseDups.findSome? fun d => (ready.openSeed p c items).seatNew key d cores
        (∀ u, seat = some u → goes (exec (.launchAdmission n cores) s) fun t =>
          let l := t.launchAt new
          let g := t.gangAt key
          l.phase = .running ∧ l.code = c ∧ l.pkt = f ∧ l.spawn = 1 ∧ l.itemAddr = items.1 ∧ l.itemCount = items.2 ∧
            l.slack = f.slackAt s.now ∧ g.launch = new ∧ g.num = 0 ∧ g.role = c.seedRole ∧ g.pair 0 = f.karg ∧ g.place = .resident g.core ∧
            (∀ i, i < 32 → (g.lane i).live = true ∧ (g.lane i).pc = f.seed) ∧ gone t ∧ memoryStays s t) ∧
          (seat = none → exec (.launchAdmission n cores) s = .next ready)) ∧
    (let l := s.launchAt n
     let vector : List Output :=
       if l.pkt.flags.getLsbD 0 = true ∧ (s.queueAt l.queue).vectorKnown = true then
         [.vector l.queue (s.queueAt l.queue).vec none] else []
     let r := s.renew l.die (.completion n)
     let a := r.lampFor l.ctx l.die (.completion n)
     s.completes n = true → l.steps = 0 →
       (l.pkt.vrec = 0 → l.pkt.signal = 0 → goes (exec (.launchCompletion n) s) fun t =>
         (t.launchAt n).phase = .done ∧ t.out = s.out ++ vector ∧ memoryStays s t ∧
           ∀ p, l.parent = some p → p ≠ n → (t.launchAt p).spawn = (s.launchAt p).spawn - 1) ∧
       (∀ u, l.pkt.vrec ≠ 0 → l.pkt.signal = 0 → r.lampWrite a l.pkt.vrec l.recordBytes = .ok u →
         goes (exec (.launchCompletion n) s) fun t => (t.launchAt n).phase = .done ∧ t.mem = u.mem) ∧
       ∀ u, l.pkt.vrec = 0 → l.pkt.signal ≠ 0 →
         (r.stepDone n).lampDecrement a l.pkt.signal = .ok u →
         goes (exec (.launchCompletion n) s) fun t => (t.launchAt n).phase = .done ∧ t.mem = u.mem) ∧
    (∀ p, s.oldestMarker n = some p → s.lampsOn p.die = true → s.jobWaits (.marker n) = false → s.earlierDone p = true →
      let signal : DWord := BitVec.ofNat 64 (natLE ((p.bytes.drop 48).take 8))
      let done := fun (t : State) => ∀ x ∈ t.pendings, ¬ (x.queue = p.queue ∧ x.intake = p.intake)
      (signal = 0 → goes (exec (.signalMarker n) s) fun t => done t ∧ memoryStays s t) ∧
        ∀ u, signal ≠ 0 → s.lampDecrement (s.lampFor p.ctx p.die (.marker n)) signal = .ok u →
          goes (exec (.signalMarker n) s) fun t => done t ∧ t.mem = u.mem) ∧
    (∀ die, (s.dieAt die).fenced = false → goes (exec (.ticketLeaseExpiry die n) s) fun t =>
      (∀ k ∈ (t.dieAt die).tickets, k.num = n → k.agent = none ∨ s.ran < k.til) ∧
        (∀ k ∈ (s.dieAt die).tickets, k.agent ≠ none → k.num ≠ n ∨ s.ran < k.til → k ∈ (t.dieAt die).tickets) ∧
        (t.dieAt die).tickets.map Ticket.job = (s.dieAt die).tickets.map Ticket.job ∧ memoryStays s t) ∧
    (∀ d, s.reclaimDie n = some d → (s.ctxAt n).rcbusy = true →
      let c := s.ctxAt n
      let bad := c.rcline.toNat % 64 ≠ 0 ∨ c.rcdata.toNat % 64 ≠ 0
      let a := s.lampFor n d (.reclaim n)
      (bad → goes (exec (.reclaimExecute n) s) fun t =>
        (t.ctxAt n).rcbusy = false ∧ (t.ctxAt n).rcstatus = 0xFF ∧ memoryStays s t) ∧
        (∀ r, ¬ bad → s.reclaim a c.rcline c.rcdata = some r → goes (exec (.reclaimExecute n) s) fun t =>
          (t.ctxAt n).rcbusy = false ∧ (t.ctxAt n).rcstatus = BitVec.ofNat 8 r.1 ∧ t.mem = r.2.mem ∧ t.fab.dir = r.2.fab.dir) ∧
        (¬ bad → s.reclaim a c.rcline c.rcdata = none → goes (exec (.reclaimExecute n) s) fun t =>
          (t.ctxAt n).rcbusy = true ∧ memoryStays s t)) ∧
    (let l := s.launchAt n
     l.phase = .running → l.wrap = none → l.pkt.deadline ≠ 0 → l.pkt.deadline - min l.pkt.budget l.pkt.deadline ≤ s.now →
       goes (exec (.snuffTime n) s) fun t => (t.launchAt n).wrap = some 1 ∧
         (∀ d ∈ s.descendants n, (s.launchAt d).phase = .running → (s.launchAt d).wrap = none → (t.launchAt d).wrap = some 2) ∧
         ∀ k, let g := s.gangAt k
           g.launch = n → g.lamp = false → g.alive = true → g.wrap = false → g.marked = none → g.hold = none →
             g.delaysSnuff = false → g.retries = [] → (t.gangAt k).wrap = true ∧
               ∀ i, i < 32 → (g.lane i).live = true → ((t.gangAt k).lane i).pc = l.pkt.snuffe) ∧
    (let l := s.launchAt n
     l.phase = .running → l.pkt.deadline ≠ 0 → l.pkt.deadline ≤ s.now → l.spawn ≠ 0 → l.lerr &&& 0x44 = 0 →
       goes (exec (.deadlineKill n) s) fun t => (t.launchAt n).phase = .killed ∧ (t.launchAt n).timed = true ∧
         (t.launchAt n).isPartial = true ∧ (∀ o ∈ t.ops, o.launch = n → ∃ x ∈ s.ops, x.stands = false ∧ o = x.cancel) ∧
         ((∀ o ∈ s.ops, o.launch = n ∨ o.launch ∈ s.descendants n → o.stands = true) → (∀ o ∈ t.ops, o.launch ≠ n) ∧
           ∀ k, (s.gangAt k).launch = n → (s.gangAt k).lamp = false → (t.gangAt k).alive = false)) ∧
    (s.lampsOn n = true → (s.dieAt n).slackAt + 10000 ≤ s.ran → goes (exec (.slackRecompute n) s) fun t =>
      let slack := fun (f : PacketFields) =>
        if f.deadline = 0 then none else some (BitVec.ofInt 64 ((f.deadline : Int) - s.now - f.estimate)).toInt
      t = { s with launches := t.launches, pendings := t.pendings, dies := t.dies } ∧
        (∀ k, t.dieAt k = if k = n then { s.dieAt n with slackAt := s.ran } else s.dieAt k) ∧
        t.pendings = (s.pendings.map fun p => if p.die = n then { p with slack := slack (PacketFields.ofBytes p.bytes) } else p) ∧
        ∀ k, t.launchAt k =
          let l := s.launchAt k
          if l.die = n ∧ l.phase ≠ .done then { l with slack := slack l.pkt } else l)
/-! ### Registers of the companion whose write does something (R133, R138, R193 to R195, R243, R258, R271, R284, R285, R295, R296, R325, R346,
R349 to R352, R369, R370) -/

/-- R67, R131, R133, R138, R193, R194, R243, R258, R271, R284, R285, R295, R296, R325, R346, R352, R369, R370: fault answers, service replies, the
context registers, dumps, reclaims, invalidations and walks, the pool, Chronographs, error counters, EPHSET and pins that reach their
limit: the L1 of every gang that holds the line pinned performs it. The die of a reclaim's ticket (log 49, DESIGN CHOICE), the virtual service ring and FDONE (log 33, DEDUCED), the Lamplighter that reads
a reply (log 26, DEDUCED), the spill pieces of dumps (log 13, DESIGN CHOICE) (log 36, DEDUCED), walks that only fill caches (log 27, DEDUCED), and what a full
cache loses and an invalidation waits for (log 42, DESIGN CHOICE) are the model's. -/
def Obligations.CompanionRegisterEvents : Prop :=
  ∀ (s : State) (n k : Nat) (v : DWord) (w : Word),
    let c := s.ctxAt n
    let ctx := fun (r : Host.Outcome State Fault Refusal) (x : Ctx) => goes r fun t => t = s.setCtx n x
    (∀ f, s.pkg.faults.find? (fun f => f.id == v.toNat % 2 ^ 32 && f.posted) = some f →
      (∀ g lanes, f.op = none → f.gang = some g → (s.gangAt g).park = some (.page [f.id] lanes) →
        (v.getLsbD 32 = false → goes (exec (.fdone v) s) fun t => (∀ x ∈ t.pkg.faults, x.id ≠ f.id) ∧
          t.gangAt g = { s.gangAt g with park := some (.served 5) } ∧ memoryStays s t) ∧
          (v.getLsbD 32 = true → (s.gangAt g).lamp = false → (s.launchOf g).phase = .running →
            goes (exec (.fdone v) s) fun t => (t.launchOf g).faulted = true)) ∧
      ∀ id o, f.op = some id → s.opAt id = some o → o.fault = some f.id →
        (v.getLsbD 32 = false → goes (exec (.fdone v) s) fun t => t.opAt id = some { o with fault := none } ∧ memoryStays s t) ∧
          (v.getLsbD 32 = true → goes (exec (.fdone v) s) fun t => ∃ x, t.opAt id = some x ∧ x.status = .failed 1 o.pc)) ∧
    ((s.pkg.fqhead - w).toNat ≤ 2 ^ s.pkg.fqsize → goes (exec (.fqtail w) s) fun t => t.pkg.fqtail = w ∧ t.gangs = s.gangs) ∧
    (2 ^ s.pkg.fqsize < (s.pkg.fqhead - w).toNat → exec (.fqtail w) s = .next s) ∧
    (∀ r g lanes, c.records = [r] → r.gang = some g → (s.gangAt g).park = some (.svcReply lanes r.at_) →
      (s.launchOf g).phase = .running →
      let read := fun at_ size => readRange s (s.lampNear n (s.gangAt g).core) (c.srbase + BitVec.ofNat 64 (r.at_ + at_)) size
      (∀ (b : Byte) bs, read 6 1 = .ok [b] → b.getLsbD 0 = true → read 64 (32 * (lanesOf lanes).length) = .ok bs →
        goes (exec (.sdoor n) s) fun t => (t.gangAt g).park = some (.served 3) ∧ (t.ctxAt n).records = [] ∧
          (t.ctxAt n).sfree = c.sfree + r.size ∧ memoryStays s t ∧ (∀ m, (t.gangAt g).sreg m = (s.gangAt g).sreg m) ∧
          ∀ i l j, (lanesOf lanes)[i]? = some l → j < 8 →
            ((t.gangAt g).lane l).vreg j = BitVec.ofNat 32 (natLE ((bs.drop (32 * i + 4 * j)).take 4))) ∧
        (∀ b : Byte, read 6 1 = .ok [b] → b.getLsbD 0 = false →
          goes (exec (.sdoor n) s) fun t => t.gangs = s.gangs ∧ memoryStays s t ∧ (t.ctxAt n).records = c.records) ∧
        ∀ at_, read 6 1 = .error (.wait, at_) → goes (exec (.sdoor n) s) fun t => .records n ∈ t.agenda ∧ (t.ctxAt n).records = c.records) ∧
    ctx (exec (.ctxtrap n w) s) { c with ctxtrap := w, trapent := w } ∧
    ctx (exec (.ctxpin n w) s) { c with ctxpin := w, pinlim := w } ∧
    goes (exec (.fabtmo w) s) (fun t => t = { s with fab := { s.fab with fabtmo := w, cohtmo := w } }) ∧
    (c.dumpWait = [] → goes (exec (.dumpack n) s) fun t => memoryStays s t ∧ t.gangs = s.gangs ∧
      t.ctxAt n = { c with dumphead := 0, splused := c.splused - c.dumpSpill, dumpSpill := 0,
                           areas := c.areas.filter fun x => (s.gangAt (x.1 / 32)).alive }) ∧
    (w = 1 → c.rcbusy = false → goes (exec (.rcgo n w) s) fun t => t.ctxAt n = { c with rcbusy := true } ∧ memoryStays s t) ∧
    (w ≠ 1 ∨ c.rcbusy = true → exec (.rcgo n w) s = .next s) ∧
    (c.tlbbusy = false → ctx (exec (.tlbinv n v) s) { c with tlbinv := v &&& 0x0000FFFFFFFF0003, tlbbusy := true }) ∧
    (c.tlbbusy = true → exec (.tlbinv n v) s = .next s) ∧
    (c.tlbbusy = true → s.rangeUsed n c.tlbinv = true → exec (.tlbInvalidationComplete n) s = .next s) ∧
    (c.tlbbusy = true → s.rangeUsed n c.tlbinv = false → goes (exec (.tlbInvalidationComplete n) s) fun t =>
      let code := c.tlbinv.toNat % 4
      let size := if code = 0 then 2 ^ 16 else if code = 1 then 2 ^ 21 else 2 ^ 27
      let first := c.tlbinv.toNat % 2 ^ 48 / size * size
      let named := fun (e : TlbEntry) => e.ctx = n ∧ (code = 3 ∨ first < e.va + e.size ∧ e.va < first + size)
      (t.ctxAt n).tlbbusy = false ∧ memoryStays s t ∧ (∀ e, e ∈ t.tlb ↔ e ∈ s.tlb ∧ ¬ named e) ∧
        (∀ d ∈ t.dirty, s.ctxNum d.gang ≠ n) ∧ ∀ p ∈ t.pins, s.ctxNum p.gang ≠ n) ∧
    (c.pool.bsz = 14 ∨ c.pool.bsz = 15 → 0 < c.pool.count → c.pool.count ≤ 16777216 → goes (exec (.poolEnable n) s) fun t =>
      (t.ctxAt n).pool.enabled = true ∧ freeIndices (t.ctxAt n).pool = List.range c.pool.count ∧ (t.ctxAt n).pool.held = [] ∧
        memoryStays s t) ∧
    goes (exec (.dropall n) s) (fun t =>
      (t.ctxAt n).pool.held = c.pool.held.filter (fun x => x.tag == none) ∧ memoryStays s t ∧
        ∀ tags : List Nat, tags.Pairwise (· < ·) → (∀ g, g ∈ tags ↔ ∃ x ∈ c.pool.held, x.tag = some g) →
          freeIndices (t.ctxAt n).pool = freeIndices c.pool ++
            tags.flatMap fun g => (c.pool.held.filter fun x => x.tag == some g).map Block.index) ∧
    goes (exec (.chcfgClr n k w) s) (fun t =>
      let x := (t.dieAt n).chrono k
      x.count = 0 ∧ x.least = 0xFFFFFFFF ∧ x.greatest = 0 ∧ x.latest = 0 ∧ x.bins = [] ∧ x.dropped = 0 ∧ x.en = w.getLsbD 31 ∧
        x.freeze = w.getLsbD 29 ∧ memoryStays s t ∧ ∀ j, j ≠ k → (t.dieAt n).chrono j = (s.dieAt n).chrono j) ∧
    goes (exec (.errclr n) s) (fun t => t.dieAt n = { s.dieAt n with errs := [] } ∧ memoryStays s t) ∧
    ((∃ kl ∈ s.launches, kl.2.phase ≠ .done ∧ kl.2.pkt.deadline ≠ 0) → exec (.ephset v) s = .next s) ∧
    ((∀ kl ∈ s.launches, kl.2.phase = .done ∨ kl.2.pkt.deadline = 0) →
      goes (exec (.ephset v) s) fun t => t = { s with clock :=
        { s.clock with eph := v, frac := 0, stepped := s.clock.stepped + ((v.toNat : Int) - s.now) } }) ∧
    ((∃ p ∈ s.pins, p.line = n ∧ p.til ≤ s.ran) → goes (exec (.pinLimitExpiry n) s) fun t =>
      (∀ p, p ∈ t.pins ↔ p ∈ s.pins ∧ p.line ≠ n) ∧
        (∀ d, d ∈ t.dirty ↔ d ∈ s.dirty ∧ ¬ (d.line = n ∧
          ∃ p ∈ s.pins, p.line = n ∧ s.oneL1 (s.gangAt p.gang).core (s.gangAt d.gang).core = true)) ∧
        t = { s with pins := t.pins, dirty := t.dirty }) ∧
    ∀ die, let a := dieAgent n die 0
      (∀ pa, translate s a v (kindOf k) = .ok pa → goes (exec (.translationWalk n v k die) s) fun t =>
        t = { s with tlb := t.tlb } ∧ (∃ e ∈ t.tlb, e.place = .die die ∧ e.covers n (v.toNat % 2 ^ 48) = true) ∧
          ∀ e ∈ s.tlb, e.place ≠ .die die ∨ (s.tlb.filter fun x => x.place == .die die).length < 16384 → e ∈ t.tlb) ∧
        ∀ x, translate s a v (kindOf k) = .error x → exec (.translationWalk n v k die) s = .next s
/-! ### Bring-up, time and errors (R188 to R191, R265 to R270, R349 to R352, R370) -/

/-- R188 to R191, R196, R349 to R351: reset, the firmware check and the Lamplighter slots, registers of the management window, the PTP slave.
That reset keeps memory (log 19, DESIGN CHOICE), that FAILED gives way to WAITIMG as the next event comes (log 7, DESIGN CHOICE) and the fault of a
companion that breaks a rule (log 39, DESIGN CHOICE) are the model's choices; when LOCK is set, half the sum of the two ways, and Sync
without firmware are its readings (log 34, DEDUCED). -/
def Obligations.BringUpAndTimeEvents : Prop :=
  ∀ (s : State) (n v domain seq : Nat) (w : Word),
    let p := s.ptp
    let hears := p.cfg.getLsbD 8 = true ∧ p.cfg.toNat % 128 = domain
    let held := ∃ kl ∈ s.launches, kl.2.phase ≠ .done ∧ kl.2.pkt.deadline ≠ 0
    let runs := ∃ d, d < 4 ∧ s.lampsOn d = true
    let servo := fun (arrived origin syncAt : Nat) (r : Host.Outcome State Fault Refusal) =>
      let offset : Int := (arrived : Int) - (origin : Int) - p.path
      let recent := decide (s.ran < syncAt + 2000000000)
      (runs → (p.locked = false ∨ 1000000 < offset.natAbs) → ¬ held → goes r fun t =>
        t.clock.eph = s.clock.eph - BitVec.ofInt 64 offset ∧ t.ptp.lock = recent ∧ t.ptp.locked = true ∧ t.ptp.syncAt = syncAt ∧
          memoryStays s t) ∧
      (runs → held ∨ p.locked = true ∧ offset.natAbs ≤ 1000000 → goes r fun t =>
        t.clock = { s.clock with adj := Config.servo offset } ∧ t.ptp.offset = min (2 ^ 31 - 1) offset.natAbs ∧
          t.ptp.lock = (recent && (p.lock || decide (offset.natAbs ≤ 1000000))) ∧ t.ptp.syncAt = syncAt ∧ memoryStays s t) ∧
      (¬ runs → goes r fun t => t = { s with ptp := { p with sync := none, syncAt := syncAt } })
    goes (exec .reset s) (fun t => t = { State.reset with mem := s.mem, poison := s.poison, agenda := s.agenda, out := s.out, free := s.free }) ∧
    (w = 1 → s.pkg.fwstate = .waitImg → goes (exec (.fwgo w) s) fun t => t = { s with pkg := { s.pkg with fwgo := w, fwstate := .check } }) ∧
    (w ≠ 1 ∨ s.pkg.fwstate ≠ .waitImg → goes (exec (.fwgo w) s) fun t => t = { s with pkg := { s.pkg with fwgo := w } }) ∧
    (s.pkg.fwstate = .check → s.numAt s.pkg.fwbase.toNat 4 ≠ 0x49574648 → goes (exec .firmwareCheckComplete s) fun t =>
      t = { s with pkg := { s.pkg with fwstate := .failed, fwcause := 1 } }) ∧
    (s.pkg.fwstate = .check → s.numAt s.pkg.fwbase.toNat 4 = 0x49574648 → s.numAt (s.pkg.fwbase.toNat + 4) 2 = 1 →
      s.pkg.fwlen.toNat < 128 + s.numAt (s.pkg.fwbase.toNat + 8) 4 + 29792 → goes (exec .firmwareCheckComplete s) fun t =>
        t = { s with pkg := { s.pkg with fwstate := .failed, fwcause := 2 } }) ∧
    (s.pkg.fwstate = .check → s.numAt s.pkg.fwbase.toNat 4 = 0x49574648 → s.numAt (s.pkg.fwbase.toNat + 4) 2 = 1 →
      128 + s.numAt (s.pkg.fwbase.toNat + 8) 4 + 29792 ≤ s.pkg.fwlen.toNat → goes (exec .firmwareCheckComplete s) fun t => memoryStays s t ∧
        if Config.signatureOk s.fwSigned s.fwSignatureBytes = true then
          t.pkg.fwstate = .run ∧ t.pkg.fwcause = 0 ∧ t.pkg.carve.getLsbD 0 = true ∧ t.pkg.carveSet = true ∧ t.pkg.meas = s.measured ∧
            (1 ≤ t.pkg.carve.toNat / 2 ^ 11 % 256) ∧
            ∀ c, c < 192 → (t.coreAt c).slot = .running ∧ (t.gangAt (lampKey c)).lamp = true ∧
              (t.gangAt (lampKey c)).place = .resident c ∧ (t.gangAt (lampKey c)).liveMask = BitVec.allOnes 32
        else t = { s with pkg := { s.pkg with fwstate := .failed, fwcause := 3 } }) ∧
    (∀ c, c < 192 → w = BitVec.ofNat 32 (0x100 + c) → (s.coreAt c).slot = .halted ∨ (s.coreAt c).slot = .fenced →
      goes (exec (.lampctl w) s) fun t => (t.coreAt c).slot = .running ∧ (t.gangAt (lampKey c)).place = .resident c ∧
        t.pkg.lampctl = w ∧ memoryStays s t) ∧
    goes (exec (.mgmtRegisterWrite 0x0201F004 4 v) s) (fun t => t = { s with pkg := { s.pkg with pwrcap := BitVec.ofNat 32 v } }) ∧
    (n < 64 → goes (exec (.mgmtRegisterWrite (0x02000000 + 64 * n) 8 v) s) fun t =>
      t = s.setCtx n { s.ctxAt n with srbase := BitVec.ofNat 64 v }) ∧
    (n < 64 → s.hasLaunch n = true → BitVec.ofNat 64 v ≠ (s.ctxAt n).dumpbase →
      exec (.mgmtRegisterWrite (0x02000000 + 64 * n + 24) 8 v) s = .fault (.companionBroke 264)) ∧
    (n < 64 → s.hasLaunch n = false → goes (exec (.mgmtRegisterWrite (0x02000000 + 64 * n + 24) 8 v) s) fun t =>
      (t.ctxAt n).dumpbase = BitVec.ofNat 64 v ∧ memoryStays s t ∧ t.gangs = s.gangs) ∧
    (hears → goes (exec (.ptpSync true domain seq v) s) fun t => t = { s with ptp := { p with sync := some (seq, s.now), syncAt := s.ran } }) ∧
    (hears → servo s.now v s.ran (exec (.ptpSync false domain seq v) s)) ∧
    (∀ arrived, hears → p.sync = some (seq, arrived) → servo arrived v p.syncAt (exec (.ptpFollowUp domain seq v) s)) ∧
    (p.cfg.getLsbD 8 = true → goes (exec .ptpDelayReqTimer s) fun t =>
      t = { s with ptp := { p with delayReq := some (p.nextSeq, s.now), nextSeq := (p.nextSeq + 1) % 65536 },
                   out := s.out ++ [.delayReq p.nextSeq] }) ∧
    (∀ sent arrived origin, hears → p.delayReq = some (seq, sent) → p.last = some (arrived, origin) →
      goes (exec (.ptpDelayResp domain seq v) s) fun t =>
        t = { s with ptp := { p with path := (((v : Int) - sent) + ((arrived : Int) - origin)) / 2, delayReq := none } }) ∧
    (hears → goes (exec (.ptpAnnounce domain v) s) fun t => t = { s with ptp := { p with master := some v } }) ∧
    exec .ptpManagement s = .next s ∧
    (p.syncAt + 2000000000 ≤ s.ran → goes (exec .syncLossTimeout s) fun t => t = { s with ptp := { p with lock := false } })

/-- R265 to R267, R269, R274, R345, R370: a corrected error counts and starts the test of its unit; an uncorrectable one poisons data, ends the
launch of a gang's state, fences a die or breaks a queue; a test that ends counts its unit as transient or retires it. The SRAM bank
under a word of a scratchpad is the model's choice (log 10, DESIGN CHOICE); that queues which are OFF break with their die's carve-out is its reading
(log 32, DEDUCED). -/
def Obligations.ErrorEvents : Prop :=
  ∀ (s : State) (die : Nat) (u : TestUnit),
    let errsOf := fun (t : State) d k => Table.get ErrCount.zero k (t.dieAt d).errs
    let errs := fun (t : State) k => errsOf t die k
    let up := fun (t : State) d k => (errsOf t d k).uncorrected = min 65535 ((errsOf s d k).uncorrected + 1)
    let hit := fun (at' : ErrPlace) (p : State → Prop) => goes (exec (.uncorrectableError die at') s) p
    (die < 4 → goes (exec (.correctedError die u) s) fun t =>
      errs t (structureOf u) =
          { errs s (structureOf u) with corrected := min 65535 ((errs s (structureOf u)).corrected + 1) } ∧
        u ∈ (t.dieAt die).testing ∧ memoryStays s t) ∧
    (∀ pa, physOk pa = true → hit (.memory pa) fun t => .memory (pa / 8) ∈ t.poison ∧ memoryStays s t) ∧
    (∀ k off, off < (s.gangAt k).scratchSize → (s.gangAt k).windowFreed = false → (s.gangAt k).place ≠ .saved →
      (s.gangAt k).place ≠ .unplaced → hit (.scratch k off) fun t =>
        let d := dieOf (s.gangAt k).core
        .scratch k (off / 8) ∈ t.poison ∧ up t d 0 ∧ memoryStays s t ∧
          ∀ b, s.bankUnder k off = some b → .sramBank (s.gangAt k).core b ∈ (t.dieAt d).testing) ∧
    (∀ dome b r, hit (.bankRow dome b r) fun t => r ∈ (t.bankAt dome b).poisoned ∧ (t.bankAt dome b).words = (s.bankAt dome b).words) ∧
    (∀ k c, (s.gangAt k).place = .resident c → (s.gangAt k).lamp = false → (s.launchOf k).phase = .running →
      hit (.gangState k) fun t => (t.launchOf k).faulted = true ∧ (t.launchOf k).lerr.getLsbD 5 = true) ∧
    (∀ k c, (s.gangAt k).place = .resident c → (s.gangAt k).lamp = true → hit (.gangState k) fun t =>
      (t.coreAt (s.gangAt k).core).slot = .fenced ∧ memoryStays s t) ∧
    (∀ d region, d < 4 → (s.dieAt d).fenced = false → hit (.carve d region) fun t =>
      (t.dieAt d).fenced = true ∧ t.pkg.fwcause = 4 ∧ up t d 3 ∧ .carveRegion d region ∈ (t.dieAt d).testing ∧
        ∀ q, q < 1024 → (s.queueAt q).home = d → (s.queueAt q).state ≠ .broken →
          (t.queueAt q).state = .broken ∧ (t.queueAt q).reason = 6) ∧
    (die < 4 → hit (.unit u) fun t => u ∈ (t.dieAt die).testing ∧ memoryStays s t ∧ up t die (structureOf u)) ∧
    (∀ q, q < 1024 → hit (.queueEntry q) fun t =>
      (t.queueAt q).state = .broken ∧ (t.queueAt q).reason = 5 ∧ (t.queueAt q).wake = 0xFFFF0005 ∧ t.pkg.mwake = 0xFFFF0005 ∧
        t.out = s.out ++ [.mgmtVector 0xFFFF0005] ∧ memoryStays s t) ∧
    (u ∈ (s.dieAt die).testing → s.testable die u = true →
      (goes (exec (.selfTestComplete die u true) s) fun t => u ∉ (t.dieAt die).testing ∧
        (errs t (structureOf u)).transient = min 65535 ((errs s (structureOf u)).transient + 1) ∧ memoryStays s t) ∧
      (goes (exec (.selfTestComplete die u false) s) fun t => u ∉ (t.dieAt die).testing ∧
        (errs t (structureOf u)).lasting = min 65535 ((errs s (structureOf u)).lasting + 1) ∧
        ((t.dieAt die).errLast.toNat % 256 = structureOf u ∧ (t.dieAt die).errLast.toNat / 2 ^ 32 = s.now / 2 ^ 10 % 2 ^ 32) ∧
        (∀ stack i, u = .lantern stack i → 32 * stack + i < 2 ^ 24 → (t.dieAt die).errLast.toNat / 2 ^ 8 % 2 ^ 24 = 32 * stack + i) ∧
        (∀ core bank, u = .sramBank core bank → bank ∈ (t.coreAt core).retired) ∧
        (∀ dome row, u = .arrayRow dome row → row ∈ (t.domeAt dome).rowsRetired) ∧
        (∀ stack i, u = .lantern stack i → 32 * stack + i ∈ t.pkg.lanterns) ∧ memoryStays s t))

/-! ### Links, ports and flows (R305 to R315, R318, R326 to R328) -/

/-- R305, R306, R309, R310, R312, R315, R316, R318, R326 to R328: what flits, link control flits, acknowledgements, keys and timers do to the
die links, the ports and the flows of the package. Which lane a failed tag puts to the test, and what a REPLAY that comes after a new
key names (log 46, DESIGN CHOICE), that a good flit only counts, what it carries taking effect in the event of its packet, that KEYREQ is only heard, and CREDIT
as a bare count (log 9, DESIGN CHOICE) are the model's choices; that ENABLE takes a port down that is up is its reading (log 31, DEDUCED). -/
def Obligations.LinkEvents : Prop :=
  ∀ (s : State) (port a b n : Nat) (flit : List Byte) (mask : BitVec 16) (v : Word) (p : Packet),
    let x := s.portAt port
    let at' := fun (t : State) => t.portAt port
    let link := s.linkAt a b
    let f := s.outFlow (backFlow p)
    let opened := fun fl => (Config.gcmOpen x.rxkey (x.rxsalt * 2 ^ 48 + x.rxcnt) fl).isSome = true
    let stomped := flit.take 64 ++ (flit.drop 64).map fun y => ~~~y
    let errs := fun (t : State) => (Table.get ErrCount.zero 2 (t.dieAt (portDie port)).errs).corrected
    (x.up = true → goes (exec (.flitReceive port flit) s) fun t =>
      ((opened flit ∨ opened stomped) → t = s.setPort port { x with rxcnt := x.rxcnt + 1 }) ∧
        (¬ (opened flit ∨ opened stomped) →
          (at' t).rxcnt = x.rxcnt + 1 ∧ errs t = min 65535 (errs s + 1) ∧ .control port 12 x.rxcnt ∈ t.out ∧ memoryStays s t ∧
            (x.rxmask ≠ 0 → ∃ l, x.rxmask.getLsbD l = true ∧ .portLane port l ∈ (t.dieAt (portDie port)).testing))) ∧
    (let whole := flit.length = 72 ∧ flit.drop 64 = bytesLE 8 (crc64 (flit.take 64)).toNat
     let dieErrs := fun (t : State) => (Table.get ErrCount.zero 2 (t.dieAt b).errs).corrected
     let receives := exec (.dieLinkFlitReceive a b flit) s
     ∀ k rest, link.wire = k :: rest →
      (k ≠ link.rxn → goes receives fun t => t = s.setLink a b { link with wire := rest }) ∧
      (k = link.rxn → whole → goes receives fun t => t = s.setLink a b { link with
        wire := rest, rxn := link.rxn + 1, kept := link.kept.filter fun f => decide (link.rxn < f.1) }) ∧
      (k = link.rxn → ¬ whole → goes receives fun t => (t.linkAt a b).wire = rest ∧ (t.linkAt a b).rxn = link.rxn ∧
        (t.linkAt a b).kept = link.kept ∧ t.out = s.out ++ [.dieReplay a b k] ∧ dieErrs t = min 65535 (dieErrs s + 1) ∧
        .dieModule (min a b) (max a b) (link.module k) ∈ (t.dieAt b).testing ∧ memoryStays s t)) ∧
    goes (exec (.dieLinkReplayRequest a b n) s) (fun t =>
      t = { s.setLink a b { link with wire := link.wire ++ (link.kept.filter fun f => decide (n ≤ f.1)).map Prod.fst } with out := t.out } ∧
        ∀ k bs, (k, bs) ∈ link.kept → n ≤ k → .dieFlit a b k (link.module k) (bs ++ bytesLE 8 (crc64 bs).toNat) ∈ t.out) ∧
    goes (exec (.restripe port mask) s) (fun t => t = s.setPort port { x with rxmask := mask }) ∧
    (x.up = true → x.goRx = true → goes (exec (.keyswitch port) s) fun t =>
      t = s.setPort port { x with rxkey := x.stagedRx, rxsalt := x.saltRx, rxcnt := 0, goRx := false }) ∧
    (x.up = true → x.goRx = false → goes (exec (.keyswitch port) s) fun t => (at' t).up = false ∧ memoryStays s t) ∧
    exec (.keyreq port) s = .next s ∧
    goes (exec (.credit port a n) s) (fun t =>
      t = s.setPort port { x with credits := Table.put a (Table.get 0 a x.credits + n) x.credits }) ∧
    (let again := x.kept.filter fun k => decide (n ≤ k.1)
     let old := x.keptOld.filter fun k => decide (n ≤ k.1)
     x.up = true → x.goTx = false → x.keyWait = none →
       (n < x.txcnt ∨ old = [] → x.txcnt + again.length < 2 ^ 48 - 2 → goes (exec (.replay port n) s) fun t =>
         (at' t).txcnt = x.txcnt + again.length ∧ memoryStays s t ∧
           (at' t).kept.map Prod.snd = ((x.kept.filter fun k => decide (k.1 < n)) ++ again).map Prod.snd) ∧
       (x.txcnt ≤ n → old ≠ [] → x.txcnt + (old ++ x.kept).length < 2 ^ 48 - 2 → goes (exec (.replay port n) s) fun t =>
         (at' t).txcnt = x.txcnt + (old ++ x.kept).length ∧ memoryStays s t ∧ (at' t).keptOld = [] ∧
           (at' t).kept.map Prod.snd = (old ++ x.kept).map Prod.snd)) ∧
    (∀ since, x.keyWait = some since → since + 1000000 ≤ s.ran → goes (exec (.keyWaitTimeout port) s) fun t =>
      (at' t).up = false ∧ (at' t).downkey = true ∧ (at' t).keyWait = none ∧ memoryStays s t) ∧
    (s.fab.pkgid.toNat % 4096 ≠ 0xFFF → port < 18 → goes (exec (.ypctlEnable port) s) fun t =>
      (at' t).enable = true ∧ (at' t).training = true ∧ (at' t).up = false ∧ memoryStays s t) ∧
    (x.up = false ∨ v.getLsbD 0 = false → goes (exec (.ykeygo port v) s) fun t =>
      t = s.setPort port { x with goTx := v.getLsbD 0, goRx := v.getLsbD 1 }) ∧
    (x.up = true → v.getLsbD 0 = true → goes (exec (.ykeygo port v) s) fun t =>
      (at' t).txkey = x.stagedTx ∧ (at' t).txsalt = x.saltTx ∧ (at' t).goTx = false ∧ (at' t).goRx = v.getLsbD 1 ∧
        (at' t).keptOld.map Prod.snd = x.kept.map Prod.snd ++ packetFlits (linkPacket 9 0) ∧ memoryStays s t) ∧
    (x.training = true → x.up = false → mask ≠ 0 → goes (exec (.portTrainingComplete port mask) s) fun t =>
      (at' t).up = true ∧ (at' t).mask = mask ∧ (at' t).rxmask = mask ∧ (at' t).txkey = x.stagedTx ∧
        (at' t).rxkey = x.stagedRx ∧ memoryStays s t) ∧
    (∀ g since, s.fab.outflows[n]? = some g → g.lost = some since → since + 1000000 ≤ s.ran →
      portFor s g.dst g.tc g.dom = none → goes (exec (.flowPortTimeout n) s) fun t => (t.outFlow g.key).kept = g.kept ∧
        ∀ o ∈ s.ops, o.cls = 3 → o.status = .active → s.opFlow o = some g.key → (∀ x ∈ s.ops, x.id = o.id → x.cancelling = false) →
          ∃ y ∈ t.ops, y.id = o.id ∧ ∃ u, y.status = .failed 7 u) ∧
    (s.heard port p = true →
      (∀ k ∈ f.kept, ownPacket k.packet = true → ∀ i o, k.op = some i → s.opAt i = some o →
        ∀ d src len g c sig m, o.kind ≠ .fred d src len g c sig m) → goes (exec (.ack p port) s) fun t =>
      (t.outFlow (backFlow p)).kept = f.kept.filter fun k => !seqReached k.packet.seq p.aux.toNat) ∧
    (∀ y, s.heard port p = true → s.flowPort f = some y → goes (exec (.nak p port) s) fun t =>
      (∀ k ∈ f.kept, seqReached p.aux.toNat k.packet.seq = true → .packet y k.packet ∈ t.out) ∧ t.ops = s.ops ∧ memoryStays s t) ∧
    ∀ o src r len route sig, s.heard port p = true → s.xferOp p.ctx p.xfer = some o → o.kind = .fbulk src r len route sig →
      let u := (r.toNat + p.aux.toNat) / 128 - r.toNat / 128
      o.pc ≤ u → u ∉ o.acked → u ∉ o.owed → goes (exec (.dropnote p port) s) fun t =>
        ∃ y ∈ t.ops, y.id = o.id ∧ y.owed = o.owed ++ [u]

/-! ### Packets of the fabric (R139, R168 to R171, R308, R311 to R324, R270) -/

/-- The state in which a packet of a flow is applied: the flow is on record. -/
def Sys2Proof.Says.atGateway (s : State) (p : Packet) : State := s.setInFlow (s.inFlow p)

/-- A packet for this package is the next one of its flow, which no fault holds up (R308, R311, R315). -/
def Sys2Proof.Says.due (s : State) (port : Nat) (p : Packet) : Prop :=
  s.heard port p = true ∧ (s.inFlow p).stalled = none ∧ p.seq = (s.inFlow p).expected

/-- The packet has been taken: its flow expects the next one. -/
def Sys2Proof.Says.taken (p : Packet) (r : Host.Outcome State Fault Refusal) (q : State → Prop) : Prop :=
  goes r fun t => (t.inFlow p).expected = (p.seq + 1) % 2 ^ 32 ∧ q t

/-- The error response to a packet (R308). -/
def Sys2Proof.Says.errorTo (t : State) (p : Packet) : Prop :=
  ∃ x ∈ (t.outFlow (backFlow p)).kept, x.packet.kind = p.kind ∧ x.packet.resp = true ∧ x.packet.op = 0xFF ∧ x.packet.xfer = p.xfer ∧
    x.packet.data = []

/-- A packet stands with its flow until it is acknowledged (R315). -/
def Sys2Proof.Says.sends (t : State) (k : FlowKey) (q : Packet → Prop) : Prop := ∃ x ∈ (t.outFlow k).kept, q x.packet

/-- R139, R168 to R171, R308, R314, R315, R318, R319, R321: each packet of a flow is applied once, in its place: puts and signals write, gets and atomics
answer, answers reach their operation, reservations are granted, refused and end, bulk transfers are counted; a packet out of its
turn is acknowledged again or asked for, one that meets a missing translation or a pin holds up its flow, and what comes behind it
waits. In-switch reduction passes on, combines and answers; who a switch is, is open (log 45, DESIGN CHOICE), and so is the operation code of an
error response (log 9, DESIGN CHOICE). That a flow waits with its packet, in order, and that a refusal holds up the acknowledgement (log 31, DEDUCED),
and that answers to a stopped operation wait (log 30, DEDUCED), are the model's readings. -/
def Obligations.FabricPacketEvents : Prop :=
  ∀ (s : State) (p : Packet) (port n : Nat) (u : State),
    let f := atGateway s p
    let gate := gateAgent p.ctx port
    let back := backFlow p
    let plain := p.resp = false
    let named := fun (o : Op) => s.xferOp p.ctx p.xfer = some o ∧ s.opAt o.id = some o
    let mine := fun (o : Op) => named o ∧ s.opDefers o = false
    let ends := fun (t : State) (o : Op) => ∃ z, t.opAt o.id = some z ∧ z.status = .finished
    let expected := (s.inFlow p).expected
    let isPut := p.kind = 0 ∧ plain ∧ p.drop = false ∧ p.rsvd = false
    let outOfTurn := fun (t : State) => memoryStays s t ∧ ∀ y, s.flowPort (s.outFlow back) = some y → ∃ q, .packet y q ∈ t.out ∧ q.kind = 7 ∧
      if seqReached p.seq expected = true then q.op = 0 ∧ q.aux = BitVec.ofNat 32 (s.ackTo p ((expected + 2 ^ 32 - 1) % 2 ^ 32))
      else q.op = 1 ∧ q.aux = BitVec.ofNat 32 expected
    (s.heard port p = true → p.seq ≠ expected → (isPut → goes (exec (.put p port false) s) outOfTurn) ∧
      (plain → p.kind = 1 → goes (exec (.sput p port) s) outOfTurn) ∧ (plain → p.kind = 3 → goes (exec (.atom p port) s) outOfTurn)) ∧
    ((s.portAt port).up = true → packetOk p = false →
      goes (exec (.put p port false) s) fun t => t = { s with out := s.out ++ [.headerError port p] }) ∧
    (s.heard port p = true → p.seq = expected → (s.inFlow p).stalled ≠ none → isPut → goes (exec (.put p port false) s) fun t =>
      (t.inFlow p).behind = (s.inFlow p).behind ++ [(port, p)] ∧ (t.inFlow p).expected = expected ∧ memoryStays s t) ∧
    (due s port p → isPut → ∀ va,
      (writeRange f gate p.addr p.data = .error (.page, va) → goes (exec (.put p port false) s) fun t => (t.inFlow p).expected = expected ∧
        (t.inFlow p).stalled = some { fault := some s.pkg.nextFault, port := port, packet := p } ∧ memoryStays s t) ∧
      (writeRange f gate p.addr p.data = .error (.wait, va) → goes (exec (.put p port false) s) fun t => (t.inFlow p).expected = expected ∧
        (t.inFlow p).stalled = some { fault := none, port := port, packet := p } ∧ memoryStays s t)) ∧
    (due s port p →
      (isPut → writeRange f gate p.addr p.data = .ok u →
        taken p (exec (.put p port false) s) fun t => t.mem = u.mem) ∧
      (isPut → ∀ c va, writeRange f gate p.addr p.data = .error (c, va) → c ≠ .page → c ≠ .wait →
        taken p (exec (.put p port false) s) fun t => memoryStays s t ∧ errorTo t p ∧ p.xfer ∈ (t.inFlow p).refused) ∧
      (p.kind = 1 → plain → f.refusedBefore p = false → f.addWord gate p.addr (natLE (p.data.take 8)) = .ok u →
        taken p (exec (.sput p port) s) fun t => t.mem = u.mem) ∧
      (p.kind = 1 → plain → f.refusedBefore p = true → taken p (exec (.sput p port) s) fun t => memoryStays s t ∧ errorTo t p) ∧
      (∀ o, p.resp = true → p.kind = 2 ∨ p.kind = 3 → p.op ≠ 0xFF → named o → s.opDefers o = true →
        taken p (exec (if p.kind = 2 then .getResponse p port else .atomResponse p port) s) fun t => memoryStays s t ∧
          t.opAt o.id = some { o with answers := o.answers ++ [(port, p)] }) ∧
      (∀ bs, p.kind = 2 → plain → readRange f gate p.addr p.data.length = .ok bs → taken p (exec (.get p port) s) fun t =>
        memoryStays s t ∧ sends t back fun q => q.kind = 2 ∧ q.resp = true ∧ q.xfer = p.xfer ∧ q.data = bs) ∧
      (∀ o d r len w arr key, p.kind = 2 → p.resp = true → p.op ≠ 0xFF → mine o → o.kind = .fget d r len w arr →
        let e : Endpoint := { space := if w.scratch = true then 1 else 0, addr := d }
        let unit := o.unitAt p.aux.toNat
        let x := ({ o with acked := o.acked ++ [unit] } : Op).advance
        f.endKey o e = .ok key → f.writeEnd o e key p.aux.toNat p.data = .ok u →
          let got := taken p (exec (.getResponse p port) s)
          (got fun t => t.mem = u.mem) ∧
            (o.fault = none → o.cancelling = false → o.pc ≤ unit → unit ∉ o.acked →
              (x.pc < o.units → got fun t => t.gangs = u.gangs ∧ t.opAt o.id = some x) ∧
                (o.units ≤ x.pc → w.arr = false → got fun t => t.gangs = u.gangs ∧ ends t o) ∧
                ∀ akey, o.units ≤ x.pc → w.arr = true → u.opWindow o arr = .ok akey →
                  got fun t => t.gangs = (u.opArrive akey arr len).gangs ∧ ends t o)) ∧
      (∀ old, p.kind = 3 → plain →
        let size := if p.op < 16 then 4 else 8
        readGlobal f gate p.addr size .atomic = .ok old →
        writeGlobal f gate p.addr (atomicBytes (p.op % 16) old (BitVec.ofNat 64 (natLE (p.data.take size)))
          (BitVec.ofNat 64 (natLE ((p.data.drop size).take size)))) = .ok u →
        taken p (exec (.atom p port) s) fun t =>
          t.mem = u.mem ∧ sends t back fun q => q.kind = 3 ∧ q.resp = true ∧ q.xfer = p.xfer ∧ q.data = old) ∧
      (∀ o r op x y w result, p.kind = 3 → p.resp = true → p.op ≠ 0xFF → mine o → o.kind = .fatom r op x y w result →
        writeRange f (s.opAgent o) result p.data = .ok u → taken p (exec (.atomResponse p port) s) fun t =>
          t.mem = u.mem ∧ ends t o) ∧
      (∀ o rest d src len g code sig number, p.kind = 4 → p.resp = true → p.op ≠ 0xFF →
        s.redOps p.ctx (p.xfer % 4096) (p.aux.toNat / 65536) = o :: rest → s.opAt o.id = some o → o.kind = .fred d src len g code sig number →
        s.opDefers o = false → writeRange f (s.opAgent o) (d + BitVec.ofNat 64 (p.addr.toNat % 2 ^ 32)) p.data = .ok u →
          let piece := p.addr.toNat % 2 ^ 32 / 256
          let x := ({ o with acked := o.acked ++ [piece] } : Op).advance
          let whole := ((List.range (redPackets len)).all x.acked.contains) = true ∧ s.redTurn o g = true
          let got := taken p (exec (.redResult p port) s)
          (sig = 0 ∨ ¬ whole → piece ∉ o.acked → got fun t => t.mem = u.mem) ∧
            (o.fault = none → o.cancelling = false → piece ∉ o.acked → whole →
              (sig = 0 → got fun t => ends t o) ∧
                ∀ v, sig ≠ 0 → (u.updOp o.id fun _ => x).addWord (s.opAgent o) sig len = .ok v → got fun t => t.mem = v.mem ∧ ends t o)) ∧
      (∀ o, p.resp = true → p.op = 0xFF → p.kind ≠ 4 → mine o → taken p (exec (.remoteErrorResponse p port) s) fun t =>
        (∃ z, t.opAt o.id = some z ∧ if o.cancelling = true then z.status = .cancelled else ∃ i, z.status = .failed 8 i) ∧
          memoryStays s t) ∧
      (∀ o, p.resp = true → p.op = 0xFF → p.kind = 4 → s.redOps p.ctx (p.xfer % 4096) (p.aux.toNat / 65536) = [o] → s.opAt o.id = some o →
        s.opDefers o = false → o.cancelling = false → taken p (exec (.remoteErrorResponse p port) s) fun t =>
          (∃ z, t.opAt o.id = some z ∧ ∃ i, z.status = .failed 7 i) ∧ memoryStays s t) ∧
      (p.kind = 6 → p.op = 0 →
        let window := (p.aux.toNat + 3999) / 4000 + 10
        let fits := f.openBytes port + p.aux.toNat ≤ 7000 * (stripe (s.portAt port).rxmask).length * window
        (fits → taken p (exec (.resvRequest p port) s) fun t =>
          (∃ g ∈ t.fab.grants, g.port = port ∧ g.src = p.src ∧ g.xfer = p.xfer ∧ g.bytes = p.aux.toNat ∧ g.til = s.ran + 1000 * window) ∧
            sends t back fun q => q.kind = 6 ∧ q.op = 1 ∧ q.aux = BitVec.ofNat 32 window) ∧
          (¬ fits → taken p (exec (.resvRequest p port) s) fun t =>
            t.fab.grants = s.fab.grants ∧ sends t back fun q => q.kind = 6 ∧ q.op = 2)) ∧
      (∀ o w bytes result, p.kind = 6 → p.op = 1 → mine o → o.kind = .fresv w bytes result →
        writeRange f (s.opAgent o) result (bytesLE 8 (p.aux.toNat * 2 ^ 32)) = .ok u → taken p (exec (.resvGrant p port) s) fun t =>
          t.mem = u.mem ∧ ∃ r ∈ t.fab.reservations, r.gang = o.gang ∧ r.dst = p.src ∧ r.ctx = p.sctx ∧ r.bytes = bytes ∧
            r.after = o.id ∧ r.til = s.ran + 1000 * p.aux.toNat) ∧
      (∀ o w bytes result, p.kind = 6 → p.op = 2 → mine o → o.kind = .fresv w bytes result →
        writeRange f (s.opAgent o) result (bytesLE 8 1) = .ok u → taken p (exec (.resvRefusal p port) s) fun t => t.mem = u.mem) ∧
      (∀ o src r len w sig, p.kind = 7 → p.op = 3 → mine o → o.kind = .fbulk src r len w sig → o.cancelling = false → o.acked = [] →
        o.pc = (r.toNat + p.aux.toNat) / 128 - r.toNat / 128 → taken p (exec (.bulkack p port) s) fun t =>
          (∃ z, t.opAt o.id = some z ∧ z.pc = o.pc + 1 ∧ o.pc ∉ z.owed) ∧ memoryStays s t) ∧
      (p.kind = 7 → p.op = 4 → port < 18 → taken p (exec (.bulkend p port) s) fun t =>
        p.xfer ∈ (t.inFlow p).ended ∧ memoryStays s t)) ∧
    (∀ o since k, s.ops.find? (fun o => o.cls == 3 && o.xfer == n && o.status == .active && !o.owed.isEmpty) = some o →
      o.resv = .refused since → since + 10000 ≤ s.ran → s.opStopped o = false → s.opFlow o = some k → goes (exec (.resvRetryTimer n) s) fun t =>
        (∃ z, t.opAt o.id = some z ∧ z.resv = .asked o.owedBytes) ∧ sends t k fun q => q.kind = 6 ∧ q.op = 0 ∧ q.xfer = o.xfer) ∧
    goes (exec (.resvGrantExpiry n) s) (fun t => t = { s with fab := { s.fab with grants := t.fab.grants } } ∧
      ∀ g, g ∈ t.fab.grants ↔ g ∈ s.fab.grants ∧ ¬ (g.id = n ∧ g.til ≤ s.ran)) ∧
    ∀ members rank root, p.kind = 4 → plain → packetOk p = true → groupEntry s p.ctx (p.xfer % 4096) = some (members, rank, root) →
      2 ≤ members → s.fab.failedReds = [] → p.aux.toNat / 4096 % 16 = 0 → p.aux.toNat % 4096 = 0 →
      let node : RedNode :=
        { ctx := p.ctx, group := p.xfer % 4096, number := p.aux.toNat / 65536, off := p.addr.toNat % 2 ^ 32, level := 0, index := 0,
          code := p.op, total := p.addr.toNat / 2 ^ 32, data := p.data, members := [(0, p.src, p.sctx)] }
      let answers := fun (t : State) (m : Nat × Nat) (has : Packet → Prop) =>
        ∃ q, .packet port q ∈ t.out ∧ q.resp = true ∧ q.dst = m.1 ∧ q.ctx = m.2 ∧ has q
      (s.fab.nodes = [] → root = Config.switchId % 4096 →
        goes (exec (.red p port) s) fun t => t.fab.nodes = [node] ∧ t.out = s.out ∧ memoryStays s t) ∧
        (s.fab.nodes = [] → root ≠ Config.switchId % 4096 → goes (exec (.red p port) s) fun t => t = { s with out := s.out ++ [.packet port p] }) ∧
        ∀ y a b, members = 2 → s.fab.nodes = [y] → y.members = [(1, a, b)] →
          (y = { node with index := 1, data := y.data, members := y.members } → root = Config.switchId % 4096 →
            goes (exec (.red p port) s) fun t => t.fab.nodes = [] ∧ memoryStays s t ∧
              ∀ m ∈ [(p.src, p.sctx), (a, b)], answers t m fun q => q.data = redBytes p.op (p.data.length / 4) p.data y.data) ∧
          (y = { node with index := 1, data := y.data, members := y.members, code := y.code } → y.code ≠ p.op →
            goes (exec (.red p port) s) fun t => t.fab.nodes = [] ∧ memoryStays s t ∧
              ∀ m ∈ [(p.src, p.sctx), (a, b)], answers t m fun q => q.op = 0xFF)

/-- R270, R323, R324: the home directory gives a home-owned line to the package that asks, snoops it back for the next, takes it back with its data,
and counts it lost when its owner does not answer; the package that holds a line gives it back when it is snooped, once the parties that asked
for it have had their turn. The turns at a line are the model's choice (log 8, DESIGN CHOICE); that an error reply waits for the party
that asked is its reading (log 31, DEDUCED). -/
def Obligations.CoherenceEvents : Prop :=
  ∀ (s : State) (p : Packet) (port pa : Nat),
    let f := atGateway s p
    let line := p.addr &&& ~~~(63 : DWord)
    let here := fun (t : State) => t.dirAt (pa / 64)
    let back := backFlow p
    let gives := fun (r : Host.Outcome State Fault Refusal) =>
      ((here s).state = .home → (here s).queue = [] → (here s).turn = [] → taken p r fun t => (here t).state = .excl p.src ∧ memoryStays s t ∧
        sends t back fun q => q.kind = 5 ∧ q.op = 4 ∧ q.addr = line ∧ q.data = s.bytesAt (64 * (pa / 64)) 64) ∧
      ((here s).state = .home → (here s).turn ≠ [] → taken p r fun t => (here t).state = .home ∧ memoryStays s t ∧
        (here t).queue.length = (here s).queue.length + 1) ∧
      ∀ q h, (here s).state = .excl q → (here s).holder = some h → taken p r fun t => (here t).state = .snoop q ∧ memoryStays s t ∧
        (here t).queue.length = (here s).queue.length + 1 ∧ (here t).timer = s.ran + max 1000 (min 10000000 s.fab.cohtmo.toNat)
    (due s port p → p.kind = 5 →
      (p.op = 0 → p.src ≠ s.ownPkg → translate f (gateAgent p.ctx port) line .read = .ok pa → carved f (gateAgent p.ctx port) pa = false →
        gives (exec (.cohRd p port) s)) ∧
      (p.op = 1 → p.src ≠ s.ownPkg → translate f (gateAgent p.ctx port) line .write = .ok pa → carved f (gateAgent p.ctx port) pa = false →
        gives (exec (.cohRdx p port) s)) ∧
      (p.op = 2 → translate f (gateAgent p.ctx port) line .read = .ok pa → (here s).state = .excl p.src → p.data.length = 64 →
        taken p (exec (.cohWb p port) s) fun t => (here t).state = .home ∧ t.bytesAt (64 * (pa / 64)) 64 = p.data ∧
          ∀ a, a / 64 ≠ pa / 64 → t.byteAt a = s.byteAt a) ∧
      (∀ h, p.op = 3 → s.fab.held.find? (fun h => h.ctx == p.ctx && h.line == line) = some h →
        (h.turn = [] → taken p (exec (.cohSnp p port) s) fun t => (∀ x ∈ t.fab.held, ¬ (x.ctx = p.ctx ∧ x.line = line)) ∧
          memoryStays s t ∧ sends t back fun q => q.kind = 5 ∧ q.op = 2 ∧ q.data = h.data) ∧
        (h.turn ≠ [] → goes (exec (.cohSnp p port) s) fun t => t.fab.held = s.fab.held ∧ memoryStays s t ∧
          (t.inFlow p).expected = (s.inFlow p).expected ∧ (t.inFlow p).stalled = some { fault := none, port := port, packet := p })) ∧
      (p.op = 3 → (∀ x ∈ s.fab.held, ¬ (x.ctx = p.ctx ∧ x.line = line)) → taken p (exec (.cohSnp p port) s) fun t =>
        memoryStays s t ∧ sends t back fun q => q.kind = 5 ∧ q.op = 6 ∧ q.addr = line) ∧
      (p.op = 4 → (∀ c ∈ s.fab.cohWaits, c.ctx = p.ctx → c.line = line → c.late = []) → taken p (exec (.cohData p port) s) fun t =>
        (∃ x ∈ t.fab.held, x.ctx = p.ctx ∧ x.line = line ∧ x.data = p.data ∧
          x.turn = turnsOf (s.fab.cohWaits.filter fun c => c.ctx == p.ctx && c.line == line)) ∧
          (∀ c ∈ t.fab.cohWaits, ¬ (c.ctx = p.ctx ∧ c.line = line)) ∧ memoryStays s t) ∧
      (p.op = 5 → taken p (exec (.cohErr p port) s) fun t => (∀ c ∈ t.fab.cohWaits, ¬ (c.ctx = p.ctx ∧ c.line = line)) ∧
        (∀ c ∈ s.fab.cohWaits, c.ctx = p.ctx → c.line = line → ∀ r w, (r, w) ∈ c.planned →
          { ctx := p.ctx, line := line, req := r } ∈ t.fab.cohErrors) ∧ memoryStays s t) ∧
      (p.op = 6 → translate f (gateAgent p.ctx port) line .read = .ok pa → (here s).state = .snoop p.src → (here s).queue = [] →
        taken p (exec (.cohGone p port) s) fun t => (here t).state = .home ∧ memoryStays s t)) ∧
    ∀ q l, (s.dirAt l).state = .snoop q → (s.dirAt l).timer ≤ s.ran → goes (exec (.cohSnoopTimeout l) s) fun t =>
      (t.dirAt l).state = .lost q ∧ (t.dirAt l).queue = [] ∧ (∀ i, i < 8 → .memory (8 * l + i) ∈ t.poison) ∧ memoryStays s t

/-! ### The whole machine: steps, words, memory, reset -/

/-- Lanes of a gang are to issue at an offset: the gang issues, these are the lanes that R207 to R209 choose, and the packet there can
be fetched and holds no pad word at the offset. -/
def Sys2Proof.Says.fetches (s : State) (key pc : Nat) (m : LaneMask) (ws : List Word) : Prop :=
  s.issues key = true ∧ (s.gangAt key).select ((s.gangAt key).readyLanes ||| s.tested key) = some (pc, m) ∧
    pc < 12 * (s.codeOf (s.gangAt key)).n ∧ fetchPacket s key (pc / 12) = .ok ws ∧ slotWord ws (pc % 12 / 4) ≠ padWord

/-- What a step does after the last instruction of a chain: the lanes are counted, the chain's trap, park or diversion takes effect, an
empty gang retires, a snuff that waited for the chain strikes, waits inside the gang end, the wait count of the gang starts again
(R364), and what the move set going leaves. -/
def Sys2Proof.Says.finished (t : State) (key : Nat) : State :=
  let u := if t.cur.alive then t.countChain else t
  let v := u.afterChain
  let w := if (v.gangAt key).alive then ((v.updGang key fun g => { g with retries := [] }).strikeMarked key).settle key else v
  (({ w with issue := Issue.idle } : State).countWaits [key] []).settled

/-- A step lets a gang issue: it is the gang's turn on the agenda, or the cycle of its core, which the agenda names or which comes by
itself, and the gang is the first of the core in the order of R363 and R364, with no other one eligible there. -/
def Sys2Proof.Says.picks (s b : State) (key : Nat) : Prop :=
  (∃ moves, s.agenda = .gang key :: moves ∧ b = { s with agenda := moves }) ∨
    let core := (b.gangAt key).core
    ∃ held rest, (b.issueOrder.filter fun k => (b.gangAt k).core == core && !held.contains k) = key :: rest ∧
      (∀ q ∈ rest, b.eligible q = false) ∧
      ((∃ moves, s.agenda = .cycle core held :: moves ∧ b = { s with agenda := moves }) ∨
        s.agenda = [] ∧ b = s ∧ held = [lampKey core] ∧ (s.issueOrder.filter fun k => !(s.gangAt k).lamp).head? = some key)

/-- R9, R13, R32, R207, R208: when the word at the offset of the lanes that issue next decodes to a well-formed instruction outside a prefix,
without a literal and without a chain, the step runs exec of that instruction, with the lanes moved past its word and past pad
words behind it, and closes the chain. The gang is the one whose turn the agenda names, or the first of a core in the order of R363 and R364
(log 1, DESIGN CHOICE). So it is for a whole chain with prefixes and literals: the step runs its instructions in slot order until one
takes the lanes away, a prefix before its target, and every one reads registers as they stood before the chain; where one closes windows
of later words, a class 7 flag that they let in traps first (R14, R229; log 11, DEDUCED). A starved gang stands in that order before every gang that has waited less (R364).
A move that is an event runs exec of that event. -/
def Obligations.StepRunsDecodedInstruction : Prop :=
  (∀ (s b : State) (key pc : Nat) (m : LaneMask) (ws : List Word) (i : Instr), picks s b key → fetches b key pc m ws →
    let slot := pc % 12 / 4
    let w := slotWord ws slot
    decodeWord w = .instr i → i ≠ .pfx → wellFormed i = true → lowestCase (wordFields Pfx.none w i) = none →
    takesLiteral Pfx.none i = false → chainBit w = false →
    let n : Insn :=
      { first := slot, main := slot, next := slot + 1, pfx := none, instr := i, word := w, literal := none, chain := false }
    let behind := skipPads ws (slot + 1)
    let past := if behind < 3 then pc / 12 * 12 + 4 * behind else (pc / 12 + 1) * 12
    let here := (b.openChain key pc m pc).setInsn n false
    let ready := ((b.openChain key pc m past).setInsn n false).closeBefore Pfx.none i
    here.dynCase n = none → here.leadsNowhere i = false → ready.2.flags &&& ready.1.cur.fptrap = 0 →
    ∀ t, exec i ready.1 = .next t → t.issue.hold = 0 →
      let u := t.readsFrom (b.openChain key pc m past).issue.src
      u.lateTrap = none → step s = .next (finished u key)) ∧
  (∀ (s b : State) (key pc : Nat) (m : LaneMask) (ws : List Word) (ns : List Insn), picks s b key → fetches b key pc m ws →
    let probe := fun n => (b.openChain key pc m pc).setInsn n false
    parseChain (fun n => (probe n).dynCase n) ws 3 (pc % 12 / 4) [] = .ok ns →
    (∀ n ∈ ns, decodeWord n.word = .instr n.instr ∧ n.word = slotWord ws n.main) ∧
    let behind := skipPads ws ((ns.getLast?.map Insn.next).getD 3)
    let past := if behind < 3 then pc / 12 * 12 + 4 * behind else (pc / 12 + 1) * 12
    (∀ n ∈ ns, (probe n).leadsNowhere n.instr = false) →
    ∀ u v, (b.openChain key pc m past).runInsns ws ns = .next u → u.issue.hold = 0 →
      (b.openChain key pc m past).endChain u ws ns = .ok v → v.issue.hold = 0 → step s = .next (finished v key)) ∧
  (∀ (s u : State) (ws : List Word) (ns : List Insn), u.lateTrap = none → s.endChain u ws ns = .ok u) ∧
  (∀ (s a t : State) (ws : List Word) (n : Insn) (ns : List Insn),
    let here := s.setInsn n (!ns.isEmpty)
    ((n.pfx = none ∧ a = here) ∨ (n.pfx ≠ none ∧ ∃ v, a = { v with issue := { v.issue with word := n.word } } ∧
      exec .pfx { here with issue := { here.issue with word := slotWord ws n.first } } = .next v)) →
    let ready := a.closeBefore a.issue.pfx n.instr
    ready.2.flags &&& ready.1.cur.fptrap = 0 → exec n.instr ready.1 = .next t →
      let u := t.readsFrom s.issue.src
      s.runInsns ws (n :: ns) = if u.chainOver then .next u else u.runInsns ws ns) ∧
  (∀ (s : State) (k l : Nat), k ∈ s.issueOrder → l ∈ s.issueOrder → 64 ≤ (s.gangAt k).waited →
    (s.gangAt l).waited < (s.gangAt k).waited → ∃ before between after, s.issueOrder = before ++ k :: (between ++ l :: after)) ∧
  ∀ (s : State) (i : Instr) (moves : List Move), s.agenda = .event i :: moves → isEvent i = true →
    ∀ t, exec i ({ s with agenda := moves } : State).leaveFailed = .next t → step s = .next t.settled

/-- R8, R15, R16, R29: the words of the manual's own examples decode to the instructions they stand for. -/
def Obligations.WordsOfTheManualDecode : Prop :=
  decodeWord 0x08050040 = .instr (.smovi 20 64) ∧ decodeWord 0x88028040 = .instr (.smovi 10 64) ∧ chainBit 0x88028040 = true ∧
    decodeWord 0x200489C8 = .instr (.vadd 9 9 100 0) ∧ decodeWord 0x10007FFB = .instr (.br 0x7FFB) ∧
    decodeWord 0x230070CB = .instr (.vcmpltu 0 112 101 1) ∧ decodeWord 0x40881433 = .instr (.vldW 8 5 3 3) ∧
    decodeWord 0x50C50B30 = .instr (.arset 20 22 3) ∧ decodeWord 0x6080A000 = .instr (.mjob 20 0) ∧
    decodeWord 0x58850B18 = .instr (.fput 20 22 24) ∧ decodeWord 0x48C5050B = .instr (.satomAdd 20 5 0 5 1) ∧
    decodeWord 0x59853228 = .instr (.balloc 20 100 40) ∧ decodeWord padWord = .instr (.smov 0 0) ∧
    decodeWord 0x70000000 = .reject .reservedClass ∧ decodeWord 0x07E00000 = .reject .reservedOp

/-- R8, R15, R29: every well-formed instruction word encodes, and its word decodes to it again, with every operand at every value and
with its chain bit; the chain bit of a prefix is 0. -/
def Obligations.EncodeThenDecode : Prop :=
  ∀ (i : Instr) (chain : Bool), wellFormed i = true → isEvent i = false → (i = .pfx → chain = false) →
    ∃ w, encode chain i = some w ∧ decodeWord w = .instr i ∧ chainBit w = chain

/-- R8, R15, R16, R29: decoding loses no bit of a word: the instruction that a word decodes to, with the word's chain bit, encodes to that
word. Prefix, VPREF, REGION and FENCE are apart: their fields stay in the word (log 15, DESIGN CHOICE). -/
def Obligations.DecodeThenEncode : Prop :=
  ∀ (w : Word) (i : Instr), decodeWord w = .instr i → i ∉ [.pfx, .vpref, .region, .fence] → encode (chainBit w) i = some w

/-- Every step keeps the one form of memory: rising addresses, no listed byte that reads as an unlisted one (log 3, DESIGN CHOICE). -/
def Obligations.StepKeepsMemoryForm : Prop :=
  ∀ s t : State, MemoryKept s → step s = .next t → MemoryKept t

/-- R188, R228, R243, R274, R280, R282, R296, R325, R328, R331, R349, R351, R352, R371: what the manual says of the package right after reset: the boot ROM
waits for an image, time counts from 0, and the registers hold the reset values that their rows give; memory has its one form. -/
def Obligations.ResetState : Prop :=
  MemoryKept State.reset ∧
    ∀ k n, let s := State.reset
      s.pkg.fwstate = .waitImg ∧ s.clock.eph = 0 ∧ s.clock.adj = 0 ∧ s.ptp.cfg = 0 ∧ s.pkg.prewait = 100 ∧ s.pkg.pwrcap = 2800 ∧
        s.pkg.remapEn = false ∧ s.remapOf k n = n ∧ s.fab.pkgid = 0xFFF ∧ (s.portAt k).up = false ∧ s.fab.cohtmo = 40000 ∧
        (s.ctxAt k).trapent = 0xFFFFFFFF ∧ (s.ctxAt k).pinlim = 50000 ∧ (s.ctxAt k).ctxpin = 50000 ∧
        (s.coreAt k).brole = 0x00040C10 ∧ (s.bankAt k n).owner = none ∧ (∀ r, (s.bankAt k n).row r = List.replicate 32 0) ∧
        (s.gangAt k).fptrap = 0 ∧ s.gangs = [] ∧ s.launches = [] ∧ s.ops = []
end

