-- ==== Sys2Proof/Laws/State.lean ====
section
/-!
SUPPORT. Sys2Proof/Laws/State.lean: what each update of the state leaves of each field: one lemma per field per update.
-/

namespace Sys2Proof.Machine

@[simp] theorem State.setGang_clock (s : State) (k : Nat) (g : Gang) : (s.setGang k g).clock = s.clock := rfl
@[simp] theorem State.setGang_mem (s : State) (k : Nat) (g : Gang) : (s.setGang k g).mem = s.mem := rfl
@[simp] theorem State.setGang_poison (s : State) (k : Nat) (g : Gang) : (s.setGang k g).poison = s.poison := rfl
@[simp] theorem State.setGang_tlb (s : State) (k : Nat) (g : Gang) : (s.setGang k g).tlb = s.tlb := rfl
@[simp] theorem State.setGang_dirty (s : State) (k : Nat) (g : Gang) : (s.setGang k g).dirty = s.dirty := rfl
@[simp] theorem State.setGang_pins (s : State) (k : Nat) (g : Gang) : (s.setGang k g).pins = s.pins := rfl
@[simp] theorem State.setGang_launches (s : State) (k : Nat) (g : Gang) : (s.setGang k g).launches = s.launches := rfl
@[simp] theorem State.setGang_pendings (s : State) (k : Nat) (g : Gang) : (s.setGang k g).pendings = s.pendings := rfl
@[simp] theorem State.setGang_ctxs (s : State) (k : Nat) (g : Gang) : (s.setGang k g).ctxs = s.ctxs := rfl
@[simp] theorem State.setGang_queues (s : State) (k : Nat) (g : Gang) : (s.setGang k g).queues = s.queues := rfl
@[simp] theorem State.setGang_cores (s : State) (k : Nat) (g : Gang) : (s.setGang k g).cores = s.cores := rfl
@[simp] theorem State.setGang_domes (s : State) (k : Nat) (g : Gang) : (s.setGang k g).domes = s.domes := rfl
@[simp] theorem State.setGang_dies (s : State) (k : Nat) (g : Gang) : (s.setGang k g).dies = s.dies := rfl
@[simp] theorem State.setGang_ops (s : State) (k : Nat) (g : Gang) : (s.setGang k g).ops = s.ops := rfl
@[simp] theorem State.setGang_lanternQueue (s : State) (k : Nat) (g : Gang) : (s.setGang k g).lanternQueue = s.lanternQueue := rfl
@[simp] theorem State.setGang_nextOp (s : State) (k : Nat) (g : Gang) : (s.setGang k g).nextOp = s.nextOp := rfl
@[simp] theorem State.setGang_nextLaunch (s : State) (k : Nat) (g : Gang) : (s.setGang k g).nextLaunch = s.nextLaunch := rfl
@[simp] theorem State.setGang_nextBorn (s : State) (k : Nat) (g : Gang) : (s.setGang k g).nextBorn = s.nextBorn := rfl
@[simp] theorem State.setGang_nextIntake (s : State) (k : Nat) (g : Gang) : (s.setGang k g).nextIntake = s.nextIntake := rfl
@[simp] theorem State.setGang_pkg (s : State) (k : Nat) (g : Gang) : (s.setGang k g).pkg = s.pkg := rfl
@[simp] theorem State.setGang_fab (s : State) (k : Nat) (g : Gang) : (s.setGang k g).fab = s.fab := rfl
@[simp] theorem State.setGang_chandler (s : State) (k : Nat) (g : Gang) : (s.setGang k g).chandler = s.chandler := rfl
@[simp] theorem State.setGang_ptp (s : State) (k : Nat) (g : Gang) : (s.setGang k g).ptp = s.ptp := rfl
@[simp] theorem State.setGang_issue (s : State) (k : Nat) (g : Gang) : (s.setGang k g).issue = s.issue := rfl
@[simp] theorem State.setGang_agenda (s : State) (k : Nat) (g : Gang) : (s.setGang k g).agenda = s.agenda := rfl
@[simp] theorem State.setGang_out (s : State) (k : Nat) (g : Gang) : (s.setGang k g).out = s.out := rfl
@[simp] theorem State.setGang_lateWrites (s : State) (k : Nat) (g : Gang) : (s.setGang k g).lateWrites = s.lateWrites := rfl
@[simp] theorem State.setGang_free (s : State) (k : Nat) (g : Gang) : (s.setGang k g).free = s.free := rfl

@[simp] theorem State.updGang_clock (s : State) (k : Nat) (f : Gang → Gang) : (s.updGang k f).clock = s.clock := rfl
@[simp] theorem State.updGang_mem (s : State) (k : Nat) (f : Gang → Gang) : (s.updGang k f).mem = s.mem := rfl
@[simp] theorem State.updGang_poison (s : State) (k : Nat) (f : Gang → Gang) : (s.updGang k f).poison = s.poison := rfl
@[simp] theorem State.updGang_tlb (s : State) (k : Nat) (f : Gang → Gang) : (s.updGang k f).tlb = s.tlb := rfl
@[simp] theorem State.updGang_dirty (s : State) (k : Nat) (f : Gang → Gang) : (s.updGang k f).dirty = s.dirty := rfl
@[simp] theorem State.updGang_pins (s : State) (k : Nat) (f : Gang → Gang) : (s.updGang k f).pins = s.pins := rfl
@[simp] theorem State.updGang_launches (s : State) (k : Nat) (f : Gang → Gang) : (s.updGang k f).launches = s.launches := rfl
@[simp] theorem State.updGang_pendings (s : State) (k : Nat) (f : Gang → Gang) : (s.updGang k f).pendings = s.pendings := rfl
@[simp] theorem State.updGang_ctxs (s : State) (k : Nat) (f : Gang → Gang) : (s.updGang k f).ctxs = s.ctxs := rfl
@[simp] theorem State.updGang_queues (s : State) (k : Nat) (f : Gang → Gang) : (s.updGang k f).queues = s.queues := rfl
@[simp] theorem State.updGang_cores (s : State) (k : Nat) (f : Gang → Gang) : (s.updGang k f).cores = s.cores := rfl
@[simp] theorem State.updGang_domes (s : State) (k : Nat) (f : Gang → Gang) : (s.updGang k f).domes = s.domes := rfl
@[simp] theorem State.updGang_dies (s : State) (k : Nat) (f : Gang → Gang) : (s.updGang k f).dies = s.dies := rfl
@[simp] theorem State.updGang_ops (s : State) (k : Nat) (f : Gang → Gang) : (s.updGang k f).ops = s.ops := rfl
@[simp] theorem State.updGang_lanternQueue (s : State) (k : Nat) (f : Gang → Gang) : (s.updGang k f).lanternQueue = s.lanternQueue := rfl
@[simp] theorem State.updGang_nextOp (s : State) (k : Nat) (f : Gang → Gang) : (s.updGang k f).nextOp = s.nextOp := rfl
@[simp] theorem State.updGang_nextLaunch (s : State) (k : Nat) (f : Gang → Gang) : (s.updGang k f).nextLaunch = s.nextLaunch := rfl
@[simp] theorem State.updGang_nextBorn (s : State) (k : Nat) (f : Gang → Gang) : (s.updGang k f).nextBorn = s.nextBorn := rfl
@[simp] theorem State.updGang_nextIntake (s : State) (k : Nat) (f : Gang → Gang) : (s.updGang k f).nextIntake = s.nextIntake := rfl
@[simp] theorem State.updGang_pkg (s : State) (k : Nat) (f : Gang → Gang) : (s.updGang k f).pkg = s.pkg := rfl
@[simp] theorem State.updGang_fab (s : State) (k : Nat) (f : Gang → Gang) : (s.updGang k f).fab = s.fab := rfl
@[simp] theorem State.updGang_chandler (s : State) (k : Nat) (f : Gang → Gang) : (s.updGang k f).chandler = s.chandler := rfl
@[simp] theorem State.updGang_ptp (s : State) (k : Nat) (f : Gang → Gang) : (s.updGang k f).ptp = s.ptp := rfl
@[simp] theorem State.updGang_issue (s : State) (k : Nat) (f : Gang → Gang) : (s.updGang k f).issue = s.issue := rfl
@[simp] theorem State.updGang_agenda (s : State) (k : Nat) (f : Gang → Gang) : (s.updGang k f).agenda = s.agenda := rfl
@[simp] theorem State.updGang_out (s : State) (k : Nat) (f : Gang → Gang) : (s.updGang k f).out = s.out := rfl
@[simp] theorem State.updGang_lateWrites (s : State) (k : Nat) (f : Gang → Gang) : (s.updGang k f).lateWrites = s.lateWrites := rfl
@[simp] theorem State.updGang_free (s : State) (k : Nat) (f : Gang → Gang) : (s.updGang k f).free = s.free := rfl

@[simp] theorem State.setLaunch_clock (s : State) (k : Nat) (l : Launch) : (s.setLaunch k l).clock = s.clock := rfl
@[simp] theorem State.setLaunch_mem (s : State) (k : Nat) (l : Launch) : (s.setLaunch k l).mem = s.mem := rfl
@[simp] theorem State.setLaunch_poison (s : State) (k : Nat) (l : Launch) : (s.setLaunch k l).poison = s.poison := rfl
@[simp] theorem State.setLaunch_tlb (s : State) (k : Nat) (l : Launch) : (s.setLaunch k l).tlb = s.tlb := rfl
@[simp] theorem State.setLaunch_dirty (s : State) (k : Nat) (l : Launch) : (s.setLaunch k l).dirty = s.dirty := rfl
@[simp] theorem State.setLaunch_pins (s : State) (k : Nat) (l : Launch) : (s.setLaunch k l).pins = s.pins := rfl
@[simp] theorem State.setLaunch_gangs (s : State) (k : Nat) (l : Launch) : (s.setLaunch k l).gangs = s.gangs := rfl
@[simp] theorem State.setLaunch_pendings (s : State) (k : Nat) (l : Launch) : (s.setLaunch k l).pendings = s.pendings := rfl
@[simp] theorem State.setLaunch_ctxs (s : State) (k : Nat) (l : Launch) : (s.setLaunch k l).ctxs = s.ctxs := rfl
@[simp] theorem State.setLaunch_queues (s : State) (k : Nat) (l : Launch) : (s.setLaunch k l).queues = s.queues := rfl
@[simp] theorem State.setLaunch_cores (s : State) (k : Nat) (l : Launch) : (s.setLaunch k l).cores = s.cores := rfl
@[simp] theorem State.setLaunch_domes (s : State) (k : Nat) (l : Launch) : (s.setLaunch k l).domes = s.domes := rfl
@[simp] theorem State.setLaunch_dies (s : State) (k : Nat) (l : Launch) : (s.setLaunch k l).dies = s.dies := rfl
@[simp] theorem State.setLaunch_ops (s : State) (k : Nat) (l : Launch) : (s.setLaunch k l).ops = s.ops := rfl
@[simp] theorem State.setLaunch_lanternQueue (s : State) (k : Nat) (l : Launch) : (s.setLaunch k l).lanternQueue = s.lanternQueue := rfl
@[simp] theorem State.setLaunch_nextOp (s : State) (k : Nat) (l : Launch) : (s.setLaunch k l).nextOp = s.nextOp := rfl
@[simp] theorem State.setLaunch_nextLaunch (s : State) (k : Nat) (l : Launch) : (s.setLaunch k l).nextLaunch = s.nextLaunch := rfl
@[simp] theorem State.setLaunch_nextBorn (s : State) (k : Nat) (l : Launch) : (s.setLaunch k l).nextBorn = s.nextBorn := rfl
@[simp] theorem State.setLaunch_nextIntake (s : State) (k : Nat) (l : Launch) : (s.setLaunch k l).nextIntake = s.nextIntake := rfl
@[simp] theorem State.setLaunch_pkg (s : State) (k : Nat) (l : Launch) : (s.setLaunch k l).pkg = s.pkg := rfl
@[simp] theorem State.setLaunch_fab (s : State) (k : Nat) (l : Launch) : (s.setLaunch k l).fab = s.fab := rfl
@[simp] theorem State.setLaunch_chandler (s : State) (k : Nat) (l : Launch) : (s.setLaunch k l).chandler = s.chandler := rfl
@[simp] theorem State.setLaunch_ptp (s : State) (k : Nat) (l : Launch) : (s.setLaunch k l).ptp = s.ptp := rfl
@[simp] theorem State.setLaunch_issue (s : State) (k : Nat) (l : Launch) : (s.setLaunch k l).issue = s.issue := rfl
@[simp] theorem State.setLaunch_agenda (s : State) (k : Nat) (l : Launch) : (s.setLaunch k l).agenda = s.agenda := rfl
@[simp] theorem State.setLaunch_out (s : State) (k : Nat) (l : Launch) : (s.setLaunch k l).out = s.out := rfl
@[simp] theorem State.setLaunch_lateWrites (s : State) (k : Nat) (l : Launch) : (s.setLaunch k l).lateWrites = s.lateWrites := rfl
@[simp] theorem State.setLaunch_free (s : State) (k : Nat) (l : Launch) : (s.setLaunch k l).free = s.free := rfl

@[simp] theorem State.updLaunch_clock (s : State) (k : Nat) (f : Launch → Launch) : (s.updLaunch k f).clock = s.clock := rfl
@[simp] theorem State.updLaunch_mem (s : State) (k : Nat) (f : Launch → Launch) : (s.updLaunch k f).mem = s.mem := rfl
@[simp] theorem State.updLaunch_poison (s : State) (k : Nat) (f : Launch → Launch) : (s.updLaunch k f).poison = s.poison := rfl
@[simp] theorem State.updLaunch_tlb (s : State) (k : Nat) (f : Launch → Launch) : (s.updLaunch k f).tlb = s.tlb := rfl
@[simp] theorem State.updLaunch_dirty (s : State) (k : Nat) (f : Launch → Launch) : (s.updLaunch k f).dirty = s.dirty := rfl
@[simp] theorem State.updLaunch_pins (s : State) (k : Nat) (f : Launch → Launch) : (s.updLaunch k f).pins = s.pins := rfl
@[simp] theorem State.updLaunch_gangs (s : State) (k : Nat) (f : Launch → Launch) : (s.updLaunch k f).gangs = s.gangs := rfl
@[simp] theorem State.updLaunch_pendings (s : State) (k : Nat) (f : Launch → Launch) : (s.updLaunch k f).pendings = s.pendings := rfl
@[simp] theorem State.updLaunch_ctxs (s : State) (k : Nat) (f : Launch → Launch) : (s.updLaunch k f).ctxs = s.ctxs := rfl
@[simp] theorem State.updLaunch_queues (s : State) (k : Nat) (f : Launch → Launch) : (s.updLaunch k f).queues = s.queues := rfl
@[simp] theorem State.updLaunch_cores (s : State) (k : Nat) (f : Launch → Launch) : (s.updLaunch k f).cores = s.cores := rfl
@[simp] theorem State.updLaunch_domes (s : State) (k : Nat) (f : Launch → Launch) : (s.updLaunch k f).domes = s.domes := rfl
@[simp] theorem State.updLaunch_dies (s : State) (k : Nat) (f : Launch → Launch) : (s.updLaunch k f).dies = s.dies := rfl
@[simp] theorem State.updLaunch_ops (s : State) (k : Nat) (f : Launch → Launch) : (s.updLaunch k f).ops = s.ops := rfl
@[simp] theorem State.updLaunch_lanternQueue (s : State) (k : Nat) (f : Launch → Launch) : (s.updLaunch k f).lanternQueue = s.lanternQueue := rfl
@[simp] theorem State.updLaunch_nextOp (s : State) (k : Nat) (f : Launch → Launch) : (s.updLaunch k f).nextOp = s.nextOp := rfl
@[simp] theorem State.updLaunch_nextLaunch (s : State) (k : Nat) (f : Launch → Launch) : (s.updLaunch k f).nextLaunch = s.nextLaunch := rfl
@[simp] theorem State.updLaunch_nextBorn (s : State) (k : Nat) (f : Launch → Launch) : (s.updLaunch k f).nextBorn = s.nextBorn := rfl
@[simp] theorem State.updLaunch_nextIntake (s : State) (k : Nat) (f : Launch → Launch) : (s.updLaunch k f).nextIntake = s.nextIntake := rfl
@[simp] theorem State.updLaunch_pkg (s : State) (k : Nat) (f : Launch → Launch) : (s.updLaunch k f).pkg = s.pkg := rfl
@[simp] theorem State.updLaunch_fab (s : State) (k : Nat) (f : Launch → Launch) : (s.updLaunch k f).fab = s.fab := rfl
@[simp] theorem State.updLaunch_chandler (s : State) (k : Nat) (f : Launch → Launch) : (s.updLaunch k f).chandler = s.chandler := rfl
@[simp] theorem State.updLaunch_ptp (s : State) (k : Nat) (f : Launch → Launch) : (s.updLaunch k f).ptp = s.ptp := rfl
@[simp] theorem State.updLaunch_issue (s : State) (k : Nat) (f : Launch → Launch) : (s.updLaunch k f).issue = s.issue := rfl
@[simp] theorem State.updLaunch_agenda (s : State) (k : Nat) (f : Launch → Launch) : (s.updLaunch k f).agenda = s.agenda := rfl
@[simp] theorem State.updLaunch_out (s : State) (k : Nat) (f : Launch → Launch) : (s.updLaunch k f).out = s.out := rfl
@[simp] theorem State.updLaunch_lateWrites (s : State) (k : Nat) (f : Launch → Launch) : (s.updLaunch k f).lateWrites = s.lateWrites := rfl
@[simp] theorem State.updLaunch_free (s : State) (k : Nat) (f : Launch → Launch) : (s.updLaunch k f).free = s.free := rfl

@[simp] theorem State.setCtx_clock (s : State) (k : Nat) (c : Ctx) : (s.setCtx k c).clock = s.clock := rfl
@[simp] theorem State.setCtx_mem (s : State) (k : Nat) (c : Ctx) : (s.setCtx k c).mem = s.mem := rfl
@[simp] theorem State.setCtx_poison (s : State) (k : Nat) (c : Ctx) : (s.setCtx k c).poison = s.poison := rfl
@[simp] theorem State.setCtx_tlb (s : State) (k : Nat) (c : Ctx) : (s.setCtx k c).tlb = s.tlb := rfl
@[simp] theorem State.setCtx_dirty (s : State) (k : Nat) (c : Ctx) : (s.setCtx k c).dirty = s.dirty := rfl
@[simp] theorem State.setCtx_pins (s : State) (k : Nat) (c : Ctx) : (s.setCtx k c).pins = s.pins := rfl
@[simp] theorem State.setCtx_gangs (s : State) (k : Nat) (c : Ctx) : (s.setCtx k c).gangs = s.gangs := rfl
@[simp] theorem State.setCtx_launches (s : State) (k : Nat) (c : Ctx) : (s.setCtx k c).launches = s.launches := rfl
@[simp] theorem State.setCtx_pendings (s : State) (k : Nat) (c : Ctx) : (s.setCtx k c).pendings = s.pendings := rfl
@[simp] theorem State.setCtx_queues (s : State) (k : Nat) (c : Ctx) : (s.setCtx k c).queues = s.queues := rfl
@[simp] theorem State.setCtx_cores (s : State) (k : Nat) (c : Ctx) : (s.setCtx k c).cores = s.cores := rfl
@[simp] theorem State.setCtx_domes (s : State) (k : Nat) (c : Ctx) : (s.setCtx k c).domes = s.domes := rfl
@[simp] theorem State.setCtx_dies (s : State) (k : Nat) (c : Ctx) : (s.setCtx k c).dies = s.dies := rfl
@[simp] theorem State.setCtx_ops (s : State) (k : Nat) (c : Ctx) : (s.setCtx k c).ops = s.ops := rfl
@[simp] theorem State.setCtx_lanternQueue (s : State) (k : Nat) (c : Ctx) : (s.setCtx k c).lanternQueue = s.lanternQueue := rfl
@[simp] theorem State.setCtx_nextOp (s : State) (k : Nat) (c : Ctx) : (s.setCtx k c).nextOp = s.nextOp := rfl
@[simp] theorem State.setCtx_nextLaunch (s : State) (k : Nat) (c : Ctx) : (s.setCtx k c).nextLaunch = s.nextLaunch := rfl
@[simp] theorem State.setCtx_nextBorn (s : State) (k : Nat) (c : Ctx) : (s.setCtx k c).nextBorn = s.nextBorn := rfl
@[simp] theorem State.setCtx_nextIntake (s : State) (k : Nat) (c : Ctx) : (s.setCtx k c).nextIntake = s.nextIntake := rfl
@[simp] theorem State.setCtx_pkg (s : State) (k : Nat) (c : Ctx) : (s.setCtx k c).pkg = s.pkg := rfl
@[simp] theorem State.setCtx_fab (s : State) (k : Nat) (c : Ctx) : (s.setCtx k c).fab = s.fab := rfl
@[simp] theorem State.setCtx_chandler (s : State) (k : Nat) (c : Ctx) : (s.setCtx k c).chandler = s.chandler := rfl
@[simp] theorem State.setCtx_ptp (s : State) (k : Nat) (c : Ctx) : (s.setCtx k c).ptp = s.ptp := rfl
@[simp] theorem State.setCtx_issue (s : State) (k : Nat) (c : Ctx) : (s.setCtx k c).issue = s.issue := rfl
@[simp] theorem State.setCtx_agenda (s : State) (k : Nat) (c : Ctx) : (s.setCtx k c).agenda = s.agenda := rfl
@[simp] theorem State.setCtx_out (s : State) (k : Nat) (c : Ctx) : (s.setCtx k c).out = s.out := rfl
@[simp] theorem State.setCtx_lateWrites (s : State) (k : Nat) (c : Ctx) : (s.setCtx k c).lateWrites = s.lateWrites := rfl
@[simp] theorem State.setCtx_free (s : State) (k : Nat) (c : Ctx) : (s.setCtx k c).free = s.free := rfl

@[simp] theorem State.setQueue_clock (s : State) (k : Nat) (q : Queue) : (s.setQueue k q).clock = s.clock := rfl
@[simp] theorem State.setQueue_mem (s : State) (k : Nat) (q : Queue) : (s.setQueue k q).mem = s.mem := rfl
@[simp] theorem State.setQueue_poison (s : State) (k : Nat) (q : Queue) : (s.setQueue k q).poison = s.poison := rfl
@[simp] theorem State.setQueue_tlb (s : State) (k : Nat) (q : Queue) : (s.setQueue k q).tlb = s.tlb := rfl
@[simp] theorem State.setQueue_dirty (s : State) (k : Nat) (q : Queue) : (s.setQueue k q).dirty = s.dirty := rfl
@[simp] theorem State.setQueue_pins (s : State) (k : Nat) (q : Queue) : (s.setQueue k q).pins = s.pins := rfl
@[simp] theorem State.setQueue_gangs (s : State) (k : Nat) (q : Queue) : (s.setQueue k q).gangs = s.gangs := rfl
@[simp] theorem State.setQueue_launches (s : State) (k : Nat) (q : Queue) : (s.setQueue k q).launches = s.launches := rfl
@[simp] theorem State.setQueue_pendings (s : State) (k : Nat) (q : Queue) : (s.setQueue k q).pendings = s.pendings := rfl
@[simp] theorem State.setQueue_ctxs (s : State) (k : Nat) (q : Queue) : (s.setQueue k q).ctxs = s.ctxs := rfl
@[simp] theorem State.setQueue_cores (s : State) (k : Nat) (q : Queue) : (s.setQueue k q).cores = s.cores := rfl
@[simp] theorem State.setQueue_domes (s : State) (k : Nat) (q : Queue) : (s.setQueue k q).domes = s.domes := rfl
@[simp] theorem State.setQueue_dies (s : State) (k : Nat) (q : Queue) : (s.setQueue k q).dies = s.dies := rfl
@[simp] theorem State.setQueue_ops (s : State) (k : Nat) (q : Queue) : (s.setQueue k q).ops = s.ops := rfl
@[simp] theorem State.setQueue_lanternQueue (s : State) (k : Nat) (q : Queue) : (s.setQueue k q).lanternQueue = s.lanternQueue := rfl
@[simp] theorem State.setQueue_nextOp (s : State) (k : Nat) (q : Queue) : (s.setQueue k q).nextOp = s.nextOp := rfl
@[simp] theorem State.setQueue_nextLaunch (s : State) (k : Nat) (q : Queue) : (s.setQueue k q).nextLaunch = s.nextLaunch := rfl
@[simp] theorem State.setQueue_nextBorn (s : State) (k : Nat) (q : Queue) : (s.setQueue k q).nextBorn = s.nextBorn := rfl
@[simp] theorem State.setQueue_nextIntake (s : State) (k : Nat) (q : Queue) : (s.setQueue k q).nextIntake = s.nextIntake := rfl
@[simp] theorem State.setQueue_pkg (s : State) (k : Nat) (q : Queue) : (s.setQueue k q).pkg = s.pkg := rfl
@[simp] theorem State.setQueue_fab (s : State) (k : Nat) (q : Queue) : (s.setQueue k q).fab = s.fab := rfl
@[simp] theorem State.setQueue_chandler (s : State) (k : Nat) (q : Queue) : (s.setQueue k q).chandler = s.chandler := rfl
@[simp] theorem State.setQueue_ptp (s : State) (k : Nat) (q : Queue) : (s.setQueue k q).ptp = s.ptp := rfl
@[simp] theorem State.setQueue_issue (s : State) (k : Nat) (q : Queue) : (s.setQueue k q).issue = s.issue := rfl
@[simp] theorem State.setQueue_agenda (s : State) (k : Nat) (q : Queue) : (s.setQueue k q).agenda = s.agenda := rfl
@[simp] theorem State.setQueue_out (s : State) (k : Nat) (q : Queue) : (s.setQueue k q).out = s.out := rfl
@[simp] theorem State.setQueue_lateWrites (s : State) (k : Nat) (q : Queue) : (s.setQueue k q).lateWrites = s.lateWrites := rfl
@[simp] theorem State.setQueue_free (s : State) (k : Nat) (q : Queue) : (s.setQueue k q).free = s.free := rfl

@[simp] theorem State.setCore_clock (s : State) (k : Nat) (c : Core) : (s.setCore k c).clock = s.clock := rfl
@[simp] theorem State.setCore_mem (s : State) (k : Nat) (c : Core) : (s.setCore k c).mem = s.mem := rfl
@[simp] theorem State.setCore_poison (s : State) (k : Nat) (c : Core) : (s.setCore k c).poison = s.poison := rfl
@[simp] theorem State.setCore_tlb (s : State) (k : Nat) (c : Core) : (s.setCore k c).tlb = s.tlb := rfl
@[simp] theorem State.setCore_dirty (s : State) (k : Nat) (c : Core) : (s.setCore k c).dirty = s.dirty := rfl
@[simp] theorem State.setCore_pins (s : State) (k : Nat) (c : Core) : (s.setCore k c).pins = s.pins := rfl
@[simp] theorem State.setCore_gangs (s : State) (k : Nat) (c : Core) : (s.setCore k c).gangs = s.gangs := rfl
@[simp] theorem State.setCore_launches (s : State) (k : Nat) (c : Core) : (s.setCore k c).launches = s.launches := rfl
@[simp] theorem State.setCore_pendings (s : State) (k : Nat) (c : Core) : (s.setCore k c).pendings = s.pendings := rfl
@[simp] theorem State.setCore_ctxs (s : State) (k : Nat) (c : Core) : (s.setCore k c).ctxs = s.ctxs := rfl
@[simp] theorem State.setCore_queues (s : State) (k : Nat) (c : Core) : (s.setCore k c).queues = s.queues := rfl
@[simp] theorem State.setCore_domes (s : State) (k : Nat) (c : Core) : (s.setCore k c).domes = s.domes := rfl
@[simp] theorem State.setCore_dies (s : State) (k : Nat) (c : Core) : (s.setCore k c).dies = s.dies := rfl
@[simp] theorem State.setCore_ops (s : State) (k : Nat) (c : Core) : (s.setCore k c).ops = s.ops := rfl
@[simp] theorem State.setCore_lanternQueue (s : State) (k : Nat) (c : Core) : (s.setCore k c).lanternQueue = s.lanternQueue := rfl
@[simp] theorem State.setCore_nextOp (s : State) (k : Nat) (c : Core) : (s.setCore k c).nextOp = s.nextOp := rfl
@[simp] theorem State.setCore_nextLaunch (s : State) (k : Nat) (c : Core) : (s.setCore k c).nextLaunch = s.nextLaunch := rfl
@[simp] theorem State.setCore_nextBorn (s : State) (k : Nat) (c : Core) : (s.setCore k c).nextBorn = s.nextBorn := rfl
@[simp] theorem State.setCore_nextIntake (s : State) (k : Nat) (c : Core) : (s.setCore k c).nextIntake = s.nextIntake := rfl
@[simp] theorem State.setCore_pkg (s : State) (k : Nat) (c : Core) : (s.setCore k c).pkg = s.pkg := rfl
@[simp] theorem State.setCore_fab (s : State) (k : Nat) (c : Core) : (s.setCore k c).fab = s.fab := rfl
@[simp] theorem State.setCore_chandler (s : State) (k : Nat) (c : Core) : (s.setCore k c).chandler = s.chandler := rfl
@[simp] theorem State.setCore_ptp (s : State) (k : Nat) (c : Core) : (s.setCore k c).ptp = s.ptp := rfl
@[simp] theorem State.setCore_issue (s : State) (k : Nat) (c : Core) : (s.setCore k c).issue = s.issue := rfl
@[simp] theorem State.setCore_agenda (s : State) (k : Nat) (c : Core) : (s.setCore k c).agenda = s.agenda := rfl
@[simp] theorem State.setCore_out (s : State) (k : Nat) (c : Core) : (s.setCore k c).out = s.out := rfl
@[simp] theorem State.setCore_lateWrites (s : State) (k : Nat) (c : Core) : (s.setCore k c).lateWrites = s.lateWrites := rfl
@[simp] theorem State.setCore_free (s : State) (k : Nat) (c : Core) : (s.setCore k c).free = s.free := rfl

@[simp] theorem State.setDome_clock (s : State) (k : Nat) (d : Dome) : (s.setDome k d).clock = s.clock := rfl
@[simp] theorem State.setDome_mem (s : State) (k : Nat) (d : Dome) : (s.setDome k d).mem = s.mem := rfl
@[simp] theorem State.setDome_poison (s : State) (k : Nat) (d : Dome) : (s.setDome k d).poison = s.poison := rfl
@[simp] theorem State.setDome_tlb (s : State) (k : Nat) (d : Dome) : (s.setDome k d).tlb = s.tlb := rfl
@[simp] theorem State.setDome_dirty (s : State) (k : Nat) (d : Dome) : (s.setDome k d).dirty = s.dirty := rfl
@[simp] theorem State.setDome_pins (s : State) (k : Nat) (d : Dome) : (s.setDome k d).pins = s.pins := rfl
@[simp] theorem State.setDome_gangs (s : State) (k : Nat) (d : Dome) : (s.setDome k d).gangs = s.gangs := rfl
@[simp] theorem State.setDome_launches (s : State) (k : Nat) (d : Dome) : (s.setDome k d).launches = s.launches := rfl
@[simp] theorem State.setDome_pendings (s : State) (k : Nat) (d : Dome) : (s.setDome k d).pendings = s.pendings := rfl
@[simp] theorem State.setDome_ctxs (s : State) (k : Nat) (d : Dome) : (s.setDome k d).ctxs = s.ctxs := rfl
@[simp] theorem State.setDome_queues (s : State) (k : Nat) (d : Dome) : (s.setDome k d).queues = s.queues := rfl
@[simp] theorem State.setDome_cores (s : State) (k : Nat) (d : Dome) : (s.setDome k d).cores = s.cores := rfl
@[simp] theorem State.setDome_dies (s : State) (k : Nat) (d : Dome) : (s.setDome k d).dies = s.dies := rfl
@[simp] theorem State.setDome_ops (s : State) (k : Nat) (d : Dome) : (s.setDome k d).ops = s.ops := rfl
@[simp] theorem State.setDome_lanternQueue (s : State) (k : Nat) (d : Dome) : (s.setDome k d).lanternQueue = s.lanternQueue := rfl
@[simp] theorem State.setDome_nextOp (s : State) (k : Nat) (d : Dome) : (s.setDome k d).nextOp = s.nextOp := rfl
@[simp] theorem State.setDome_nextLaunch (s : State) (k : Nat) (d : Dome) : (s.setDome k d).nextLaunch = s.nextLaunch := rfl
@[simp] theorem State.setDome_nextBorn (s : State) (k : Nat) (d : Dome) : (s.setDome k d).nextBorn = s.nextBorn := rfl
@[simp] theorem State.setDome_nextIntake (s : State) (k : Nat) (d : Dome) : (s.setDome k d).nextIntake = s.nextIntake := rfl
@[simp] theorem State.setDome_pkg (s : State) (k : Nat) (d : Dome) : (s.setDome k d).pkg = s.pkg := rfl
@[simp] theorem State.setDome_fab (s : State) (k : Nat) (d : Dome) : (s.setDome k d).fab = s.fab := rfl
@[simp] theorem State.setDome_chandler (s : State) (k : Nat) (d : Dome) : (s.setDome k d).chandler = s.chandler := rfl
@[simp] theorem State.setDome_ptp (s : State) (k : Nat) (d : Dome) : (s.setDome k d).ptp = s.ptp := rfl
@[simp] theorem State.setDome_issue (s : State) (k : Nat) (d : Dome) : (s.setDome k d).issue = s.issue := rfl
@[simp] theorem State.setDome_agenda (s : State) (k : Nat) (d : Dome) : (s.setDome k d).agenda = s.agenda := rfl
@[simp] theorem State.setDome_out (s : State) (k : Nat) (d : Dome) : (s.setDome k d).out = s.out := rfl
@[simp] theorem State.setDome_lateWrites (s : State) (k : Nat) (d : Dome) : (s.setDome k d).lateWrites = s.lateWrites := rfl
@[simp] theorem State.setDome_free (s : State) (k : Nat) (d : Dome) : (s.setDome k d).free = s.free := rfl

@[simp] theorem State.setBank_clock (s : State) (k b : Nat) (x : Bank) : (s.setBank k b x).clock = s.clock := rfl
@[simp] theorem State.setBank_mem (s : State) (k b : Nat) (x : Bank) : (s.setBank k b x).mem = s.mem := rfl
@[simp] theorem State.setBank_poison (s : State) (k b : Nat) (x : Bank) : (s.setBank k b x).poison = s.poison := rfl
@[simp] theorem State.setBank_tlb (s : State) (k b : Nat) (x : Bank) : (s.setBank k b x).tlb = s.tlb := rfl
@[simp] theorem State.setBank_dirty (s : State) (k b : Nat) (x : Bank) : (s.setBank k b x).dirty = s.dirty := rfl
@[simp] theorem State.setBank_pins (s : State) (k b : Nat) (x : Bank) : (s.setBank k b x).pins = s.pins := rfl
@[simp] theorem State.setBank_gangs (s : State) (k b : Nat) (x : Bank) : (s.setBank k b x).gangs = s.gangs := rfl
@[simp] theorem State.setBank_launches (s : State) (k b : Nat) (x : Bank) : (s.setBank k b x).launches = s.launches := rfl
@[simp] theorem State.setBank_pendings (s : State) (k b : Nat) (x : Bank) : (s.setBank k b x).pendings = s.pendings := rfl
@[simp] theorem State.setBank_ctxs (s : State) (k b : Nat) (x : Bank) : (s.setBank k b x).ctxs = s.ctxs := rfl
@[simp] theorem State.setBank_queues (s : State) (k b : Nat) (x : Bank) : (s.setBank k b x).queues = s.queues := rfl
@[simp] theorem State.setBank_cores (s : State) (k b : Nat) (x : Bank) : (s.setBank k b x).cores = s.cores := rfl
@[simp] theorem State.setBank_dies (s : State) (k b : Nat) (x : Bank) : (s.setBank k b x).dies = s.dies := rfl
@[simp] theorem State.setBank_ops (s : State) (k b : Nat) (x : Bank) : (s.setBank k b x).ops = s.ops := rfl
@[simp] theorem State.setBank_lanternQueue (s : State) (k b : Nat) (x : Bank) : (s.setBank k b x).lanternQueue = s.lanternQueue := rfl
@[simp] theorem State.setBank_nextOp (s : State) (k b : Nat) (x : Bank) : (s.setBank k b x).nextOp = s.nextOp := rfl
@[simp] theorem State.setBank_nextLaunch (s : State) (k b : Nat) (x : Bank) : (s.setBank k b x).nextLaunch = s.nextLaunch := rfl
@[simp] theorem State.setBank_nextBorn (s : State) (k b : Nat) (x : Bank) : (s.setBank k b x).nextBorn = s.nextBorn := rfl
@[simp] theorem State.setBank_nextIntake (s : State) (k b : Nat) (x : Bank) : (s.setBank k b x).nextIntake = s.nextIntake := rfl
@[simp] theorem State.setBank_pkg (s : State) (k b : Nat) (x : Bank) : (s.setBank k b x).pkg = s.pkg := rfl
@[simp] theorem State.setBank_fab (s : State) (k b : Nat) (x : Bank) : (s.setBank k b x).fab = s.fab := rfl
@[simp] theorem State.setBank_chandler (s : State) (k b : Nat) (x : Bank) : (s.setBank k b x).chandler = s.chandler := rfl
@[simp] theorem State.setBank_ptp (s : State) (k b : Nat) (x : Bank) : (s.setBank k b x).ptp = s.ptp := rfl
@[simp] theorem State.setBank_issue (s : State) (k b : Nat) (x : Bank) : (s.setBank k b x).issue = s.issue := rfl
@[simp] theorem State.setBank_agenda (s : State) (k b : Nat) (x : Bank) : (s.setBank k b x).agenda = s.agenda := rfl
@[simp] theorem State.setBank_out (s : State) (k b : Nat) (x : Bank) : (s.setBank k b x).out = s.out := rfl
@[simp] theorem State.setBank_lateWrites (s : State) (k b : Nat) (x : Bank) : (s.setBank k b x).lateWrites = s.lateWrites := rfl
@[simp] theorem State.setBank_free (s : State) (k b : Nat) (x : Bank) : (s.setBank k b x).free = s.free := rfl

@[simp] theorem State.setDie_clock (s : State) (k : Nat) (d : Die) : (s.setDie k d).clock = s.clock := rfl
@[simp] theorem State.setDie_mem (s : State) (k : Nat) (d : Die) : (s.setDie k d).mem = s.mem := rfl
@[simp] theorem State.setDie_poison (s : State) (k : Nat) (d : Die) : (s.setDie k d).poison = s.poison := rfl
@[simp] theorem State.setDie_tlb (s : State) (k : Nat) (d : Die) : (s.setDie k d).tlb = s.tlb := rfl
@[simp] theorem State.setDie_dirty (s : State) (k : Nat) (d : Die) : (s.setDie k d).dirty = s.dirty := rfl
@[simp] theorem State.setDie_pins (s : State) (k : Nat) (d : Die) : (s.setDie k d).pins = s.pins := rfl
@[simp] theorem State.setDie_gangs (s : State) (k : Nat) (d : Die) : (s.setDie k d).gangs = s.gangs := rfl
@[simp] theorem State.setDie_launches (s : State) (k : Nat) (d : Die) : (s.setDie k d).launches = s.launches := rfl
@[simp] theorem State.setDie_pendings (s : State) (k : Nat) (d : Die) : (s.setDie k d).pendings = s.pendings := rfl
@[simp] theorem State.setDie_ctxs (s : State) (k : Nat) (d : Die) : (s.setDie k d).ctxs = s.ctxs := rfl
@[simp] theorem State.setDie_queues (s : State) (k : Nat) (d : Die) : (s.setDie k d).queues = s.queues := rfl
@[simp] theorem State.setDie_cores (s : State) (k : Nat) (d : Die) : (s.setDie k d).cores = s.cores := rfl
@[simp] theorem State.setDie_domes (s : State) (k : Nat) (d : Die) : (s.setDie k d).domes = s.domes := rfl
@[simp] theorem State.setDie_ops (s : State) (k : Nat) (d : Die) : (s.setDie k d).ops = s.ops := rfl
@[simp] theorem State.setDie_lanternQueue (s : State) (k : Nat) (d : Die) : (s.setDie k d).lanternQueue = s.lanternQueue := rfl
@[simp] theorem State.setDie_nextOp (s : State) (k : Nat) (d : Die) : (s.setDie k d).nextOp = s.nextOp := rfl
@[simp] theorem State.setDie_nextLaunch (s : State) (k : Nat) (d : Die) : (s.setDie k d).nextLaunch = s.nextLaunch := rfl
@[simp] theorem State.setDie_nextBorn (s : State) (k : Nat) (d : Die) : (s.setDie k d).nextBorn = s.nextBorn := rfl
@[simp] theorem State.setDie_nextIntake (s : State) (k : Nat) (d : Die) : (s.setDie k d).nextIntake = s.nextIntake := rfl
@[simp] theorem State.setDie_pkg (s : State) (k : Nat) (d : Die) : (s.setDie k d).pkg = s.pkg := rfl
@[simp] theorem State.setDie_fab (s : State) (k : Nat) (d : Die) : (s.setDie k d).fab = s.fab := rfl
@[simp] theorem State.setDie_chandler (s : State) (k : Nat) (d : Die) : (s.setDie k d).chandler = s.chandler := rfl
@[simp] theorem State.setDie_ptp (s : State) (k : Nat) (d : Die) : (s.setDie k d).ptp = s.ptp := rfl
@[simp] theorem State.setDie_issue (s : State) (k : Nat) (d : Die) : (s.setDie k d).issue = s.issue := rfl
@[simp] theorem State.setDie_agenda (s : State) (k : Nat) (d : Die) : (s.setDie k d).agenda = s.agenda := rfl
@[simp] theorem State.setDie_out (s : State) (k : Nat) (d : Die) : (s.setDie k d).out = s.out := rfl
@[simp] theorem State.setDie_lateWrites (s : State) (k : Nat) (d : Die) : (s.setDie k d).lateWrites = s.lateWrites := rfl
@[simp] theorem State.setDie_free (s : State) (k : Nat) (d : Die) : (s.setDie k d).free = s.free := rfl

@[simp] theorem State.setPort_clock (s : State) (p : Nat) (x : Port) : (s.setPort p x).clock = s.clock := rfl
@[simp] theorem State.setPort_mem (s : State) (p : Nat) (x : Port) : (s.setPort p x).mem = s.mem := rfl
@[simp] theorem State.setPort_poison (s : State) (p : Nat) (x : Port) : (s.setPort p x).poison = s.poison := rfl
@[simp] theorem State.setPort_tlb (s : State) (p : Nat) (x : Port) : (s.setPort p x).tlb = s.tlb := rfl
@[simp] theorem State.setPort_dirty (s : State) (p : Nat) (x : Port) : (s.setPort p x).dirty = s.dirty := rfl
@[simp] theorem State.setPort_pins (s : State) (p : Nat) (x : Port) : (s.setPort p x).pins = s.pins := rfl
@[simp] theorem State.setPort_gangs (s : State) (p : Nat) (x : Port) : (s.setPort p x).gangs = s.gangs := rfl
@[simp] theorem State.setPort_launches (s : State) (p : Nat) (x : Port) : (s.setPort p x).launches = s.launches := rfl
@[simp] theorem State.setPort_pendings (s : State) (p : Nat) (x : Port) : (s.setPort p x).pendings = s.pendings := rfl
@[simp] theorem State.setPort_ctxs (s : State) (p : Nat) (x : Port) : (s.setPort p x).ctxs = s.ctxs := rfl
@[simp] theorem State.setPort_queues (s : State) (p : Nat) (x : Port) : (s.setPort p x).queues = s.queues := rfl
@[simp] theorem State.setPort_cores (s : State) (p : Nat) (x : Port) : (s.setPort p x).cores = s.cores := rfl
@[simp] theorem State.setPort_domes (s : State) (p : Nat) (x : Port) : (s.setPort p x).domes = s.domes := rfl
@[simp] theorem State.setPort_dies (s : State) (p : Nat) (x : Port) : (s.setPort p x).dies = s.dies := rfl
@[simp] theorem State.setPort_ops (s : State) (p : Nat) (x : Port) : (s.setPort p x).ops = s.ops := rfl
@[simp] theorem State.setPort_lanternQueue (s : State) (p : Nat) (x : Port) : (s.setPort p x).lanternQueue = s.lanternQueue := rfl
@[simp] theorem State.setPort_nextOp (s : State) (p : Nat) (x : Port) : (s.setPort p x).nextOp = s.nextOp := rfl
@[simp] theorem State.setPort_nextLaunch (s : State) (p : Nat) (x : Port) : (s.setPort p x).nextLaunch = s.nextLaunch := rfl
@[simp] theorem State.setPort_nextBorn (s : State) (p : Nat) (x : Port) : (s.setPort p x).nextBorn = s.nextBorn := rfl
@[simp] theorem State.setPort_nextIntake (s : State) (p : Nat) (x : Port) : (s.setPort p x).nextIntake = s.nextIntake := rfl
@[simp] theorem State.setPort_pkg (s : State) (p : Nat) (x : Port) : (s.setPort p x).pkg = s.pkg := rfl
@[simp] theorem State.setPort_chandler (s : State) (p : Nat) (x : Port) : (s.setPort p x).chandler = s.chandler := rfl
@[simp] theorem State.setPort_ptp (s : State) (p : Nat) (x : Port) : (s.setPort p x).ptp = s.ptp := rfl
@[simp] theorem State.setPort_issue (s : State) (p : Nat) (x : Port) : (s.setPort p x).issue = s.issue := rfl
@[simp] theorem State.setPort_agenda (s : State) (p : Nat) (x : Port) : (s.setPort p x).agenda = s.agenda := rfl
@[simp] theorem State.setPort_out (s : State) (p : Nat) (x : Port) : (s.setPort p x).out = s.out := rfl
@[simp] theorem State.setPort_lateWrites (s : State) (p : Nat) (x : Port) : (s.setPort p x).lateWrites = s.lateWrites := rfl
@[simp] theorem State.setPort_free (s : State) (p : Nat) (x : Port) : (s.setPort p x).free = s.free := rfl

@[simp] theorem State.updOp_clock (s : State) (k : Nat) (f : Op → Op) : (s.updOp k f).clock = s.clock := rfl
@[simp] theorem State.updOp_mem (s : State) (k : Nat) (f : Op → Op) : (s.updOp k f).mem = s.mem := rfl
@[simp] theorem State.updOp_poison (s : State) (k : Nat) (f : Op → Op) : (s.updOp k f).poison = s.poison := rfl
@[simp] theorem State.updOp_tlb (s : State) (k : Nat) (f : Op → Op) : (s.updOp k f).tlb = s.tlb := rfl
@[simp] theorem State.updOp_dirty (s : State) (k : Nat) (f : Op → Op) : (s.updOp k f).dirty = s.dirty := rfl
@[simp] theorem State.updOp_pins (s : State) (k : Nat) (f : Op → Op) : (s.updOp k f).pins = s.pins := rfl
@[simp] theorem State.updOp_gangs (s : State) (k : Nat) (f : Op → Op) : (s.updOp k f).gangs = s.gangs := rfl
@[simp] theorem State.updOp_launches (s : State) (k : Nat) (f : Op → Op) : (s.updOp k f).launches = s.launches := rfl
@[simp] theorem State.updOp_pendings (s : State) (k : Nat) (f : Op → Op) : (s.updOp k f).pendings = s.pendings := rfl
@[simp] theorem State.updOp_ctxs (s : State) (k : Nat) (f : Op → Op) : (s.updOp k f).ctxs = s.ctxs := rfl
@[simp] theorem State.updOp_queues (s : State) (k : Nat) (f : Op → Op) : (s.updOp k f).queues = s.queues := rfl
@[simp] theorem State.updOp_cores (s : State) (k : Nat) (f : Op → Op) : (s.updOp k f).cores = s.cores := rfl
@[simp] theorem State.updOp_domes (s : State) (k : Nat) (f : Op → Op) : (s.updOp k f).domes = s.domes := rfl
@[simp] theorem State.updOp_dies (s : State) (k : Nat) (f : Op → Op) : (s.updOp k f).dies = s.dies := rfl
@[simp] theorem State.updOp_lanternQueue (s : State) (k : Nat) (f : Op → Op) : (s.updOp k f).lanternQueue = s.lanternQueue := rfl
@[simp] theorem State.updOp_nextOp (s : State) (k : Nat) (f : Op → Op) : (s.updOp k f).nextOp = s.nextOp := rfl
@[simp] theorem State.updOp_nextLaunch (s : State) (k : Nat) (f : Op → Op) : (s.updOp k f).nextLaunch = s.nextLaunch := rfl
@[simp] theorem State.updOp_nextBorn (s : State) (k : Nat) (f : Op → Op) : (s.updOp k f).nextBorn = s.nextBorn := rfl
@[simp] theorem State.updOp_nextIntake (s : State) (k : Nat) (f : Op → Op) : (s.updOp k f).nextIntake = s.nextIntake := rfl
@[simp] theorem State.updOp_pkg (s : State) (k : Nat) (f : Op → Op) : (s.updOp k f).pkg = s.pkg := rfl
@[simp] theorem State.updOp_fab (s : State) (k : Nat) (f : Op → Op) : (s.updOp k f).fab = s.fab := rfl
@[simp] theorem State.updOp_chandler (s : State) (k : Nat) (f : Op → Op) : (s.updOp k f).chandler = s.chandler := rfl
@[simp] theorem State.updOp_ptp (s : State) (k : Nat) (f : Op → Op) : (s.updOp k f).ptp = s.ptp := rfl
@[simp] theorem State.updOp_issue (s : State) (k : Nat) (f : Op → Op) : (s.updOp k f).issue = s.issue := rfl
@[simp] theorem State.updOp_agenda (s : State) (k : Nat) (f : Op → Op) : (s.updOp k f).agenda = s.agenda := rfl
@[simp] theorem State.updOp_out (s : State) (k : Nat) (f : Op → Op) : (s.updOp k f).out = s.out := rfl
@[simp] theorem State.updOp_lateWrites (s : State) (k : Nat) (f : Op → Op) : (s.updOp k f).lateWrites = s.lateWrites := rfl
@[simp] theorem State.updOp_free (s : State) (k : Nat) (f : Op → Op) : (s.updOp k f).free = s.free := rfl

@[simp] theorem State.emit_clock (s : State) (o : Output) : (s.emit o).clock = s.clock := rfl
@[simp] theorem State.emit_mem (s : State) (o : Output) : (s.emit o).mem = s.mem := rfl
@[simp] theorem State.emit_poison (s : State) (o : Output) : (s.emit o).poison = s.poison := rfl
@[simp] theorem State.emit_tlb (s : State) (o : Output) : (s.emit o).tlb = s.tlb := rfl
@[simp] theorem State.emit_dirty (s : State) (o : Output) : (s.emit o).dirty = s.dirty := rfl
@[simp] theorem State.emit_pins (s : State) (o : Output) : (s.emit o).pins = s.pins := rfl
@[simp] theorem State.emit_gangs (s : State) (o : Output) : (s.emit o).gangs = s.gangs := rfl
@[simp] theorem State.emit_launches (s : State) (o : Output) : (s.emit o).launches = s.launches := rfl
@[simp] theorem State.emit_pendings (s : State) (o : Output) : (s.emit o).pendings = s.pendings := rfl
@[simp] theorem State.emit_ctxs (s : State) (o : Output) : (s.emit o).ctxs = s.ctxs := rfl
@[simp] theorem State.emit_queues (s : State) (o : Output) : (s.emit o).queues = s.queues := rfl
@[simp] theorem State.emit_cores (s : State) (o : Output) : (s.emit o).cores = s.cores := rfl
@[simp] theorem State.emit_domes (s : State) (o : Output) : (s.emit o).domes = s.domes := rfl
@[simp] theorem State.emit_dies (s : State) (o : Output) : (s.emit o).dies = s.dies := rfl
@[simp] theorem State.emit_ops (s : State) (o : Output) : (s.emit o).ops = s.ops := rfl
@[simp] theorem State.emit_lanternQueue (s : State) (o : Output) : (s.emit o).lanternQueue = s.lanternQueue := rfl
@[simp] theorem State.emit_nextOp (s : State) (o : Output) : (s.emit o).nextOp = s.nextOp := rfl
@[simp] theorem State.emit_nextLaunch (s : State) (o : Output) : (s.emit o).nextLaunch = s.nextLaunch := rfl
@[simp] theorem State.emit_nextBorn (s : State) (o : Output) : (s.emit o).nextBorn = s.nextBorn := rfl
@[simp] theorem State.emit_nextIntake (s : State) (o : Output) : (s.emit o).nextIntake = s.nextIntake := rfl
@[simp] theorem State.emit_pkg (s : State) (o : Output) : (s.emit o).pkg = s.pkg := rfl
@[simp] theorem State.emit_fab (s : State) (o : Output) : (s.emit o).fab = s.fab := rfl
@[simp] theorem State.emit_chandler (s : State) (o : Output) : (s.emit o).chandler = s.chandler := rfl
@[simp] theorem State.emit_ptp (s : State) (o : Output) : (s.emit o).ptp = s.ptp := rfl
@[simp] theorem State.emit_issue (s : State) (o : Output) : (s.emit o).issue = s.issue := rfl
@[simp] theorem State.emit_agenda (s : State) (o : Output) : (s.emit o).agenda = s.agenda := rfl
@[simp] theorem State.emit_lateWrites (s : State) (o : Output) : (s.emit o).lateWrites = s.lateWrites := rfl
@[simp] theorem State.emit_free (s : State) (o : Output) : (s.emit o).free = s.free := rfl

@[simp] theorem State.updCur_clock (s : State) (f : Gang → Gang) : (s.updCur f).clock = s.clock := rfl
@[simp] theorem State.updCur_mem (s : State) (f : Gang → Gang) : (s.updCur f).mem = s.mem := rfl
@[simp] theorem State.updCur_poison (s : State) (f : Gang → Gang) : (s.updCur f).poison = s.poison := rfl
@[simp] theorem State.updCur_tlb (s : State) (f : Gang → Gang) : (s.updCur f).tlb = s.tlb := rfl
@[simp] theorem State.updCur_dirty (s : State) (f : Gang → Gang) : (s.updCur f).dirty = s.dirty := rfl
@[simp] theorem State.updCur_pins (s : State) (f : Gang → Gang) : (s.updCur f).pins = s.pins := rfl
@[simp] theorem State.updCur_launches (s : State) (f : Gang → Gang) : (s.updCur f).launches = s.launches := rfl
@[simp] theorem State.updCur_pendings (s : State) (f : Gang → Gang) : (s.updCur f).pendings = s.pendings := rfl
@[simp] theorem State.updCur_ctxs (s : State) (f : Gang → Gang) : (s.updCur f).ctxs = s.ctxs := rfl
@[simp] theorem State.updCur_queues (s : State) (f : Gang → Gang) : (s.updCur f).queues = s.queues := rfl
@[simp] theorem State.updCur_cores (s : State) (f : Gang → Gang) : (s.updCur f).cores = s.cores := rfl
@[simp] theorem State.updCur_domes (s : State) (f : Gang → Gang) : (s.updCur f).domes = s.domes := rfl
@[simp] theorem State.updCur_dies (s : State) (f : Gang → Gang) : (s.updCur f).dies = s.dies := rfl
@[simp] theorem State.updCur_ops (s : State) (f : Gang → Gang) : (s.updCur f).ops = s.ops := rfl
@[simp] theorem State.updCur_lanternQueue (s : State) (f : Gang → Gang) : (s.updCur f).lanternQueue = s.lanternQueue := rfl
@[simp] theorem State.updCur_nextOp (s : State) (f : Gang → Gang) : (s.updCur f).nextOp = s.nextOp := rfl
@[simp] theorem State.updCur_nextLaunch (s : State) (f : Gang → Gang) : (s.updCur f).nextLaunch = s.nextLaunch := rfl
@[simp] theorem State.updCur_nextBorn (s : State) (f : Gang → Gang) : (s.updCur f).nextBorn = s.nextBorn := rfl
@[simp] theorem State.updCur_nextIntake (s : State) (f : Gang → Gang) : (s.updCur f).nextIntake = s.nextIntake := rfl
@[simp] theorem State.updCur_pkg (s : State) (f : Gang → Gang) : (s.updCur f).pkg = s.pkg := rfl
@[simp] theorem State.updCur_fab (s : State) (f : Gang → Gang) : (s.updCur f).fab = s.fab := rfl
@[simp] theorem State.updCur_chandler (s : State) (f : Gang → Gang) : (s.updCur f).chandler = s.chandler := rfl
@[simp] theorem State.updCur_ptp (s : State) (f : Gang → Gang) : (s.updCur f).ptp = s.ptp := rfl
@[simp] theorem State.updCur_issue (s : State) (f : Gang → Gang) : (s.updCur f).issue = s.issue := rfl
@[simp] theorem State.updCur_agenda (s : State) (f : Gang → Gang) : (s.updCur f).agenda = s.agenda := rfl
@[simp] theorem State.updCur_out (s : State) (f : Gang → Gang) : (s.updCur f).out = s.out := rfl
@[simp] theorem State.updCur_lateWrites (s : State) (f : Gang → Gang) : (s.updCur f).lateWrites = s.lateWrites := rfl
@[simp] theorem State.updCur_free (s : State) (f : Gang → Gang) : (s.updCur f).free = s.free := rfl

@[simp] theorem State.writeS_clock (s : State) (n : Nat) (v : Word) : (s.writeS n v).clock = s.clock := rfl
@[simp] theorem State.writeS_mem (s : State) (n : Nat) (v : Word) : (s.writeS n v).mem = s.mem := rfl
@[simp] theorem State.writeS_poison (s : State) (n : Nat) (v : Word) : (s.writeS n v).poison = s.poison := rfl
@[simp] theorem State.writeS_tlb (s : State) (n : Nat) (v : Word) : (s.writeS n v).tlb = s.tlb := rfl
@[simp] theorem State.writeS_dirty (s : State) (n : Nat) (v : Word) : (s.writeS n v).dirty = s.dirty := rfl
@[simp] theorem State.writeS_pins (s : State) (n : Nat) (v : Word) : (s.writeS n v).pins = s.pins := rfl
@[simp] theorem State.writeS_launches (s : State) (n : Nat) (v : Word) : (s.writeS n v).launches = s.launches := rfl
@[simp] theorem State.writeS_pendings (s : State) (n : Nat) (v : Word) : (s.writeS n v).pendings = s.pendings := rfl
@[simp] theorem State.writeS_ctxs (s : State) (n : Nat) (v : Word) : (s.writeS n v).ctxs = s.ctxs := rfl
@[simp] theorem State.writeS_queues (s : State) (n : Nat) (v : Word) : (s.writeS n v).queues = s.queues := rfl
@[simp] theorem State.writeS_cores (s : State) (n : Nat) (v : Word) : (s.writeS n v).cores = s.cores := rfl
@[simp] theorem State.writeS_domes (s : State) (n : Nat) (v : Word) : (s.writeS n v).domes = s.domes := rfl
@[simp] theorem State.writeS_dies (s : State) (n : Nat) (v : Word) : (s.writeS n v).dies = s.dies := rfl
@[simp] theorem State.writeS_ops (s : State) (n : Nat) (v : Word) : (s.writeS n v).ops = s.ops := rfl
@[simp] theorem State.writeS_lanternQueue (s : State) (n : Nat) (v : Word) : (s.writeS n v).lanternQueue = s.lanternQueue := rfl
@[simp] theorem State.writeS_nextOp (s : State) (n : Nat) (v : Word) : (s.writeS n v).nextOp = s.nextOp := rfl
@[simp] theorem State.writeS_nextLaunch (s : State) (n : Nat) (v : Word) : (s.writeS n v).nextLaunch = s.nextLaunch := rfl
@[simp] theorem State.writeS_nextBorn (s : State) (n : Nat) (v : Word) : (s.writeS n v).nextBorn = s.nextBorn := rfl
@[simp] theorem State.writeS_nextIntake (s : State) (n : Nat) (v : Word) : (s.writeS n v).nextIntake = s.nextIntake := rfl
@[simp] theorem State.writeS_pkg (s : State) (n : Nat) (v : Word) : (s.writeS n v).pkg = s.pkg := rfl
@[simp] theorem State.writeS_fab (s : State) (n : Nat) (v : Word) : (s.writeS n v).fab = s.fab := rfl
@[simp] theorem State.writeS_chandler (s : State) (n : Nat) (v : Word) : (s.writeS n v).chandler = s.chandler := rfl
@[simp] theorem State.writeS_ptp (s : State) (n : Nat) (v : Word) : (s.writeS n v).ptp = s.ptp := rfl
@[simp] theorem State.writeS_issue (s : State) (n : Nat) (v : Word) : (s.writeS n v).issue = s.issue := rfl
@[simp] theorem State.writeS_agenda (s : State) (n : Nat) (v : Word) : (s.writeS n v).agenda = s.agenda := rfl
@[simp] theorem State.writeS_out (s : State) (n : Nat) (v : Word) : (s.writeS n v).out = s.out := rfl
@[simp] theorem State.writeS_lateWrites (s : State) (n : Nat) (v : Word) : (s.writeS n v).lateWrites = s.lateWrites := rfl
@[simp] theorem State.writeS_free (s : State) (n : Nat) (v : Word) : (s.writeS n v).free = s.free := rfl

@[simp] theorem State.writePair_clock (s : State) (n : Nat) (v : DWord) : (s.writePair n v).clock = s.clock := rfl
@[simp] theorem State.writePair_mem (s : State) (n : Nat) (v : DWord) : (s.writePair n v).mem = s.mem := rfl
@[simp] theorem State.writePair_poison (s : State) (n : Nat) (v : DWord) : (s.writePair n v).poison = s.poison := rfl
@[simp] theorem State.writePair_tlb (s : State) (n : Nat) (v : DWord) : (s.writePair n v).tlb = s.tlb := rfl
@[simp] theorem State.writePair_dirty (s : State) (n : Nat) (v : DWord) : (s.writePair n v).dirty = s.dirty := rfl
@[simp] theorem State.writePair_pins (s : State) (n : Nat) (v : DWord) : (s.writePair n v).pins = s.pins := rfl
@[simp] theorem State.writePair_launches (s : State) (n : Nat) (v : DWord) : (s.writePair n v).launches = s.launches := rfl
@[simp] theorem State.writePair_pendings (s : State) (n : Nat) (v : DWord) : (s.writePair n v).pendings = s.pendings := rfl
@[simp] theorem State.writePair_ctxs (s : State) (n : Nat) (v : DWord) : (s.writePair n v).ctxs = s.ctxs := rfl
@[simp] theorem State.writePair_queues (s : State) (n : Nat) (v : DWord) : (s.writePair n v).queues = s.queues := rfl
@[simp] theorem State.writePair_cores (s : State) (n : Nat) (v : DWord) : (s.writePair n v).cores = s.cores := rfl
@[simp] theorem State.writePair_domes (s : State) (n : Nat) (v : DWord) : (s.writePair n v).domes = s.domes := rfl
@[simp] theorem State.writePair_dies (s : State) (n : Nat) (v : DWord) : (s.writePair n v).dies = s.dies := rfl
@[simp] theorem State.writePair_ops (s : State) (n : Nat) (v : DWord) : (s.writePair n v).ops = s.ops := rfl
@[simp] theorem State.writePair_lanternQueue (s : State) (n : Nat) (v : DWord) : (s.writePair n v).lanternQueue = s.lanternQueue := rfl
@[simp] theorem State.writePair_nextOp (s : State) (n : Nat) (v : DWord) : (s.writePair n v).nextOp = s.nextOp := rfl
@[simp] theorem State.writePair_nextLaunch (s : State) (n : Nat) (v : DWord) : (s.writePair n v).nextLaunch = s.nextLaunch := rfl
@[simp] theorem State.writePair_nextBorn (s : State) (n : Nat) (v : DWord) : (s.writePair n v).nextBorn = s.nextBorn := rfl
@[simp] theorem State.writePair_nextIntake (s : State) (n : Nat) (v : DWord) : (s.writePair n v).nextIntake = s.nextIntake := rfl
@[simp] theorem State.writePair_pkg (s : State) (n : Nat) (v : DWord) : (s.writePair n v).pkg = s.pkg := rfl
@[simp] theorem State.writePair_fab (s : State) (n : Nat) (v : DWord) : (s.writePair n v).fab = s.fab := rfl
@[simp] theorem State.writePair_chandler (s : State) (n : Nat) (v : DWord) : (s.writePair n v).chandler = s.chandler := rfl
@[simp] theorem State.writePair_ptp (s : State) (n : Nat) (v : DWord) : (s.writePair n v).ptp = s.ptp := rfl
@[simp] theorem State.writePair_issue (s : State) (n : Nat) (v : DWord) : (s.writePair n v).issue = s.issue := rfl
@[simp] theorem State.writePair_agenda (s : State) (n : Nat) (v : DWord) : (s.writePair n v).agenda = s.agenda := rfl
@[simp] theorem State.writePair_out (s : State) (n : Nat) (v : DWord) : (s.writePair n v).out = s.out := rfl
@[simp] theorem State.writePair_lateWrites (s : State) (n : Nat) (v : DWord) : (s.writePair n v).lateWrites = s.lateWrites := rfl
@[simp] theorem State.writePair_free (s : State) (n : Nat) (v : DWord) : (s.writePair n v).free = s.free := rfl

@[simp] theorem State.writeV_clock (s : State) (l n : Nat) (v : Word) : (s.writeV l n v).clock = s.clock := rfl
@[simp] theorem State.writeV_mem (s : State) (l n : Nat) (v : Word) : (s.writeV l n v).mem = s.mem := rfl
@[simp] theorem State.writeV_poison (s : State) (l n : Nat) (v : Word) : (s.writeV l n v).poison = s.poison := rfl
@[simp] theorem State.writeV_tlb (s : State) (l n : Nat) (v : Word) : (s.writeV l n v).tlb = s.tlb := rfl
@[simp] theorem State.writeV_dirty (s : State) (l n : Nat) (v : Word) : (s.writeV l n v).dirty = s.dirty := rfl
@[simp] theorem State.writeV_pins (s : State) (l n : Nat) (v : Word) : (s.writeV l n v).pins = s.pins := rfl
@[simp] theorem State.writeV_launches (s : State) (l n : Nat) (v : Word) : (s.writeV l n v).launches = s.launches := rfl
@[simp] theorem State.writeV_pendings (s : State) (l n : Nat) (v : Word) : (s.writeV l n v).pendings = s.pendings := rfl
@[simp] theorem State.writeV_ctxs (s : State) (l n : Nat) (v : Word) : (s.writeV l n v).ctxs = s.ctxs := rfl
@[simp] theorem State.writeV_queues (s : State) (l n : Nat) (v : Word) : (s.writeV l n v).queues = s.queues := rfl
@[simp] theorem State.writeV_cores (s : State) (l n : Nat) (v : Word) : (s.writeV l n v).cores = s.cores := rfl
@[simp] theorem State.writeV_domes (s : State) (l n : Nat) (v : Word) : (s.writeV l n v).domes = s.domes := rfl
@[simp] theorem State.writeV_dies (s : State) (l n : Nat) (v : Word) : (s.writeV l n v).dies = s.dies := rfl
@[simp] theorem State.writeV_ops (s : State) (l n : Nat) (v : Word) : (s.writeV l n v).ops = s.ops := rfl
@[simp] theorem State.writeV_lanternQueue (s : State) (l n : Nat) (v : Word) : (s.writeV l n v).lanternQueue = s.lanternQueue := rfl
@[simp] theorem State.writeV_nextOp (s : State) (l n : Nat) (v : Word) : (s.writeV l n v).nextOp = s.nextOp := rfl
@[simp] theorem State.writeV_nextLaunch (s : State) (l n : Nat) (v : Word) : (s.writeV l n v).nextLaunch = s.nextLaunch := rfl
@[simp] theorem State.writeV_nextBorn (s : State) (l n : Nat) (v : Word) : (s.writeV l n v).nextBorn = s.nextBorn := rfl
@[simp] theorem State.writeV_nextIntake (s : State) (l n : Nat) (v : Word) : (s.writeV l n v).nextIntake = s.nextIntake := rfl
@[simp] theorem State.writeV_pkg (s : State) (l n : Nat) (v : Word) : (s.writeV l n v).pkg = s.pkg := rfl
@[simp] theorem State.writeV_fab (s : State) (l n : Nat) (v : Word) : (s.writeV l n v).fab = s.fab := rfl
@[simp] theorem State.writeV_chandler (s : State) (l n : Nat) (v : Word) : (s.writeV l n v).chandler = s.chandler := rfl
@[simp] theorem State.writeV_ptp (s : State) (l n : Nat) (v : Word) : (s.writeV l n v).ptp = s.ptp := rfl
@[simp] theorem State.writeV_issue (s : State) (l n : Nat) (v : Word) : (s.writeV l n v).issue = s.issue := rfl
@[simp] theorem State.writeV_agenda (s : State) (l n : Nat) (v : Word) : (s.writeV l n v).agenda = s.agenda := rfl
@[simp] theorem State.writeV_out (s : State) (l n : Nat) (v : Word) : (s.writeV l n v).out = s.out := rfl
@[simp] theorem State.writeV_lateWrites (s : State) (l n : Nat) (v : Word) : (s.writeV l n v).lateWrites = s.lateWrites := rfl
@[simp] theorem State.writeV_free (s : State) (l n : Nat) (v : Word) : (s.writeV l n v).free = s.free := rfl

@[simp] theorem State.writeP_clock (s : State) (l n : Nat) (b : Bool) : (s.writeP l n b).clock = s.clock := rfl
@[simp] theorem State.writeP_mem (s : State) (l n : Nat) (b : Bool) : (s.writeP l n b).mem = s.mem := rfl
@[simp] theorem State.writeP_poison (s : State) (l n : Nat) (b : Bool) : (s.writeP l n b).poison = s.poison := rfl
@[simp] theorem State.writeP_tlb (s : State) (l n : Nat) (b : Bool) : (s.writeP l n b).tlb = s.tlb := rfl
@[simp] theorem State.writeP_dirty (s : State) (l n : Nat) (b : Bool) : (s.writeP l n b).dirty = s.dirty := rfl
@[simp] theorem State.writeP_pins (s : State) (l n : Nat) (b : Bool) : (s.writeP l n b).pins = s.pins := rfl
@[simp] theorem State.writeP_launches (s : State) (l n : Nat) (b : Bool) : (s.writeP l n b).launches = s.launches := rfl
@[simp] theorem State.writeP_pendings (s : State) (l n : Nat) (b : Bool) : (s.writeP l n b).pendings = s.pendings := rfl
@[simp] theorem State.writeP_ctxs (s : State) (l n : Nat) (b : Bool) : (s.writeP l n b).ctxs = s.ctxs := rfl
@[simp] theorem State.writeP_queues (s : State) (l n : Nat) (b : Bool) : (s.writeP l n b).queues = s.queues := rfl
@[simp] theorem State.writeP_cores (s : State) (l n : Nat) (b : Bool) : (s.writeP l n b).cores = s.cores := rfl
@[simp] theorem State.writeP_domes (s : State) (l n : Nat) (b : Bool) : (s.writeP l n b).domes = s.domes := rfl
@[simp] theorem State.writeP_dies (s : State) (l n : Nat) (b : Bool) : (s.writeP l n b).dies = s.dies := rfl
@[simp] theorem State.writeP_ops (s : State) (l n : Nat) (b : Bool) : (s.writeP l n b).ops = s.ops := rfl
@[simp] theorem State.writeP_lanternQueue (s : State) (l n : Nat) (b : Bool) : (s.writeP l n b).lanternQueue = s.lanternQueue := rfl
@[simp] theorem State.writeP_nextOp (s : State) (l n : Nat) (b : Bool) : (s.writeP l n b).nextOp = s.nextOp := rfl
@[simp] theorem State.writeP_nextLaunch (s : State) (l n : Nat) (b : Bool) : (s.writeP l n b).nextLaunch = s.nextLaunch := rfl
@[simp] theorem State.writeP_nextBorn (s : State) (l n : Nat) (b : Bool) : (s.writeP l n b).nextBorn = s.nextBorn := rfl
@[simp] theorem State.writeP_nextIntake (s : State) (l n : Nat) (b : Bool) : (s.writeP l n b).nextIntake = s.nextIntake := rfl
@[simp] theorem State.writeP_pkg (s : State) (l n : Nat) (b : Bool) : (s.writeP l n b).pkg = s.pkg := rfl
@[simp] theorem State.writeP_fab (s : State) (l n : Nat) (b : Bool) : (s.writeP l n b).fab = s.fab := rfl
@[simp] theorem State.writeP_chandler (s : State) (l n : Nat) (b : Bool) : (s.writeP l n b).chandler = s.chandler := rfl
@[simp] theorem State.writeP_ptp (s : State) (l n : Nat) (b : Bool) : (s.writeP l n b).ptp = s.ptp := rfl
@[simp] theorem State.writeP_issue (s : State) (l n : Nat) (b : Bool) : (s.writeP l n b).issue = s.issue := rfl
@[simp] theorem State.writeP_agenda (s : State) (l n : Nat) (b : Bool) : (s.writeP l n b).agenda = s.agenda := rfl
@[simp] theorem State.writeP_out (s : State) (l n : Nat) (b : Bool) : (s.writeP l n b).out = s.out := rfl
@[simp] theorem State.writeP_lateWrites (s : State) (l n : Nat) (b : Bool) : (s.writeP l n b).lateWrites = s.lateWrites := rfl
@[simp] theorem State.writeP_free (s : State) (l n : Nat) (b : Bool) : (s.writeP l n b).free = s.free := rfl

@[simp] theorem State.putBytes_clock (s : State) (a : Nat) (bs : List Byte) : (s.putBytes a bs).clock = s.clock := rfl
@[simp] theorem State.putBytes_poison (s : State) (a : Nat) (bs : List Byte) : (s.putBytes a bs).poison = s.poison := rfl
@[simp] theorem State.putBytes_tlb (s : State) (a : Nat) (bs : List Byte) : (s.putBytes a bs).tlb = s.tlb := rfl
@[simp] theorem State.putBytes_dirty (s : State) (a : Nat) (bs : List Byte) : (s.putBytes a bs).dirty = s.dirty := rfl
@[simp] theorem State.putBytes_pins (s : State) (a : Nat) (bs : List Byte) : (s.putBytes a bs).pins = s.pins := rfl
@[simp] theorem State.putBytes_gangs (s : State) (a : Nat) (bs : List Byte) : (s.putBytes a bs).gangs = s.gangs := rfl
@[simp] theorem State.putBytes_launches (s : State) (a : Nat) (bs : List Byte) : (s.putBytes a bs).launches = s.launches := rfl
@[simp] theorem State.putBytes_pendings (s : State) (a : Nat) (bs : List Byte) : (s.putBytes a bs).pendings = s.pendings := rfl
@[simp] theorem State.putBytes_ctxs (s : State) (a : Nat) (bs : List Byte) : (s.putBytes a bs).ctxs = s.ctxs := rfl
@[simp] theorem State.putBytes_queues (s : State) (a : Nat) (bs : List Byte) : (s.putBytes a bs).queues = s.queues := rfl
@[simp] theorem State.putBytes_cores (s : State) (a : Nat) (bs : List Byte) : (s.putBytes a bs).cores = s.cores := rfl
@[simp] theorem State.putBytes_domes (s : State) (a : Nat) (bs : List Byte) : (s.putBytes a bs).domes = s.domes := rfl
@[simp] theorem State.putBytes_dies (s : State) (a : Nat) (bs : List Byte) : (s.putBytes a bs).dies = s.dies := rfl
@[simp] theorem State.putBytes_ops (s : State) (a : Nat) (bs : List Byte) : (s.putBytes a bs).ops = s.ops := rfl
@[simp] theorem State.putBytes_lanternQueue (s : State) (a : Nat) (bs : List Byte) : (s.putBytes a bs).lanternQueue = s.lanternQueue := rfl
@[simp] theorem State.putBytes_nextOp (s : State) (a : Nat) (bs : List Byte) : (s.putBytes a bs).nextOp = s.nextOp := rfl
@[simp] theorem State.putBytes_nextLaunch (s : State) (a : Nat) (bs : List Byte) : (s.putBytes a bs).nextLaunch = s.nextLaunch := rfl
@[simp] theorem State.putBytes_nextBorn (s : State) (a : Nat) (bs : List Byte) : (s.putBytes a bs).nextBorn = s.nextBorn := rfl
@[simp] theorem State.putBytes_nextIntake (s : State) (a : Nat) (bs : List Byte) : (s.putBytes a bs).nextIntake = s.nextIntake := rfl
@[simp] theorem State.putBytes_pkg (s : State) (a : Nat) (bs : List Byte) : (s.putBytes a bs).pkg = s.pkg := rfl
@[simp] theorem State.putBytes_fab (s : State) (a : Nat) (bs : List Byte) : (s.putBytes a bs).fab = s.fab := rfl
@[simp] theorem State.putBytes_chandler (s : State) (a : Nat) (bs : List Byte) : (s.putBytes a bs).chandler = s.chandler := rfl
@[simp] theorem State.putBytes_ptp (s : State) (a : Nat) (bs : List Byte) : (s.putBytes a bs).ptp = s.ptp := rfl
@[simp] theorem State.putBytes_issue (s : State) (a : Nat) (bs : List Byte) : (s.putBytes a bs).issue = s.issue := rfl
@[simp] theorem State.putBytes_agenda (s : State) (a : Nat) (bs : List Byte) : (s.putBytes a bs).agenda = s.agenda := rfl
@[simp] theorem State.putBytes_out (s : State) (a : Nat) (bs : List Byte) : (s.putBytes a bs).out = s.out := rfl
@[simp] theorem State.putBytes_lateWrites (s : State) (a : Nat) (bs : List Byte) : (s.putBytes a bs).lateWrites = s.lateWrites := rfl
@[simp] theorem State.putBytes_free (s : State) (a : Nat) (bs : List Byte) : (s.putBytes a bs).free = s.free := rfl

end Sys2Proof.Machine
end

