-- ==== Sys2Proof/Laws/Tables.lean ====
section
/-!
SUPPORT. Sys2Proof/Laws/Tables.lean: what tables read after a write, and that writes keep the one form of a table; with them, what memory
reads after bytes are stored.
-/

namespace Sys2Proof.Machine

/-! ### Reading after writing -/

theorem Table.get_put {β : Type} (d : β) (k j : Nat) (v : β) (t : Table β) :
    Table.get d j (Table.put k v t) = if j = k then v else Table.get d j t := by
  induction t with
  | nil => simp only [Table.put, Table.get, eq_comm]
  | cons p t ih =>
    obtain ⟨a, b⟩ := p
    simp only [Table.put]
    split
    · simp only [Table.get, eq_comm]
    · split
      · rename_i h; subst h
        simp only [Table.get]
        by_cases hj : j = a
        · simp [hj]
        · simp [hj, Ne.symm hj]
      · rename_i h
        simp only [Table.get, ih]
        by_cases hj : a = j
        · subst hj; simp [h]
        · simp [hj]

theorem Table.get_erase {β : Type} (d : β) (k j : Nat) (t : Table β) :
    Table.get d j (Table.erase k t) = if j = k then d else Table.get d j t := by
  induction t with
  | nil => simp [Table.erase, Table.get]
  | cons p t ih =>
    obtain ⟨a, b⟩ := p
    simp only [Table.erase]
    split
    · rename_i h; subst h
      simp only [Table.get, ih]
      by_cases hj : j = a
      · simp [hj]
      · simp [hj, Ne.symm hj]
    · rename_i h
      simp only [Table.get, ih]
      by_cases hj : a = j
      · subst hj; simp [h]
      · simp [hj]

theorem Table.get_set {β : Type} [DecidableEq β] (d : β) (k j : Nat) (v : β) (t : Table β) :
    Table.get d j (Table.set d k v t) = if j = k then v else Table.get d j t := by
  unfold Table.set
  split
  · rw [Table.get_erase]; split <;> simp_all
  · exact Table.get_put ..

theorem Table.get_modify {β : Type} (d : β) (k j : Nat) (f : β → β) (t : Table β) :
    Table.get d j (Table.modify d k f t) = if j = k then f (Table.get d k t) else Table.get d j t := Table.get_put ..

/-- A stored list reads back byte for byte, and every other key reads as before. -/
theorem Table.get_setList {β : Type} [DecidableEq β] (d : β) (k j : Nat) (vs : List β) (t : Table β) :
    Table.get d j (Table.setList d k vs t) =
      if h : k ≤ j ∧ j < k + vs.length then vs[j - k]'(by omega) else Table.get d j t := by
  induction vs generalizing k t with
  | nil => simp [Table.setList]; try omega
  | cons v vs ih =>
    simp only [Table.setList, ih, Table.get_set, List.length_cons]
    by_cases h1 : j = k
    · subst h1
      rw [dif_neg (by omega), if_pos rfl, dif_pos (by omega)]
      simp
    · by_cases h2 : k + 1 ≤ j ∧ j < k + 1 + vs.length
      · have h3 : k ≤ j ∧ j < k + (vs.length + 1) := by omega
        rw [dif_pos h2, dif_pos h3, List.getElem_cons, dif_neg (by omega)]
        simp only [Nat.sub_sub]
      · have h3 : ¬ (k ≤ j ∧ j < k + (vs.length + 1)) := by omega
        rw [dif_neg h2, dif_neg h3, if_neg h1]

theorem Table.getList_length {β : Type} (d : β) (k n : Nat) (t : Table β) : (Table.getList d k n t).length = n := by
  induction n generalizing k with
  | zero => rfl
  | succ n ih => simp [Table.getList, ih]

/-! ### The one form of a table -/

theorem Table.above_put {β : Type} (a k : Nat) (v : β) (t : Table β) (h : a < k) (ht : Table.above a t = true) :
    Table.above a (Table.put k v t) = true := by
  induction t with
  | nil => simpa [Table.put, Table.above] using h
  | cons p t ih =>
    obtain ⟨b, c⟩ := p
    simp only [Table.above, Bool.and_eq_true, decide_eq_true_eq] at ht
    simp only [Table.put]
    split
    · simp [Table.above, h, ht.1, ht.2]
    · split
      · simp [Table.above, h, ht.2]
      · simp [Table.above, ht.1, ih ht.2]

theorem Table.above_erase {β : Type} (a k : Nat) (t : Table β) (ht : Table.above a t = true) :
    Table.above a (Table.erase k t) = true := by
  induction t with
  | nil => rfl
  | cons p t ih =>
    obtain ⟨b, c⟩ := p
    simp only [Table.above, Bool.and_eq_true, decide_eq_true_eq] at ht
    simp only [Table.erase]
    split
    · exact ih ht.2
    · simp [Table.above, ht.1, ih ht.2]

theorem Table.above_trans {β : Type} (a b : Nat) (t : Table β) (h : a < b) (ht : Table.above b t = true) :
    Table.above a t = true := by
  induction t with
  | nil => rfl
  | cons p t ih =>
    obtain ⟨c, v⟩ := p
    simp only [Table.above, Bool.and_eq_true, decide_eq_true_eq] at ht ⊢
    exact ⟨by omega, ih ht.2⟩

theorem Table.canonical_put {β : Type} [DecidableEq β] (d : β) (k : Nat) (v : β) (t : Table β) (hv : v ≠ d)
    (ht : Table.canonical d t = true) : Table.canonical d (Table.put k v t) = true := by
  induction t with
  | nil => simp [Table.put, Table.canonical, Table.above, hv]
  | cons p t ih =>
    obtain ⟨a, b⟩ := p
    simp only [Table.canonical, Bool.and_eq_true, decide_eq_true_eq] at ht
    obtain ⟨⟨h1, h2⟩, h3⟩ := ht
    simp only [Table.put]
    split
    · rename_i h
      simp [Table.canonical, Table.above, hv, h, h1, h2, h3, Table.above_trans k a t h h1]
    · split
      · rename_i h; subst h; simp [Table.canonical, hv, h1, h3]
      · simp only [Table.canonical, Bool.and_eq_true, decide_eq_true_eq]
        exact ⟨⟨Table.above_put a k v t (by omega) h1, h2⟩, ih h3⟩

theorem Table.canonical_erase {β : Type} [DecidableEq β] (d : β) (k : Nat) (t : Table β) (ht : Table.canonical d t = true) :
    Table.canonical d (Table.erase k t) = true := by
  induction t with
  | nil => rfl
  | cons p t ih =>
    obtain ⟨a, b⟩ := p
    simp only [Table.canonical, Bool.and_eq_true, decide_eq_true_eq] at ht
    simp only [Table.erase]
    split
    · exact ih ht.2
    · simp only [Table.canonical, Bool.and_eq_true, decide_eq_true_eq]
      exact ⟨⟨Table.above_erase a k t ht.1.1, ht.1.2⟩, ih ht.2⟩

theorem Table.canonical_set {β : Type} [DecidableEq β] (d : β) (k : Nat) (v : β) (t : Table β) (ht : Table.canonical d t = true) :
    Table.canonical d (Table.set d k v t) = true := by
  unfold Table.set
  split
  · exact Table.canonical_erase d k t ht
  · exact Table.canonical_put d k v t (by assumption) ht

theorem Table.canonical_setList {β : Type} [DecidableEq β] (d : β) (k : Nat) (vs : List β) (t : Table β)
    (ht : Table.canonical d t = true) : Table.canonical d (Table.setList d k vs t) = true := by
  induction vs generalizing k t with
  | nil => exact ht
  | cons v vs ih => exact ih (k + 1) _ (Table.canonical_set d k v t ht)

/-! ### Memory -/

/-- Storing bytes is the one operation that changes memory, and it keeps memory in its one form. -/
theorem putBytes_keeps_memory_form (s : State) (a : Nat) (bs : List Byte) (h : Memory.wf s.mem = true) :
    Memory.wf (s.putBytes a bs).mem = true := Table.canonical_setList memDefault a bs s.mem h

/-- A byte after some bytes are stored. -/
theorem byteAt_putBytes (s : State) (a b : Nat) (bs : List Byte) :
    (s.putBytes a bs).byteAt b = if h : a ≤ b ∧ b < a + bs.length then bs[b - a]'(by omega) else s.byteAt b :=
  Table.get_setList memDefault a b bs s.mem

theorem byteAt_putBytes_outside (s : State) (a b : Nat) (bs : List Byte) (h : b < a ∨ a + bs.length ≤ b) :
    (s.putBytes a bs).byteAt b = s.byteAt b := by
  rw [byteAt_putBytes, dif_neg (by omega)]

end Sys2Proof.Machine
end

