-- ==== Sys2Proof/Laws/Effects.lean ====
section
/-!
SUPPORT. Sys2Proof/Laws/Effects.lean: what the shared writers of registers and predicates do, in the words of the statements: each says all
that its writer changes and that nothing else changes.
-/

namespace Sys2Proof.Machine

open Sys2Proof.Says

/-! ### Tables of records -/

theorem gangAt_setGang (s : State) (k j : Nat) (g : Gang) : (s.setGang k g).gangAt j = if j = k then g else s.gangAt j := Table.get_put ..
theorem launchAt_setLaunch (s : State) (k j : Nat) (l : Launch) :
    (s.setLaunch k l).launchAt j = if j = k then l else s.launchAt j := Table.get_put ..
theorem ctxAt_setCtx (s : State) (k j : Nat) (c : Ctx) : (s.setCtx k c).ctxAt j = if j = k then c else s.ctxAt j := Table.get_put ..
theorem queueAt_setQueue (s : State) (k j : Nat) (q : Queue) : (s.setQueue k q).queueAt j = if j = k then q else s.queueAt j :=
  Table.get_put ..
theorem coreAt_setCore (s : State) (k j : Nat) (c : Core) : (s.setCore k c).coreAt j = if j = k then c else s.coreAt j := Table.get_put ..
theorem domeAt_setDome (s : State) (k j : Nat) (d : Dome) : (s.setDome k d).domeAt j = if j = k then d else s.domeAt j := Table.get_put ..
theorem dieAt_setDie (s : State) (k j : Nat) (d : Die) : (s.setDie k d).dieAt j = if j = k then d else s.dieAt j := Table.get_put ..
theorem portAt_setPort (s : State) (k j : Nat) (x : Port) : (s.setPort k x).portAt j = if j = k then x else s.portAt j := Table.get_put ..

/-! ### The gang of the chain -/

@[simp] theorem cur_updCur (s : State) (f : Gang → Gang) : (s.updCur f).cur = f s.cur := by
  show Table.get Gang.absent s.issue.gang (Table.put s.issue.gang (f s.cur) s.gangs) = f s.cur
  rw [Table.get_put, if_pos rfl]

theorem gangAt_updCur (s : State) (f : Gang → Gang) (k : Nat) (h : k ≠ s.issue.gang) : (s.updCur f).gangAt k = s.gangAt k := by
  show Table.get Gang.absent k (Table.put s.issue.gang (f s.cur) s.gangs) = _
  rw [Table.get_put, if_neg h]
  rfl

/-- A change of the chain's gang changes nothing else. -/
theorem onlyGang_updCur (s : State) (f : Gang → Gang) : onlyGang s (s.updCur f) :=
  ⟨rfl, fun k h => gangAt_updCur s f k h, fun _ => rfl⟩

/-! ### Scalar registers -/

theorem sreg_setS (g : Gang) (n m : Nat) (v : Word) : (g.setS n v).sreg m = if m = n then v else g.sreg m := Table.get_set ..

/-- All that writing a scalar register does. -/
theorem scalarTo_writeS (s : State) (n : Nat) (v : Word) : scalarTo s n v (.next (s.writeS n v)) := by
  refine ⟨_, rfl, ?_, ?_, ?_, onlyGang_updCur s _⟩
  · simp [State.writeS, sreg_setS]
  · intro m h; simp [State.writeS, sreg_setS, h]
  · simp [State.writeS, Gang.setS]

/-- All that writing a pair of scalar registers does. -/
theorem pairTo_writePair (s : State) (n : Nat) (v : DWord) : pairTo s n v (.next (s.writePair n v)) := by
  refine ⟨_, rfl, ?_, ?_, ?_, ?_, onlyGang_updCur s _⟩
  · simp [State.writePair, Gang.setPair, sreg_setS]
    ext i hi; simp
  · simp [State.writePair, Gang.setPair, sreg_setS]
    ext i hi; simp
  · intro m h1 h2; simp [State.writePair, Gang.setPair, sreg_setS, h1, h2]
  · simp [State.writePair, Gang.setPair, Gang.setS]

/-! ### Lanes -/

theorem lane_updLane (g : Gang) (l k : Nat) (f : Lane → Lane) : (g.updLane l f).lane k = if k = l then f (g.lane l) else g.lane k :=
  Table.get_put ..

/-- All that changing some lanes of the chain's gang one after another does. -/
theorem lanes_fold (s : State) (F : Nat → Lane → Lane) (step : State → Nat → State)
    (hstep : ∀ t l, t.issue = s.issue → step t l = t.updCur fun g => g.updLane l (F l)) (ls : List Nat) (hn : ls.Nodup) (u : State)
    (hu : u.issue = s.issue) :
    let t := ls.foldl step u
    t = { u with gangs := t.gangs } ∧ (∀ k, k ≠ u.issue.gang → t.gangAt k = u.gangAt k) ∧
      t.cur = { u.cur with lanes := t.cur.lanes } ∧ ∀ l, t.cur.lane l = if l ∈ ls then F l (u.cur.lane l) else u.cur.lane l := by
  induction ls generalizing u with
  | nil => exact ⟨rfl, fun _ _ => rfl, rfl, fun l => by simp⟩
  | cons a ls ih =>
    simp only [List.foldl_cons]
    rw [hstep u a hu]
    obtain ⟨h1, h2, h3, h4⟩ := ih (List.nodup_cons.mp hn).2 (u.updCur fun g => g.updLane a (F a)) hu
    have ha : a ∉ ls := (List.nodup_cons.mp hn).1
    refine ⟨h1.trans rfl, fun k hk => (h2 k hk).trans (gangAt_updCur _ _ _ hk), h3.trans ?_, fun l => ?_⟩
    · rw [cur_updCur]; rfl
    · rw [h4 l, cur_updCur, lane_updLane]
      by_cases hl : l = a
      · subst hl; simp [ha]
      · simp [hl]

/-- The lanes of a mask are the bits that are set. -/
theorem mem_lanesOf (m : LaneMask) (l : Nat) : l ∈ lanesOf m ↔ l < 32 ∧ m.getLsbD l = true := by simp [lanesOf]

theorem lanesOf_nodup (m : LaneMask) : (lanesOf m).Nodup := List.Pairwise.filter _ List.nodup_range

theorem mem_active (s : State) (l : Nat) : l ∈ s.active ↔ activeLane s l := by
  simp [State.active, mem_lanesOf, activeLane, issuing, State.guardOn]

theorem mem_inactive (s : State) (l : Nat) : l ∈ s.inactive ↔ issuing s l ∧ ¬ activeLane s l := by
  simp [State.inactive, mem_lanesOf, activeLane, issuing, State.guardOn]
  intro h1 h2
  exact ⟨fun h _ _ => h, fun h => h h1 h2⟩

theorem active_nodup (s : State) : s.active.Nodup := List.Pairwise.filter _ (lanesOf_nodup _)
theorem inactive_nodup (s : State) : s.inactive.Nodup := List.Pairwise.filter _ (lanesOf_nodup _)

/-- All that a write to each active lane, and with .z to each inactive one, does to the chain's gang. -/
theorem writeEach_effect (s : State) (F Z : Nat → Lane → Lane) (step zero : State → Nat → State)
    (h1 : ∀ t l, t.issue = s.issue → step t l = t.updCur fun g => g.updLane l (F l))
    (h2 : ∀ t l, t.issue = s.issue → zero t l = t.updCur fun g => g.updLane l (Z l)) :
    let t := if s.issue.pfx.z = 1 then s.inactive.foldl zero (s.active.foldl step s) else s.active.foldl step s
    onlyGang s t ∧ t.cur = { s.cur with lanes := t.cur.lanes } ∧
      (∀ l, activeLane s l → t.cur.lane l = F l (s.cur.lane l)) ∧
      (∀ l, issuing s l → ¬ activeLane s l → t.cur.lane l = if s.issue.pfx.z = 1 then Z l (s.cur.lane l) else s.cur.lane l) ∧
      ∀ l, ¬ issuing s l → t.cur.lane l = s.cur.lane l := by
  have ha := lanes_fold s F step h1 s.active (active_nodup s) s rfl
  obtain ⟨a1, a2, a3, a4⟩ := ha
  have hi : (s.active.foldl step s).issue = s.issue := by rw [a1]
  have hb := lanes_fold s Z zero h2 s.inactive (inactive_nodup s) (s.active.foldl step s) hi
  obtain ⟨b1, b2, b3, b4⟩ := hb
  have out : ∀ l, ¬ issuing s l → l ∉ s.active ∧ l ∉ s.inactive := by
    intro l h; rw [mem_active, mem_inactive]; exact ⟨fun h' => h h'.1, fun h' => h h'.1⟩
  intro t
  by_cases hz : s.issue.pfx.z = 1
  · have ht : t = s.inactive.foldl zero (s.active.foldl step s) := if_pos hz
    rw [ht]
    refine ⟨⟨?_, ?_, ?_⟩, ?_, ?_, ?_, ?_⟩
    · rw [b1, a1]
    · intro k hk; rw [b2 k (by rw [hi]; exact hk), a2 k hk]
    · intro x; rw [b1, a1]; rfl
    · rw [b3, a3]
    · intro l hl
      rw [b4, if_neg (by rw [mem_inactive]; exact fun h => h.2 hl), a4, if_pos ((mem_active s l).2 hl)]
    · intro l hl hn
      rw [b4, if_pos ((mem_inactive s l).2 ⟨hl, hn⟩), a4, if_neg (by rw [mem_active]; exact hn), if_pos hz]
    · intro l hl; rw [b4, if_neg (out l hl).2, a4, if_neg (out l hl).1]
  · have ht : t = s.active.foldl step s := if_neg hz
    rw [ht]
    refine ⟨⟨a1, a2, fun x => ?_⟩, a3, ?_, ?_, ?_⟩
    · rw [a1]; rfl
    · intro l hl; rw [a4, if_pos ((mem_active s l).2 hl)]
    · intro l hl hn; rw [a4, if_neg (by rw [mem_active]; exact hn), if_neg hz]
    · intro l hl; rw [a4, if_neg (out l hl).1]

theorem vreg_setVAt (x : Lane) (base n m : Nat) (v : Word) :
    ({ x.setVAt base n v with wbase := base } : Lane).vreg m = if m = n then v else ({ x with wbase := base } : Lane).vreg m := by
  unfold Lane.setVAt Lane.vreg vSlot
  by_cases hn : n < 8
  · by_cases hm : m < 8
    · simp [hn, hm, Table.get_set]
    · have : m ≠ n := by omega
      simp [hn, hm, this]
  · by_cases hm : m < 8
    · have : m ≠ n := by omega
      simp [hn, hm, this]
    · simp only [hn, hm, if_false, Table.get_set]
      have : (base + (m - 8) = base + (n - 8)) = (m = n) := by simp; omega
      simp only [this]

theorem below_setVAt (x : Lane) (base n j : Nat) (v : Word) (h : j < base) :
    Table.get 0 j (x.setVAt base n v).stack = Table.get 0 j x.stack := by
  unfold Lane.setVAt vSlot
  split
  · rfl
  · simp only [Table.get_set]; rw [if_neg (by omega)]

theorem rest_setVAt (x : Lane) (base n : Nat) (v : Word) :
    x.setVAt base n v = { x with globals := (x.setVAt base n v).globals, stack := (x.setVAt base n v).stack } := by
  unfold Lane.setVAt; split <;> rfl

/-- All that writing a vector destination, or one element of it, does. -/
theorem elementPart_writePart (s : State) (n : Nat) (f z : Nat → Word) :
    elementPart s (s.writePart n f z) n f z ∧ (s.writePart n f z).cur = { s.cur with lanes := (s.writePart n f z).cur.lanes } ∧
      onlyGang s (s.writePart n f z) := by
  obtain ⟨h1, h2, h3, h4, h5⟩ := writeEach_effect s (fun l x => x.setVAt (s.srcLane l).wbase n (f l))
    (fun l x => x.setVAt (s.srcLane l).wbase n (z l)) (fun t l => t.writeV l n (f l)) (fun t l => t.writeV l n (z l))
    (fun t l h => by simp only [State.writeV, State.srcLane, h]) (fun t l h => by simp only [State.writeV, State.srcLane, h])
  refine ⟨⟨?_, ?_, ?_, ?_, ?_⟩, h2, h1⟩
  · intro l hl
    show ({ (s.writePart n f z).cur.lane l with wbase := (s.srcLane l).wbase } : Lane).vreg n = f l
    rw [show (s.writePart n f z).cur.lane l = _ from h3 l hl, vreg_setVAt, if_pos rfl]
  · intro l hl hn
    show ({ (s.writePart n f z).cur.lane l with wbase := (s.srcLane l).wbase } : Lane).vreg n = _
    rw [show (s.writePart n f z).cur.lane l = _ from h4 l hl hn]
    split
    · rw [vreg_setVAt, if_pos rfl]
    · rfl
  · intro l m hm
    show ({ (s.writePart n f z).cur.lane l with wbase := (s.srcLane l).wbase } : Lane).vreg m = _
    by_cases hl : issuing s l
    · have hm : m ≠ n := hm.resolve_right fun h => h hl
      by_cases ha : activeLane s l
      · rw [show (s.writePart n f z).cur.lane l = _ from h3 l ha, vreg_setVAt, if_neg hm]; rfl
      · rw [show (s.writePart n f z).cur.lane l = _ from h4 l hl ha]
        split
        · rw [vreg_setVAt, if_neg hm]; rfl
        · rfl
    · rw [show (s.writePart n f z).cur.lane l = _ from h5 l hl]; rfl
  · intro l j hj
    by_cases hl : issuing s l
    · by_cases ha : activeLane s l
      · rw [show (s.writePart n f z).cur.lane l = _ from h3 l ha, below_setVAt _ _ _ _ _ hj]
      · rw [show (s.writePart n f z).cur.lane l = _ from h4 l hl ha]
        split
        · rw [below_setVAt _ _ _ _ _ hj]
        · rfl
    · rw [show (s.writePart n f z).cur.lane l = _ from h5 l hl]
  · intro l
    by_cases hl : issuing s l
    · by_cases ha : activeLane s l
      · rw [show (s.writePart n f z).cur.lane l = _ from h3 l ha]; exact rest_setVAt ..
      · rw [show (s.writePart n f z).cur.lane l = _ from h4 l hl ha]
        split
        · exact rest_setVAt ..
        · rfl
    · rw [show (s.writePart n f z).cur.lane l = _ from h5 l hl]

/-- All that writing a vector destination does. -/
theorem vectorTo_writeLanes (s : State) (n : Nat) (f : Nat → Word) : vectorTo s n f (.next (s.writeLanes n f)) :=
  ⟨_, rfl, elementPart_writePart s n f fun _ => 0⟩

/-! ### Predicates -/

theorem getLsbD_setBit {w : Nat} (x : BitVec w) (n m : Nat) (b : Bool) :
    (setBit x n b).getLsbD m = if m = n ∧ n < w then b else x.getLsbD m := by
  unfold setBit
  have key : (BitVec.ofNat w (2 ^ n)).getLsbD m = (decide (m < w) && decide (n = m)) := by
    rw [BitVec.getLsbD_ofNat, Nat.testBit_two_pow]
  have low : w ≤ m → x.getLsbD m = false := BitVec.getLsbD_of_ge x m
  cases b
  · simp only [Bool.false_eq_true, if_false, BitVec.getLsbD_and, BitVec.getLsbD_not, key]
    by_cases h : m = n
    · by_cases hw : n < w
      · simp [h, hw]
      · have := low (by omega)
        rw [h] at this
        simp [h, hw, this]
    · simp only [h, false_and, if_false, Ne.symm h, decide_false, Bool.and_false, Bool.not_false, Bool.and_true]
      by_cases hw : m < w
      · simp [hw]
      · simp [hw, low (by omega)]
  · simp only [if_true, BitVec.getLsbD_or, key]
    by_cases h : m = n
    · by_cases hw : n < w <;> simp [h, hw]
    · simp [h, Ne.symm h]

theorem pred_zero (x : Lane) : x.pred 0 = true := rfl

theorem pred_setPred (x : Lane) (n m : Nat) (b : Bool) :
    (x.setPred n b).pred m = if m = n ∧ n ≠ 0 ∧ n < 96 then b else x.pred m := by
  unfold Lane.setPred Lane.pred
  by_cases hn : n = 0
  · simp [hn]
  · rw [if_neg hn, getLsbD_setBit]
    by_cases hm : m = 0
    · subst hm; simp [Ne.symm hn]
    · by_cases h : m = n ∧ n < 96
      · simp [h.1, h.2, hn]
      · rw [if_neg h, if_neg (fun h' => h ⟨h'.1, h'.2.2⟩)]

theorem rest_setPred (x : Lane) (n : Nat) (b : Bool) : x.setPred n b = { x with preds := (x.setPred n b).preds } := by
  unfold Lane.setPred; split <;> rfl

/-- All that writing a predicate destination does. -/
theorem predTo_writePreds (s : State) (n : Nat) (f : Nat → Bool) : predTo s n f (.next (s.writePreds n f)) := by
  obtain ⟨h1, h2, h3, h4, h5⟩ := writeEach_effect s (fun l x => x.setPred n (f l)) (fun _ x => x.setPred n false)
    (fun t l => t.writeP l n (f l)) (fun t l => t.writeP l n false) (fun t l _ => rfl) (fun t l _ => rfl)
  have e3 := fun l hl => show (s.writePreds n f).cur.lane l = _ from h3 l hl
  have e4 := fun l hl hn => show (s.writePreds n f).cur.lane l = _ from h4 l hl hn
  have e5 := fun l hl => show (s.writePreds n f).cur.lane l = _ from h5 l hl
  refine ⟨s.writePreds n f, rfl, ⟨fun _ => rfl, ?_, ?_, ?_, ?_⟩, h2, h1⟩
  · intro l h0 h96 hl; rw [e3 l hl, pred_setPred, if_pos ⟨rfl, h0, h96⟩]
  · intro l h0 h96 hl hn
    rw [e4 l hl hn]
    split
    · rw [pred_setPred, if_pos ⟨rfl, h0, h96⟩]
    · rfl
  · intro l m hm
    by_cases hl : issuing s l
    · have hm : m ≠ n := hm.resolve_right fun h => h hl
      by_cases ha : activeLane s l
      · rw [e3 l ha, pred_setPred, if_neg fun h => hm h.1]
      · rw [e4 l hl ha]
        split
        · rw [pred_setPred, if_neg fun h => hm h.1]
        · rfl
    · rw [e5 l hl]
  · intro l
    by_cases hl : issuing s l
    · by_cases ha : activeLane s l
      · rw [e3 l ha]; exact rest_setPred ..
      · rw [e4 l hl ha]
        split
        · exact rest_setPred ..
        · rfl
    · rw [e5 l hl]

/-! ### Flags -/

theorem getLsbD_foldl_or (ls : List Nat) (f : Nat → BitVec 5) (x : BitVec 5) (i : Nat) :
    (ls.foldl (fun x l => x ||| f l) x).getLsbD i = true ↔ x.getLsbD i = true ∨ ∃ l ∈ ls, (f l).getLsbD i = true := by
  induction ls generalizing x with
  | nil => simp
  | cons a ls ih => simp only [List.foldl_cons, ih, BitVec.getLsbD_or, Bool.or_eq_true, List.mem_cons, exists_eq_or_imp, or_assoc]

theorem cur_raise (s : State) (f : BitVec 5) : (s.raise f).cur = { s.cur with fpflag := s.cur.fpflag ||| f } :=
  cur_updCur s fun g => { g with fpflag := g.fpflag ||| f }

theorem gangAt_raise (s : State) (f : BitVec 5) (k : Nat) (h : k ≠ s.issue.gang) : (s.raise f).gangAt k = s.gangAt k :=
  gangAt_updCur s (fun g => { g with fpflag := g.fpflag ||| f }) k h

/-- All that raising the flags of the active lanes after a change of lanes does. -/
theorem raises_raise (s u : State) (f : Nat → BitVec 5) (h1 : onlyGang s u) (h2 : u.cur = { s.cur with lanes := u.cur.lanes }) :
    raises s (u.raise (s.active.foldl (fun x l => x ||| f l) 0)) f := by
  obtain ⟨g1, g2, g3⟩ := h1
  have hi : u.issue = s.issue := by rw [g1]
  have key : ∀ i, (s.active.foldl (fun x l => x ||| f l) 0).getLsbD i = true ↔ ∃ l, activeLane s l ∧ (f l).getLsbD i = true := by
    intro i
    rw [getLsbD_foldl_or]
    simp [mem_active]
  refine ⟨fun i => ?_, fun i => ?_, ?_, ⟨_, ?_, key⟩, ?_, fun k hk => ?_, fun a => ?_⟩
  · rw [cur_raise, ← key]
    simp only [BitVec.getLsbD_or, Bool.or_eq_true]
    rw [show u.cur.fpflag = s.cur.fpflag by rw [h2]]
  · rw [← key]
    show (u.issue.flags ||| _).getLsbD i = true ↔ _
    rw [hi]
    simp only [BitVec.getLsbD_or, Bool.or_eq_true]
  · rw [cur_raise, h2]
  · show u.issue.raised ++ [(u.issue.pc, _)] = _
    rw [hi]
  · show ({ ({ u with gangs := _ } : State) with issue := { u.issue with flags := _, raised := _ } } : State) = _
    rw [g1]
    rfl
  · rw [gangAt_raise _ _ _ (by rw [hi]; exact hk), g2 k hk]
  · exact g3 a

/-- All that writing a vector destination with flags does. -/
theorem flaggedTo_writeFlagged (s : State) (n : Nat) (f : Nat → Word × BitVec 5) : flaggedTo s n f (s.writeFlagged n f) := by
  obtain ⟨u, hu, hv, hc, ho⟩ := vectorTo_writeLanes s n fun l => (f l).1
  cases hu
  refine ⟨_, rfl, ?_, raises_raise s _ (fun l => (f l).2) ho hc, fun q => ?_⟩
  · simpa only [vectorPart, elementPart, vreg, Gang.lane, cur_raise] using hv
  · rw [cur_raise, hc]; rfl

/-- All that writing one element of a vector destination with flags does. -/
theorem flaggedElementTo_writeElement (s : State) (n : Nat) (put : Word → Nat → Word) (f : Nat → Nat × BitVec 5) :
    flaggedElementTo s n (fun l => (put ((s.srcLane l).vreg n) (f l).1, (f l).2)) (fun l => put ((s.srcLane l).vreg n) 0)
      (s.writeElement n put f) := by
  obtain ⟨hv, hc, ho⟩ := elementPart_writePart s n (fun l => put ((s.srcLane l).vreg n) (f l).1) fun l => put ((s.srcLane l).vreg n) 0
  refine ⟨_, rfl, ?_, raises_raise s _ (fun l => (f l).2) ho hc, fun q => ?_⟩
  · simpa only [elementPart, vreg, Gang.lane, cur_raise] using hv
  · rw [cur_raise, hc]; rfl

/-- All that writing a predicate destination with flags does. -/
theorem flaggedPredTo_writePreds (s : State) (n : Nat) (f : Nat → Bool × BitVec 5) :
    flaggedPredTo s n f (.next ((s.writePreds n fun l => (f l).1).raise (s.active.foldl (fun x l => x ||| (f l).2) 0))) := by
  obtain ⟨u, hu, hv, hc, ho⟩ := predTo_writePreds s n fun l => (f l).1
  cases hu
  refine ⟨_, rfl, ?_, raises_raise s _ (fun l => (f l).2) ho hc, fun q => ?_⟩
  · simpa only [predPart, Gang.lane, cur_raise] using hv
  · rw [cur_raise, hc]; rfl

end Sys2Proof.Machine
end

