-- ==== Sys2Proof/Tests/Slice0.lean ====
section
/-!
SUPPORT. Sys2Proof/Tests/Slice0.lean: small tests: well-formedness refuses what R31 to R33 refuse, words of the manual's examples decode, one
step of each kind does what a hand calculation from the rules gives, and for every statement with hypotheses a state that meets them.
-/

namespace Sys2Proof.Tests

open Sys2Proof Sys2Proof.Machine Sys2Proof.Says

set_option Elab.async false

/-! ### Well-formedness: each check refuses an ill-formed term (R18, R22, R16, R33) -/

theorem test_wf_accepts : wellFormed (.sadd 95 0 127) = true ∧ wellFormed (.vpand 0 0 95 0) = true := by decide
theorem test_wf_destination : wellFormed (.sadd 96 0 0) = false := by decide
theorem test_wf_scalar_code : wellFormed (.sadd 0 112 0) = false := by decide
theorem test_wf_scalar64_code : wellFormed (.sadd64 0 1 0) = false := by decide
theorem test_wf_pair : wellFormed (.sadd64 1 0 0) = false := by decide
theorem test_wf_vector_code : wellFormed (.vadd 0 121 0 0) = false := by decide
theorem test_wf_packed_constant : wellFormed (.vadd 0 105 0 1) = false ∧ wellFormed (.vadd 0 105 0 0) = true := by decide
theorem test_wf_predicate : wellFormed (.vpand 0 96 0 0) = false := by decide
theorem test_wf_base : wellFormed (.vldW 8 48 3 3) = false := by decide
theorem test_wf_block4 : wellFormed (.fatom 0 0 2) = false := by decide
theorem test_wf_system_register : wellFormed (.ssysr 0 0x003) = false := by decide

/-! ### Words of the manual's examples (R8, R15, R29) -/

/-- R17's branch, in its packet. -/
theorem test_decode_br : decodeWord 0x10007FFB = .instr (.br 0x7FFB) := by decide
/-- The example of file 09: `smovi s20, 0x40`. -/
theorem test_decode_smovi : decodeWord 0x08050040 = .instr (.smovi 20 0x40) := by decide
/-- The example of file 01: C = 1. -/
theorem test_decode_chain : chainBit 0x88028040 = true ∧ decodeWord 0x88028040 = .instr (.smovi 10 0x40) := by decide
/-- Class 0, op 20 from R29 and R47: d = 16, a = 0, b = literal. -/
theorem test_decode_sadd64 : decodeWord 0x0284007F = .instr (.sadd64 16 0 127) := by decide
/-- Class 3: the example of file 09. -/
theorem test_decode_jnew : decodeWord 0x98020000 = .instr (.jnew 1) := by decide
/-- Class 4: the examples of files 13 and 02. -/
theorem test_decode_vadd : decodeWord 0x200489C8 = .instr (.vadd 9 9 100 0) := by decide
theorem test_decode_vcmpltu : decodeWord 0x230070CB = .instr (.vcmpltu 0 112 101 1) := by decide
/-- Classes 5, 6, 7 and 13, written out from R15 and R29: `fma` packed, `xfwd` by 1 in the issuing lanes, `flog2` with L = 2, a prefix. -/
theorem test_decode_fma : decodeWord 0b0_0101_000011_001010_0001011_0001100_1 = .instr (.fma 10 11 12 1) := by decide
theorem test_decode_xfwd : decodeWord 0b0_0110_00010_001001_001010_000001_1111 = .instr (.xfwd 9 10 1 15) := by decide
theorem test_decode_flog2 : decodeWord 0b0_0111_000001_001001_0001010_000_0_0010 = .instr (.flog2 9 10 0 2) := by decide
theorem test_decode_prefix : decodeWord 0b0_1101_0000101_1_010_0001100_1_10000001 = .instr .pfx ∧
    pfxOf 0b0_1101_0000101_1_010_0001100_1_10000001 = ⟨5, 1, 2, 12, 1, 0x81⟩ := by decide
/-- Class 8: the example of R114. -/
theorem test_decode_vld : decodeWord 0x40881433 = .instr (.vldW 8 5 3 3) := by decide
/-- Class 9: the example of file 14. -/
theorem test_decode_satom : decodeWord 0x48C5050B = .instr (.satomAdd 20 5 0 5 1) := by decide
/-- Class 10: the examples of file 04. -/
theorem test_decode_arset : decodeWord 0x50C50B30 = .instr (.arset 20 22 3) := by decide
theorem test_decode_bar : decodeWord 0x50653030 = .instr (.barWait 20 96 3) := by decide
/-- Class 11: the examples of files 17 and 19. -/
theorem test_decode_fput : decodeWord 0x58850B18 = .instr (.fput 20 22 24) := by decide
theorem test_decode_balloc : decodeWord 0x59853228 = .instr (.balloc 20 100 40) := by decide
/-- Class 12: the example of file 05. -/
theorem test_decode_mjob : decodeWord 0x6080A000 = .instr (.mjob 20 0) := by decide
/-- A reserved class, a reserved operation and a field that must be 0 are refused by name (R33). -/
theorem test_decode_refuses : decodeWord 0x70000000 = .reject .reservedClass ∧ decodeWord 0x07E00000 = .reject .reservedOp ∧
    decodeWord 0x13000001 = .reject .reservedField := by decide

/-! ### Small machines -/

/-- A value of a next state, or a default. -/
def after {α : Type} (d : α) (r : Result) (f : State → α) : α := match r with | .next t => f t | _ => d

/-- Whether there is a next state that passes a test. -/
def holdsAfter (r : Result) (p : State → Bool) : Bool := after false r p

/-- The package with a program of four packets of pad words, its seed gang on core 0 before the first. -/
def placed : State := State.reset.bootProgram (List.replicate 12 padWord)

/-- The same with a chain of some lanes open at packet 1. -/
def chain (m : LaneMask) : State := placed.openChain 0 12 m 16

/-- A change of the gang of a chain, in what it is and in what the chain found. -/
def change (f : Gang → Gang) (s : State) : State :=
  let t := s.updGang s.issue.gang f
  { t with issue := { t.issue with src := f t.issue.src } }

/-- Every lane of a chain changed. -/
def lanes (f : Lane → Lane) (s : State) : State := change (fun g => g.updLanes 0xFFFFFFFF fun _ x => f x) s

/-- A chain of all lanes whose gang is in the Lamplighter slot. -/
def lampChain : State := change (fun g => { g with lamp := true }) (chain 0xFFFFFFFF)

/-! ### Helpers for witnesses -/

theorem get_all {β : Type} (p : β → Prop) (d : β) (hd : p d) (t : Table β) (h : ∀ x ∈ t, p x.2) (k : Nat) : p (Table.get d k t) := by
  induction t with
  | nil => exact hd
  | cons x t ih =>
    obtain ⟨a, b⟩ := x
    simp only [Table.get]
    split
    · exact h (a, b) (by simp)
    · exact ih fun y hy => h y (by simp [hy])

/-- A test that holds of every listed lane and of a vacant one holds of every lane. -/
theorem lane_all (p : Lane → Bool) (g : Gang) (hd : p Lane.vacant = true) (h : (g.lanes.all fun x => p x.2) = true) (k : Nat) :
    p (g.lane k) = true := get_all (fun x => p x = true) Lane.vacant hd g.lanes (by simpa using h) k

/-- No window is open in a gang in which none is listed. -/
theorem closed (s : State) (h : (s.cur.lanes.all fun x => x.2.wins.isEmpty) = true) (h' : s.cur.swins = []) : noWindows s :=
  ⟨fun l => List.isEmpty_iff.mp (lane_all (fun x => x.wins.isEmpty) s.cur rfl h l), h'⟩

/-- What holds of each lane below 32 that issues holds of each issuing lane. -/
theorem each (s : State) {p : Nat → Prop} (h : ∀ l, l < 32 → p l) : ∀ l, issuing s l → p l := fun l hl => h l hl.1

/-- A chain of all lanes of a gang with a register stack of 256 registers and a trap entry at packet 2. -/
def deep : State :=
  let t := change (fun g => { g with dstack := 256 }) (chain 0xFFFFFFFF)
  t.updCtx 0 fun c => { c with trapent := 24 }

/-- Whether an attempt succeeds with a value. -/
def okay {ε α : Type} [DecidableEq α] (x : Except ε α) (v : α) : Bool := match x with | .ok a => decide (a = v) | .error _ => false

theorem ok_of {ε α : Type} [DecidableEq α] {x : Except ε α} {v : α} (h : okay x v = true) : x = .ok v := by
  cases x <;> simp_all [okay]

/-- No snuff is to strike after the chain. -/
theorem noDivert {s : State} (h : s.cur.marked = none) (h' : s.issue.after = none) : noDiversion s :=
  .inr (.inr ⟨h, fun r => by rw [h']; exact fun x => nomatch x⟩)

/-- Whether an access is an ordinary one; whether the accesses of a range are. -/
def plainB (s : State) (a : Agent) (va : DWord) (n place : Nat) : Bool :=
  okay (locate s a va n .write) (.mem place) &&
    a.tlbs.all fun p => s.tlb.any fun e => e.place == p && e.covers a.ctx (va.toNat % 2 ^ 48)

theorem plain_of {s : State} {a : Agent} {va : DWord} {n place : Nat} (h : plainB s a va n place = true) : plain s a va n place := by
  simp only [plainB, Bool.and_eq_true, List.all_eq_true, List.any_eq_true, beq_iff_eq] at h
  exact ⟨ok_of h.1, h.2⟩

theorem range_of {s : State} {a : Agent} {va : DWord} {n base : Nat}
    (h : ∀ i, i < n → plainB s a (va + BitVec.ofNat 64 i) 1 (base + i) = true) : plainRange s a va n fun i => base + i :=
  ⟨fun i hi => plain_of (h i hi), fun _ _ _ _ e => by dsimp only at e; omega⟩

/-- The translation caches of core 0 hold context 0's first 1 GiB, mapped as it is. -/
def warm (s : State) : State :=
  { s with tlb := [.core 0, .dome 0, .die 0].map fun p => { place := p, ctx := 0, va := 0, size := 2 ^ 30, pa := 0, w := true, x := true } }

/-- Whether an attempt succeeds. -/
def fine {ε α : Type} (x : Except ε α) : Bool := match x with | .ok _ => true | .error _ => false

theorem ex_of {ε α : Type} {x : Except ε α} (h : fine x = true) : ∃ v, x = .ok v := by
  cases x with
  | ok v => exact ⟨v, rfl⟩
  | error _ => exact absurd h (by simp [fine])

/-! ### Statements have states that meet their hypotheses -/

theorem witness_RegisterWritesOfSsysw : lampChain.cur.lamp = true := by decide

theorem witness_PrivilegedInstructionsElsewhere : (chain 1).cur.lamp = false ∧ ((chain 1).launchAt 0).lerr.getLsbD 0 = false := by decide

theorem witness_VectorIntegerResults : (chain 1).issue.pfx.x.toNat % 4 ≠ 3 := by decide

/-- A branch back to packet 0 and one on to packet 3, the last one. -/
theorem witness_BranchResults : leadsTo (chain 0xFFFFFFFF) 0x7FFF 0 ∧ leadsTo (chain 0xFFFFFFFF) 2 3 ∧
    (chain 0xFFFFFFFF).issue.lanes = (chain 0xFFFFFFFF).issue.src.liveMask := by unfold leadsTo; decide

/-- x4 holds the address of packet 3, the last one. -/
def pointed : State := change (fun g => g.setPair 4 0x20024) (chain 0xFFFFFFFF)

theorem witness_IndirectBranchLoopYieldBand :
    pointed.issue.src.pair 4 = (pointed.codeOf pointed.cur).base + BitVec.ofNat 64 (12 * 3) ∧ 3 < (pointed.codeOf pointed.cur).n ∧
      leadsTo pointed 2 3 ∧ noWindows pointed ∧ pointed.issue.lanes = pointed.issue.src.liveMask :=
  ⟨by decide, by decide, by unfold leadsTo; decide, closed _ (by decide) (by decide), by decide⟩

/-- Every lane has been called once, from packet 0. -/
def called : State := lanes (fun x => { x with depth := 1, wbase := 8, links := [⟨12, 1, false⟩] }) (chain 0xFFFFFFFF)

theorem witness_CallAndReturnResults : leadsTo (chain 1) 2 3 ∧ (∀ l, issuing (chain 1) l → ((chain 1).srcLane l).depth ≠ 255) ∧
    pushRoom deep 7 ∧ pointed.issue.src.pair 4 = (pointed.codeOf pointed.cur).base + BitVec.ofNat 64 (12 * 3) ∧
    ∀ l, issuing called l → (called.cur.lane l).depth ≠ 0 ∧ ∃ e es, (called.cur.lane l).links = e :: es ∧ e.trap = false :=
  ⟨by unfold leadsTo; decide, each _ (by decide), .inl (each _ (by decide)), by decide,
    each _ fun l hl => ⟨(by decide : ∀ l, l < 32 → (called.cur.lane l).depth ≠ 0) l hl,
      ⟨12, 1, false⟩, [], (by decide : ∀ l, l < 32 → (called.cur.lane l).links = [⟨12, 1, false⟩]) l hl, rfl⟩⟩

/-- The lanes 16 to 31 are vacant, set 2 is free of members, and two items wait at 0x30000. -/
def refilling (count : Nat) : State :=
  let t := change (fun g => (g.updLanes 0xFFFF0000 fun _ x => { x with live := false }).setJ 2 { member := 0, waiting := 0, home := 0, snuffed := false, freed := false })
    (placed.openChain 0 12 0xFFFF 16)
  t.updLaunch 0 fun l => { l with itemAddr := 0x30000, itemCount := count, itemNext := 0 }

/-- Items left and taken, the last one among them; no item left. -/
theorem witness_EndAndRefillResults : leadsTo (refilling 2) 1 2 ∧ ((refilling 2).cur.jset 2).freed = false ∧
    ((refilling 2).cur.jset 2).home = 0 ∧ (refilling 2).cur.wrap = false ∧ ((refilling 2).launchOf 0).itemNext < ((refilling 2).launchOf 0).itemCount ∧
    (∀ i, ((refilling 2).launchOf 0).itemNext ≤ i → i < ((refilling 2).launchOf 0).itemCount →
      ∃ bs, readGlobal (refilling 2) ((refilling 2).agentOf 0) (((refilling 2).launchOf 0).itemAddr + BitVec.ofNat 64 (8 * i)) 8 .read = .ok bs) ∧
    ((refilling 0).launchOf 0).itemCount ≤ ((refilling 0).launchOf 0).itemNext := by
  refine ⟨by unfold leadsTo; decide, by decide, by decide, by decide, by decide, fun i _ h => ?_, by decide⟩
  have h : i < 2 := h
  apply ex_of
  match i, h with
  | 0, _ => decide
  | 1, _ => decide

/-- Lane 0 ends, and lane 1, which waits at set 3, is then its only member. -/
def ending : State :=
  change (fun g => (g.setJ 3 { member := 3, waiting := 2, home := 0, snuffed := false, freed := false }).updLane 1 fun x =>
    { x with wait := .jwait 3 24 }) (chain 1)

theorem witness_EndGoesOn : (ending.cur.lane 31).live = true ∧ ending.issue.lanes.getLsbD 31 = false ∧ issuing ending 0 ∧ noWindows ending ∧
    ((ending.cur.jset 3).member &&& ~~~ending.issue.lanes) &&& ending.cur.liveMask = 2 ∧
    (ending.cur.jset 3).waiting &&& ~~~ending.issue.lanes = 2 ∧ (ending.cur.lane 1).wait = .jwait 3 24 :=
  ⟨by decide, by decide, by unfold issuing; decide, closed _ (by decide) (by decide), by decide, by decide, by decide⟩

theorem witness_EndRetiresTheGang : (chain 0xFFFFFFFF).cur.alive = true ∧ (chain 0xFFFFFFFF).issue.more = false ∧
    ∀ l, l < 32 → ((chain 0xFFFFFFFF).cur.lane l).live = true → issuing (chain 0xFFFFFFFF) l := by
  unfold issuing; decide

/-- Set 3 started by all lanes at depth 0. -/
def joined : State :=
  change (fun g => g.setJ 3 { member := 0xFFFFFFFF, waiting := 0, home := 0, snuffed := false, freed := false }) deep

theorem owned_of (s : State) (k : Nat) (h : (s.cur.jset k).freed = false) (h' : (s.cur.jset k).home = 0) : ownedSet s k :=
  ⟨h, fun l _ => by rw [h']; exact Nat.zero_le _⟩

theorem witness_RejoinSetInstructionResults : joined.issue.lanes ≠ 0 ∧ ownedSet joined 3 ∧ noWindows joined ∧
    (deep.cur.jset 4).freed = true ∧ lampChain.cur.lamp = true :=
  ⟨by decide, owned_of _ _ (by decide) (by decide), closed _ (by decide) (by decide), by decide, by decide⟩

theorem ready : trapReady deep 24 := ⟨by decide, each _ (by decide), .inl (each _ (by decide)), by decide, by decide, noDivert (by decide) (by decide)⟩

/-- Every lane of a gang stands in a trap frame with the offset 12 in v9. -/
def framed : State :=
  lanes (fun x => ({ x with depth := 1, wbase := 56, links := [⟨12, 7, true⟩] } : Lane).setV 9 12) deep

theorem witness_TrapEntryAndReturn : trapReady deep 24 ∧ deep.issue.more = false ∧ trapReady { deep with issue := { deep.issue with more := true } } 24 ∧
    noWindows framed ∧ (∀ l, issuing framed l → (framed.cur.lane l).depth ≠ 0 ∧ ∃ e es, (framed.cur.lane l).links = e :: es ∧ e.trap = true) ∧
    ∀ l, issuing framed l → ∃ ws off, fetchPacket framed framed.issue.gang (((framed.cur.lane l).vreg 9).toNat / 12) = .ok ws ∧
      trapResume (framed.codeOf framed.cur).n ws ((framed.cur.lane l).vreg 9).toNat = some off := by
  refine ⟨ready, by decide, ⟨by decide, each _ (by decide), .inl (each _ (by decide)), by decide, by decide, noDivert (by decide) (by decide)⟩,
    closed _ (by decide) (by decide), each _ fun l hl => ⟨(by decide : ∀ l, l < 32 → (framed.cur.lane l).depth ≠ 0) l hl,
      ⟨12, 7, true⟩, [], (by decide : ∀ l, l < 32 → (framed.cur.lane l).links = [⟨12, 7, true⟩]) l hl, rfl⟩, each _ fun l hl => ?_⟩
  have h : ((framed.cur.lane l).vreg 9) = 12 := (by decide : ∀ l, l < 32 → (framed.cur.lane l).vreg 9 = 12) l hl
  rw [h]
  exact ⟨[padWord, padWord, padWord], 24, ok_of (by decide), by decide⟩

/-- An orphaned use: a set that is freed. -/
theorem witness_OrphanedSetUse : trapReady deep 24 ∧ deep.issue.lanes ≠ 0 ∧ ¬ ownedSet deep 4 :=
  ⟨ready, by decide, fun h => absurd h.1 (by decide)⟩

theorem witness_TrapWithoutRoom : (chain 1).cur.lamp = false ∧ (chain 1).issue.after = none ∧ ((chain 1).launchAt 0).phase = .running ∧ trapEntry (chain 1) 0 = none ∧
    trapEntry (lanes (fun x => { x with depth := 255 }) deep) 0 = some 24 ∧ ((lanes (fun x => { x with depth := 255 }) deep).cur.lane 31).depth = 255 := by
  decide

/-- Lane 0 of context 0 issues; its service ring of 128 bytes at 0x80000 has taken a record of 96 bytes or none. -/
def calling (taken : Nat) : State :=
  warm ((chain 1).updCtx 0 fun c => { c with srbase := 0x80000, srsize := 7, shead := taken, sfree := taken })

theorem ring (n : Nat) (h : n = 0 ∨ n = 96) : plainRange (calling n) ((calling n).lampNear 0 0) 0x80000 128 fun i => 0x80000 + i := by
  rcases h with rfl | rfl <;> exact range_of (by decide +kernel)

/-- A record that the ring's end takes, and one that a pad goes before; no room, in a context without a ring. -/
theorem witness_ServiceCalls : (chain 1).issue.more = false ∧ noWindows (calling 0) ∧ (calling 0).cur.armed (calling 0).cur.liveMask = 0 ∧
    (calling 0).cur.alive = true ∧ ((chain 1).ctxAt 0).recordFits 96 = false ∧
    (∀ n ∈ [0, 96], ((calling n).ctxAt 0).recordFits 96 = true ∧ ((calling n).ctxAt 0).ringBytes = 128 ∧ lanesOf (calling n).issue.lanes = [0]) ∧
    ((calling 0).ctxAt 0).padBytes 96 = 0 ∧ ((calling 96).ctxAt 0).padBytes 96 = 32 :=
  ⟨by decide, closed _ (by decide) (by decide), by decide, by decide, by decide, by decide, by decide, by decide⟩

/-- A queue of the gang's context, the management vector, a queue of another context. -/
theorem witness_SoftintAndHalt : (deep.queueAt 1023).ctx = deep.ctxNum 0 ∧
    (change (fun g => g.setS 0 0x7FF) deep).scalar 0 = 0x7FF ∧
    ((deep.setQueue 7 { Queue.reset with ctx := 63 }).queueAt 7).ctx ≠ deep.ctxNum 0 ∧ (change (fun g => g.setS 0 0x400) deep).scalar 0 = 0x400 ∧
    lampChain.cur.lamp = true := by decide

/-- A hold until 100 ns, with a snuff that waits for it or without one. -/
def holding (p : Option Nat) : State := change (fun g => { g with hold := some { til := 100, pending := p } }) deep

theorem witness_SnuffAndDeadlineResults : deep.cur.wrap = false ∧ min 20000 (deep.scalar 97).toNat ≠ 0 ∧ deep.cur.hold = none ∧
    (holding none).now < 100 ∧ (holding none).cur.hold = some { til := 100, pending := none } ∧
    (holding (some 1)).cur.hold = some { til := 100, pending := some 1 } ∧ (holding (some 1)).issue.more = false ∧
    (holding (some 1)).cur.alive = true ∧ (holding (some 1)).cur.delaysSnuff = false ∧ (holding (some 1)).cur.retries = [] ∧
    (change (fun g => { g with retries := [7] }) (holding (some 1))).cur.retries ≠ [] ∧
    (let s := change (fun g => { g with retries := [7] }) (holding (some 1))
     let t : State := { s with issue := { s.issue with after := some (.divert 1) } }
     t.issue.closing = none ∧ t.trapLeft = false ∧ t.cur.hold = some { til := 100, pending := some 1 }) := by decide

theorem witness_RegionResult : let s := deep.updLaunch 0 fun l => { l with code := { l.code with regions := [⟨1, 0, 0, 0, 0, 0, false⟩] } }
    (s.issue.word.toNat % 2 ^ 17 < (s.codeOf s.cur).regions.length) := by decide

/-- FAN with two gangs at entry 0, at an entry that is none, and beyond the numbers of a launch. -/
def fanning (count entry : Word) : State := change (fun g => (g.setS 10 count).setS 11 entry) deep

theorem witness_FanCreatesGangs : (fanning 65535 0).cur.wrap = false ∧ ¬ (65535 < ((fanning 65535 0).issue.src.sreg 10).toNat) ∧
    ¬ (16777215 < ((fanning 65535 0).launchAt 0).nextGang + 65535) ∧ 0 ∈ ((fanning 2 0).launchAt 0).code.entries ∧
    1 ∉ ((fanning 2 1).launchAt 0).code.entries ∧ ((fanning 2 0).launchAt 0).wrap = none ∧
    (((fanning 2 0).updLaunch 0 fun l => { l with wrap := some 3 }).launchAt 0).wrap = some 3 ∧
    (∀ i, i < 2 → gangKey 0 (((fanning 2 0).launchAt 0).nextGang + i) ≠ (fanning 2 0).issue.gang) ∧
    ((fanning 0 0).issue.src.sreg 10).toNat = 0 ∧ 65535 < ((fanning 65536 0).issue.src.sreg 10).toNat := by decide

/-- Queue 5, fed by ENQ, with a ring of 64 slots at 0x100000, of which some are taken. -/
def queued (taken : Nat) : State :=
  let s := (warm deep).setQueue 5 { Queue.reset with ring := 0x100000, slots := 6, feed := true, state := .active, widx := taken }
  change (fun g => g.setPair 10 0x40000) s

/-- Room in the ring's first slot and in its last, and none; a queue that is not open to the context. -/
theorem witness_EnqueueResults : (queued 0).cur.wrap = false ∧ ((queued 0).issue.src.pair 10).toNat % 64 = 0 ∧
    ((queued 0).queueAt 5).openTo ((queued 0).ctxNum 0) = true ∧ ((queued 0).queueAt 6).openTo ((queued 0).ctxNum 0) = false ∧
    okay (readRange (queued 0) ((queued 0).agentOf 0) ((queued 0).issue.src.pair 10) 64) (List.replicate 64 0) = true ∧
    (queued 0).enqRoom 5 = true ∧ (queued 63).enqRoom 5 = true ∧ (queued 64).enqRoom 5 = false ∧ (queued 64).issue.more = false ∧
    (queued 64).cur.armed (queued 64).cur.liveMask = 0 ∧ (queued 64).cur.alive = true := by decide

/-- The same with the translations of the image in the caches. -/
def queuedNoted (taken : Nat) : State := { queued taken with tlb := ((queued taken).noteRange ((queued taken).agentOf 0) 0x40000 64).tlb }

theorem witness_EnqueueSlot : plainRange (queuedNoted 0) ((queued 0).slotAgent ((queued 0).queueAt 5) 0) 0x100000 64 (fun i => 0x100000 + i) ∧
    plainRange (queuedNoted 63) ((queued 63).slotAgent ((queued 63).queueAt 5) 0) (0x100000 + BitVec.ofNat 64 (64 * (63 % 2 ^ 6))) 64
      (fun i => 0x100FC0 + i) :=
  ⟨range_of (by decide +kernel), range_of (by decide +kernel)⟩


theorem witness_FloatArithmeticResults : (0 : BitVec 1) = 0 ∧ (1 : BitVec 1) = 1 := by decide

/-- FP8 to FP32 and FP32 to BF16. -/
theorem witness_FloatConversionResults : cvtWidth ((3 : BitVec 7).toNat / 16) = 32 ∧ cvtWidth ((16 : BitVec 7).toNat / 16) ≠ 32 := by decide

theorem witness_MxBlockResults : deep.issue.lanes = deep.issue.src.liveMask ∧ (7 : BitVec 7).toNat < 8 := by decide

/-- A tie and its even neighbour; the largest FP32 value. -/
theorem witness_RoundingIsNearestOrDirected : 0 < 1 ∧ quantize 1 false 3 0 1 = (2, true) ∧ quantize 5 false 1 0 1 = (1, true) ∧
    fp32 ∈ [fp32, fp16] ∧ 0x7F7FFFFF < 2 * fp32.signBit ∧ fp32.value 0x7F7FFFFF = .fin false 0xFFFFFF 104 := by
  refine ⟨by decide, by decide, by decide, by simp, by decide, by decide⟩

/-- The band of all lanes; the set 3 that every lane has joined; a lane of a set that a snuff released. -/
theorem witness_CrossLane : crossReady deep 15 ∧ crossReady joined 3 :=
  ⟨⟨⟨5, by decide, by decide⟩, .inl rfl⟩, ⟨⟨5, by decide, by decide⟩, .inr ⟨by decide, fun l _ => by
    rw [show (joined.issue.src.jset ((3 : BitVec 4).toNat)).home = 0 by decide]; exact Nat.zero_le _,
    .inr fun l m _ _ hm _ _ _ => ⟨hm, (by decide : ∀ m, m < 32 → joined.issue.lanes.getLsbD m = true) m hm⟩⟩⟩⟩

theorem witness_CrossLaneSnuffed : crossReady (change (fun g => { g.setJ 3 { g.jset 3 with snuffed := true } with wrap := true }) joined) 3 :=
  ⟨⟨5, by decide, by decide⟩, .inr ⟨by decide, fun l _ => by
    rw [show ((change (fun g => { g.setJ 3 { g.jset 3 with snuffed := true } with wrap := true }) joined).issue.src.jset ((3 : BitVec 4).toNat)).home = 0 by decide]
    exact Nat.zero_le _, .inl (by decide)⟩⟩

theorem witness_ReductionResults : partners deep 15 31 ≠ [] := by decide

/-- A class 7 word with L = 0 and no trap enabled, and one with L = 15. -/
theorem witness_SpecialFunctionResults : deep.cur.fptrap = 0 ∧ deep.issue.diverted = false ∧ (15 : BitVec 4) ≠ 0 ∧
    (0x38000000 : Word).toNat / 2 ^ 27 % 16 = 7 ∧ (0xFF7FFFFF : Word).getLsbD 31 = true ∧ (0xFF7FFFFF : Word).toNat < 0xFF800000 := by decide

/-- The pair of base 2 (s4, s5) holds an address; lane 31 alone issues, the highest lane. -/
def aimed (va : DWord) : State := change (fun g => { g.setPair 4 va with scratchSize := 4096, dstack := 256 })
    ((placed.updCtx 0 fun c => { c with trapent := 24 }).openChain 0 12 0x80000000 16)

/-- What holds of lane 31 holds of each issuing lane where lane 31 alone issues. -/
theorem last_only {s : State} (e : s.issue.lanes = 0x80000000) {p : Nat → Prop} (h : p 31) : ∀ l, issuing s l → p l := by
  intro l hl
  have k : ∀ k, k < 32 → (0x80000000 : LaneMask).getLsbD k = true → k = 31 := by decide
  have : l = 31 := k l hl.1 (by rw [← e]; exact hl.2)
  rw [this]; exact h

theorem only31 (va : DWord) {p : Nat → Prop} (h : p 31) : ∀ l, issuing (aimed va) l → p l := last_only (by rfl) h

/-- Each width at an aligned address, the last bytes of a page table's first 64 KiB among them. -/
theorem witness_VectorLoadResults :
    (∀ l, activeLane (aimed 0x4FFFF) l → (((aimed 0x4FFFF).vmAddr 2 0 1 l).toNat % 1 = 0 ∧
      readGlobal (aimed 0x4FFFF) (aimed 0x4FFFF).agent ((aimed 0x4FFFF).vmAddr 2 0 1 l) 1 .read = .ok [0])) ∧
    ∀ n ∈ [2, 4, 8, 16], ∀ l, activeLane (aimed 0x4FFF0) l → ((aimed 0x4FFF0).vmAddr 2 0 n l).toNat % n = 0 ∧
      readGlobal (aimed 0x4FFF0) (aimed 0x4FFF0).agent ((aimed 0x4FFF0).vmAddr 2 0 n l) n .read = .ok (List.replicate n 0) := by
  refine ⟨fun l hl => only31 _ (p := fun l => ((aimed 0x4FFFF).vmAddr 2 0 1 l).toNat % 1 = 0 ∧
    readGlobal (aimed 0x4FFFF) (aimed 0x4FFFF).agent ((aimed 0x4FFFF).vmAddr 2 0 1 l) 1 .read = .ok [0]) ⟨by decide, ok_of (by decide)⟩ l hl.1, ?_⟩
  intro n hn l hl
  refine only31 _ (p := fun l => ((aimed 0x4FFF0).vmAddr 2 0 n l).toNat % n = 0 ∧
    readGlobal (aimed 0x4FFF0) (aimed 0x4FFF0).agent ((aimed 0x4FFF0).vmAddr 2 0 n l) n .read = .ok (List.replicate n 0)) ?_ l hl.1
  simp only [List.mem_cons, List.not_mem_nil, or_false] at hn
  rcases hn with rfl | rfl | rfl | rfl <;> exact ⟨by decide, ok_of (by decide)⟩

/-- Lane 31 stores to ordinary memory at the end of a page's first 64 KiB. -/
theorem witness_VectorStoreResults : (∀ l, activeLane (warm (aimed 0x4FFF0)) l → ∀ n ∈ [1, 2, 4, 8, 16],
      ((warm (aimed 0x4FFF0)).vmAddr 2 0 n l).toNat % n = 0 ∧
        plain (warm (aimed 0x4FFF0)) (warm (aimed 0x4FFF0)).agent ((warm (aimed 0x4FFF0)).vmAddr 2 0 n l) n 0x4FFF0) ∧
    (aimed 0x4FFF0).active = [31] ∧ ∀ n ∈ [1, 2, 4, 8, 16],
      fine (storeLanes (aimed 0x4FFF0) (aimed 0x4FFF0).agent ((aimed 0x4FFF0).vmAddr 2 0 n) ((aimed 0x4FFF0).vmData 8 n) (aimed 0x4FFF0).active) = true ∧
      (storePlaces (aimed 0x4FFF0) (aimed 0x4FFF0).agent ((aimed 0x4FFF0).vmAddr 2 0 n) ((aimed 0x4FFF0).vmData 8 n)
        (aimed 0x4FFF0).active).length = 1 := by
  refine ⟨fun l hl => ?_, by decide, by decide⟩
  refine last_only (s := warm (aimed 0x4FFF0)) (p := fun l => ∀ n ∈ [1, 2, 4, 8, 16], ((warm (aimed 0x4FFF0)).vmAddr 2 0 n l).toNat % n = 0 ∧
    plain (warm (aimed 0x4FFF0)) (warm (aimed 0x4FFF0)).agent ((warm (aimed 0x4FFF0)).vmAddr 2 0 n l) n 0x4FFF0) (by rfl) ?_ l hl.1
  intro n hn
  simp only [List.mem_cons, List.not_mem_nil, or_false] at hn
  rcases hn with rfl | rfl | rfl | rfl | rfl <;> exact ⟨by decide, plain_of (by decide)⟩

/-- Gang 1 of the launch, a member of group 5 with gang 0: placed or not. -/
def paired (p : Place) : State :=
  let s := (aimed 0x0500000100000FFC).setGang 1 { (Launch.absent).freshGang 0 1 3 0 [] 0 with
    place := p, core := 0, scratchSize := 4096, members := [{ group := 5, live := true, step := 0 }] }
  change (fun g => { g with members := [{ group := 5, live := true, step := 0 }] }) (s.updLaunch 0 fun l => { l with nextGang := 2 })

theorem witness_ScratchpadResults : (∀ l, activeLane (aimed 0xFF0) l → (aimed 0xFF0).vmOff 2 0 16 l % 16 = 0 ∧
      (aimed 0xFF0).vmOff 2 0 16 l + 16 ≤ ((aimed 0xFF0).gangAt 0).scratchSize ∧ scratchPoisoned (aimed 0xFF0) 0 ((aimed 0xFF0).vmOff 2 0 16 l) 16 = false) ∧
    scratchReady (aimed 0xFFC) 0 ((aimed 0xFFC).vmOff 2 0 4) 4 :=
  ⟨fun l hl => only31 _ (p := fun l => (aimed 0xFF0).vmOff 2 0 16 l % 16 = 0 ∧ (aimed 0xFF0).vmOff 2 0 16 l + 16 ≤ ((aimed 0xFF0).gangAt 0).scratchSize ∧
      scratchPoisoned (aimed 0xFF0) 0 ((aimed 0xFF0).vmOff 2 0 16 l) 16 = false) (by decide) l hl.1,
    fun l hl => only31 _ (p := fun l => (aimed 0xFFC).vmOff 2 0 4 l % 4 = 0 ∧ (aimed 0xFFC).vmOff 2 0 4 l + 4 ≤ ((aimed 0xFFC).gangAt 0).scratchSize ∧
      scratchPoisoned (aimed 0xFFC) 0 ((aimed 0xFFC).vmOff 2 0 4 l) 4 = false) (by decide) l hl.1⟩

theorem witness_ScratchpadOfAnother : (paired (.resident 0)).active ≠ [] ∧
    resolveScratch (paired (.resident 0)) 0 ((paired (.resident 0)).issue.src.sreg 5) = .window 1 ∧
    (paired (.resident 0)).vmOff 2 0 4 31 % 4 = 0 ∧ (paired (.resident 0)).vmOff 2 0 4 31 + 4 ≤ ((paired (.resident 0)).gangAt 1).scratchSize ∧
    scratchPoisoned (paired (.resident 0)) 1 ((paired (.resident 0)).vmOff 2 0 4 31) 4 = false ∧
    resolveScratch (paired .unplaced) 0 ((paired .unplaced).issue.src.sreg 5) = .absent ∧
    resolveScratch (paired .saved) 0 ((paired .saved).issue.src.sreg 5) = .offCore := by decide

theorem witness_VectorAtomicResults : (aimed 0x4FFFC).active = [31] ∧ okay (locate (aimed 0x4FFFC) (aimed 0x4FFFC).agent 0x4FFFC 4 .atomic) (.mem 0x4FFFC) = true ∧
    fine (atomicLanes (aimed 0x4FFFC) 0 (fun _ => 0x4FFFC) (fun _ => 1) (fun _ => 2) [31]) = true := by decide

theorem witness_ScalarMemoryResults : (aimed 0x4FFF0).issue.diverted = false ∧ (∀ n ∈ [4, 8, 16],
    ((aimed 0x4FFF0).issue.src.pair 4).toNat % n = 0 ∧
      okay (readGlobal (aimed 0x4FFF0) (aimed 0x4FFF0).agent ((aimed 0x4FFF0).issue.src.pair 4) n .read) (List.replicate n 0) = true ∧
      okay (locate (aimed 0x4FFF0) (aimed 0x4FFF0).agent ((aimed 0x4FFF0).issue.src.pair 4) n .write) (.mem 0x4FFF0) = true) ∧
    resolveScratch (aimed 0xFFFFFFFF00000FFC) 0 0xFFFFFFFF = .window 0 ∧ 0xFFC % 4 = 0 ∧
    0xFFC + 4 ≤ ((aimed 0xFFFFFFFF00000FFC).gangAt 0).scratchSize ∧ scratchPoisoned (aimed 0xFFFFFFFF00000FFC) 0 0xFFC 4 = false := by decide

theorem witness_ScalarAtomicResults : ((aimed 0x4FFF8).issue.src.pair 4).toNat % 8 = 0 ∧
    okay (locate (aimed 0x4FFF8) (aimed 0x4FFF8).agent 0x4FFF8 4 .atomic) (.mem 0x4FFF8) = true ∧
    okay (locate (aimed 0x4FFF8) (aimed 0x4FFF8).agent 0x4FFF8 8 .atomic) (.mem 0x4FFF8) = true := by decide

/-- A binding at 0x40000 of one piece, bound already or not, and a table of 1,024 others. -/
def bound (bs : List Binding) : State :=
  change (fun g => (g.setPair 8 0x40000).setS 10 64) ((aimed 0x4FFF8).updCtx 0 fun c => { c with bindings := bs })

theorem witness_BindAndUnbind : ((bound []).issue.src.pair 4).toNat % 8 = 0 ∧
    okay (readGlobal (bound []) (bound []).agent 0x4FFF8 8 .read) (List.replicate 8 0) = true ∧ ((bound []).issue.src.pair 8).toNat % 64 = 0 ∧
    ((bound []).issue.src.sreg 10).toNat = 64 ∧ ((bound []).issue.src.sreg 11).toNat % 64 = 0 ∧
    (let c : Binding := ⟨0x40000, 64, 0x4FFF8⟩; c ∈ ((bound [c]).ctxAt 0).bindings ∧ c ∉ ((bound []).ctxAt 0).bindings) ∧
    ((bound (List.replicate 1024 ⟨0x90000, 64, 0⟩)).ctxAt 0).bindings.length = 1024 := by
  have h : ∀ bs, ((bound bs).ctxAt 0).bindings = bs := fun _ => rfl
  exact ⟨by decide, by decide, by decide, by decide, by decide, by decide, by rw [h]; exact List.length_replicate⟩

theorem aimedReady : trapReady (aimed 0x4FFF1) 24 :=
  ⟨by decide, only31 _ (by decide), .inl (only31 _ (by decide)), by decide, by decide, noDivert (by decide) (by decide)⟩

theorem witness_MisalignedAndUntranslatedAccesses : trapReady (aimed 0x4FFF1) 24 ∧ activeLane (aimed 0x4FFF1) 31 ∧
    (∀ n ∈ [2, 4, 8, 16], ((aimed 0x4FFF1).vmAddr 2 0 n 31).toNat % n ≠ 0 ∧ ((aimed 0x4FFF1).issue.src.pair 4).toNat % n ≠ 0) ∧
    (∀ l, issuing (aimed 0x4FFF1) l → 31 ≤ l) ∧
    (aimed 0x10000000000).cur.lamp = false ∧ (aimed 0x10000000000).cur.alive = true ∧ (aimed 0x10000000000).issue.pend = none ∧
    (aimed 0x10000000000).cur.liveMask ≠ 0 ∧ noWindows (aimed 0x10000000000) ∧
    (∀ l, issuing (aimed 0x10000000000) l → ((aimed 0x10000000000).cur.lane l).restartable = false) ∧
    readGlobal (aimed 0x10000000000) (aimed 0x10000000000).agent 0x10000000000 4 .read = .error .page :=
  ⟨aimedReady, ⟨⟨by decide, by decide⟩, by decide⟩, by decide, only31 _ (by decide), by decide, by decide, by decide, by decide,
    closed _ (by decide) (by decide), only31 _ (by decide), by rfl⟩

theorem witness_FatalFaults : ((aimed 0x800000000000).launchAt 0).phase = .running ∧
    readGlobal (aimed 0x800000000000) (aimed 0x800000000000).agent 0x800000000000 4 .read = .error .prot := ⟨by decide, by rfl⟩

/-! ### Accesses that do not happen -/

/-- A load of the one issuing lane's group that does not happen, as FailedAccessTraps and its neighbours take it. -/
theorem load_fails {s : State} {va : DWord} {c : AccCause} (hl : s.issue.lanes = 0x80000000) (ha : va = s.issue.src.pair 4) (hm : va.toNat % 4 = 0)
    (hr : readGlobal s s.agent va 4 .read = .error c) : accessFails s (.sldW 9 2 0 0 0) c 31 (fun _ => true) va .read s :=
  ⟨0, 2, 0, 9, 0, 0, 0, 4, .inl ⟨⟨ha, hm, ⟨by decide, by rw [hl]; decide⟩, last_only hl (p := fun l => 31 ≤ l) (Nat.le_refl 31), fun _ => rfl, rfl⟩, rfl, hr,
    .head _⟩⟩

/-- An uncorrectable word at the load's address; a page that is not mapped; an address that is denied. -/
theorem witness_FailedLoads : let s := { aimed 0x4FFF0 with poison := [.memory (0x4FFF0 / 8)] }
    accessFails s (.sldW 9 2 0 0 0) .poison 31 (fun _ => true) 0x4FFF0 .read s ∧ trapReady s 24 ∧
      accessFails (aimed 0x10000000000) (.sldW 9 2 0 0 0) .page 31 (fun _ => true) 0x10000000000 .read (aimed 0x10000000000) ∧
      accessFails (aimed 0x800000000000) (.sldW 9 2 0 0 0) .prot 31 (fun _ => true) 0x800000000000 .read (aimed 0x800000000000) :=
  ⟨load_fails (by decide) (by decide) (by decide) (by rfl),
    ⟨by decide, last_only (by decide) (by decide), .inl (last_only (by decide) (by decide)), by decide, by decide, noDivert (by decide) (by decide)⟩,
    load_fails (by decide) (by decide) (by decide) (by rfl), load_fails (by decide) (by decide) (by decide) (by rfl)⟩

/-- Lanes 30 and 31 store their `v9` at `v8` from 0x4FF00 on; lane 31's address is not mapped. -/
def spread : State := change (fun g => { (g.setPair 4 0x4FF00).updLanes 0x80000000 (fun _ x => x.setV 8 0x40000000) with scratchSize := 4096 })
    ((placed.updCtx 0 fun c => { c with trapent := 24 }).openChain 0 12 0xC0000000 16)

/-- The store of lane 30 has happened when lane 31's does not. -/
theorem witness_FailedStore : ∃ u, accessFails spread (.vstW 9 2 8) .page 31 (fun l => l == 31) 0x4004FF00 .write u := by
  obtain ⟨v, hv⟩ : ∃ v, storeLanes spread { spread.agent with nt := spread.issue.pfx.x.getLsbD 5 } (spread.vmAddr 2 8 4) (spread.vmData 9 4) spread.active
      = .error (.page, 31, v) := by
    have h : (match storeLanes spread { spread.agent with nt := spread.issue.pfx.x.getLsbD 5 } (spread.vmAddr 2 8 4) (spread.vmData 9 4) spread.active with
      | .error (c, l, _) => c == .page && l == 31 | .ok _ => false) = true := by decide
    revert h
    cases storeLanes spread { spread.agent with nt := spread.issue.pfx.x.getLsbD 5 } (spread.vmAddr 2 8 4) (spread.vmData 9 4) spread.active with
    | ok _ => exact fun h => absurd h (by simp)
    | error x =>
      obtain ⟨c, l, v⟩ := x
      intro h
      simp only [Bool.and_eq_true, beq_iff_eq] at h
      exact ⟨v, by rw [h.1, h.2]⟩
  exact ⟨v, 9, 2, 8, 0, 0, 0, 0, 4, .inr (.inr (.inr (.inr (.inl ⟨⟨by decide, fun l hl => (by decide : ∀ l, l < 32 → (spread.vmAddr 2 8 4 l).toNat % 4 = 0) l hl.1.1,
    ⟨⟨by decide, by decide⟩, by decide⟩, fun l => by simp⟩, rfl, ⟨v, hv, by simp⟩, by simp⟩))))⟩

/-- A reference beyond the window, of a vector form and of a scalar one. -/
theorem witness_ScratchReferenceTraps : (∀ L, refFails (aimed L) 0xFFFFFFFF 0x1000 4 4 4096 2) ∧ (aimed 0x1000).vmOff 2 0 4 31 = 0x1000 ∧
    activeLane (aimed 0x1000) 31 ∧ (∀ l, l < 31 → ¬ activeLane (aimed 0x1000) l) ∧
    ((aimed 0xFFFFFFFF00001000).issue.src.pair 4).toNat % 2 ^ 32 = 0x1000 ∧ ((aimed 0xFFFFFFFF00001000).issue.src.pair 4).extractLsb' 32 32 = 0xFFFFFFFF ∧
    ((aimed 0xFFFFFFFF00001000).gangAt 0).scratchSize = (aimed 0xFFFFFFFF00001000).cur.scratchSize := by
  refine ⟨fun L => ?_, by decide, ⟨⟨by decide, by decide⟩, by decide⟩, fun l hl h => ?_, by decide, by decide, by decide⟩
  · have h : resolveScratch (aimed L) (aimed L).issue.gang 0xFFFFFFFF = .window 0 := by rfl
    rw [refFails, h]
    simp
  · exact absurd (last_only (s := aimed 0x1000) (by rfl) (p := fun l => 31 ≤ l) (Nat.le_refl 31) l h.1) (by omega)

/-! ### Fences, groups, engines -/

/-- Base 2 refers to the last 16 bytes of the own window; s12 = 5, s13 = 7, s14 = 1, x16 = 0x40000, x18 = 0x48000. -/
def refers : State :=
  change (fun g => (((((g.setS 12 5).setS 13 7).setS 14 1).setPair 16 0x40000).setPair 18 0x48000)) (aimed 0xFFFFFFFF00000FF0)

theorem witness_FencesBarriersAndGroups : refersTo refers (refers.issue.src.pair 4) 16 0 0xFF0 ∧ refers.issue.word.toNat % 16 ≠ 2 ∧
    ({ refers with issue := { refers.issue with word := 0x50000002 } }).issue.word.toNat % 16 = 2 ∧
    (refers.barAt 0 0xFF0).phase ≠ (refers.scalar 97).getLsbD 0 ∧ ¬ (refers.barAt 0 0xFF0).phase ≠ (refers.scalar 96).getLsbD 0 ∧
    ((refers.scalar 96).toNat ≤ (refers.barAt 0 0xFF0).arrived) ∧ ¬ ((refers.scalar 97).toNat ≤ (refers.barAt 0 0xFF0).arrived) := by
  unfold refersTo; decide

/-- Gang 0 is a member of group 5, which its launch declares; it sleeps, is woken or is in wrap-up. -/
def grouped (f : Gang → Gang) : State :=
  let s := (aimed 0).updLaunch 0 fun l => { l with groups := [{ index := 5, coresident := false, fixed := false, step := 0 }] }
  change f (change (fun g => { g.setS 12 5 with members := [{ group := 5, live := true, step := 0 }] }) s)

theorem witness_GroupsAndWakeUps : (grouped id).cur.inGroup ((grouped id).scalar 12).toNat = true ∧ (grouped id).cur.wrap = false ∧
    (grouped fun g => { g with wrap := true }).cur.wrap = true ∧ (aimed 0).cur.inGroup 5 = false ∧
    (grouped fun g => { g with wake := true }).cur.wake = true ∧ (grouped id).cur.wake = false ∧ ((grouped id).scalar 12).toNat ≠ 0 ∧
    ((grouped id).scalar 96).toNat = 0 ∧
    ((grouped fun g => g.updLane 31 fun x => { x with wait := .sleep 9 3 24 }).cur.lane 31).wait = .sleep 9 3 24 := by decide

theorem plainReady : trapReady refers 24 := ⟨by decide, last_only (by decide) (by decide), .inl (last_only (by decide) (by decide)), by decide, by decide, noDivert (by decide) (by decide)⟩

/-- Gang 0 has issued a copy of 256 bytes and a put. -/
def issued : State := (refers.issueOp 0 (.bcopy ⟨0, 0x40000⟩ ⟨0, 0x48000⟩ 256) .notNeeded none).issueOp 3
  (.fput 0x40000 0x48000 256 { arr := false, scratch := false, dom := 0, tc := 0, peer := 0 } none) .notNeeded none

/-- A copy of gang 0 has failed. -/
def failing : State := change (fun g => { g with engfails := [{ cls := 0, cause := 1, unit := 1 }] }) refers

theorem failingReady : trapReady failing 24 := ⟨by decide, last_only (by decide) (by decide), .inl (last_only (by decide) (by decide)), by decide, by decide, noDivert (by decide) (by decide)⟩

theorem witness_EngineWaitAndCancel : (issued.scalar 96).toNat < (issued.opsOf 0 0).length ∧ (issued.opsOf 0 0).length ≤ (issued.scalar 97).toNat ∧
    (issued.cur.engfails.filter fun f => f.cls == 0) = [] ∧ trapReady failing 24 ∧ failing.issue.more = false ∧
    (failing.cur.engfails.filter fun f => f.cls == 0) = [{ cls := 0, cause := 1, unit := 1 }] ∧ (issued.ops.map Op.id).Nodup ∧
    ((issued.opsOf 0 0).drop 0).all (fun o => o.status == .active && o.wick == .notNeeded) = true :=
  ⟨by decide, by decide, by decide, failingReady, by decide, by decide, by decide, by decide⟩

theorem witness_CounterFull (o : Op) (h : o.gang = 0 ∧ o.cls = 0) :
    1023 ≤ (({ refers with ops := List.replicate 1023 o } : State).opsOf 0 0).length := by
  rw [show (({ refers with ops := List.replicate 1023 o } : State).opsOf 0 0) = List.replicate 1023 o from
    List.filter_eq_self.mpr fun x hx => by rw [List.eq_of_mem_replicate hx]; simp [h.1, h.2]]
  exact Nat.le_of_eq List.length_replicate.symm

/-- Copies of the largest length between global addresses, into the window and into the operand buffer. -/
theorem witness_CopyGatherLanternIssue : endpointFits refers ⟨0, 0xFFFFFFFFF0000001⟩ 0 0xFFFFFFF ∧
    endpointFits refers ⟨1, 0xFFFFFFFF00000000⟩ 0 4096 ∧ endpointFits refers ⟨2, 0⟩ 0 ((refers.coreAt 0).opbSize : Nat) ∧
    objectFits refers 0xFFFFFFFF00000FF0 ∧ (0x40000 : DWord).toNat % 64 = 0 ∧ (refers.opsOf 0 0).length < 1023 := by
  unfold endpointFits objectFits; decide

/-- A gather request of two rows of four bytes at offset 0xFC0 of the window. -/
def gathering : State :=
  let row : List Byte := bytesLE 8 0x40000 ++ bytesLE 8 0x48000 ++ bytesLE 8 0x50000 ++ bytesLE 4 4 ++ bytesLE 4 2 ++ bytesLE 8 4 ++ bytesLE 8 4
  (change (fun g => g.setPair 4 0xFFFFFFFF00000FC0) refers).putScratch 0 0xFC0 (row ++ List.replicate 16 0)

theorem witness_GatherIssue : let q := Gather.ofBytes (gathering.scratchBytes 0 0xFC0 64)
    refersTo gathering (gathering.issue.src.pair 4) 64 0 0xFC0 ∧ 0 < q.rows ∧ q.rows ≤ 65535 ∧ 0 < q.rowBytes ∧ q.rowBytes ≤ 65536 ∧
      q.idx.space ≤ 1 ∧ q.idx.addr.toNat % 4 = 0 ∧
      endpointFits gathering q.dst (min 0 (((q.rows - 1 : Nat) : Int) * q.dstStride)) (max 0 (((q.rows - 1 : Nat) : Int) * q.dstStride) + q.rowBytes) := by
  unfold refersTo endpointFits; decide

/-- s24 = 16 bytes (or an operation), s25 = peer 7 of class 3 and domain 9, x26 = 0x40000. -/
def routing (n w : Word) : State := change (fun g => ((g.setS 24 n).setS 25 w).setPair 26 0x40000) refers

theorem witness_FabricIssue : ((routing 0x1000000 0x7FFFF).issue.src.sreg 24).toNat ≤ 2 ^ 24 ∧ ((routing 0x1000000 0x7FFFF).issue.src.sreg 25).toNat < 2 ^ 19 ∧
    ((routing 16 0).issue.src.pair 26).toNat % 8 = 0 ∧ ((routing 11 0).issue.src.sreg 24).toNat < 12 ∧
    endpointFits (routing 4096 0x80000) ⟨1, 0xFFFFFFFF00000000⟩ 0 4096 ∧ ((routing 16 0x2FFF).issue.src.sreg 25).toNat < 2 ^ 14 ∧
    ((routing 16 0x2FFF).issue.src.sreg 25).toNat / 4096 ≠ 3 ∧ (refers.scalar 12).toNat < 2 ^ 19 ∧ refers.scalar 12 ≠ 0 ∧
    1048576 < ((routing 1048577 0).issue.src.sreg 24).toNat := by unfold endpointFits; decide

/-- A pool of eight blocks of 64 bytes, block 2 held, block 5 held with tag 9; a request list of one request at 0x40000. -/
def pooled : State :=
  let blocks : List Block := [{ index := 2, tag := none }, { index := 5, tag := some 9 }]
  let pool : Pool := { base := 0x100000, count := 8, bsz := 6, enabled := true, free := [(0, 2), (3, 2), (6, 2)], held := blocks }
  let s := refers.updCtx 0 fun c => { c with pool := pool }
  s.putBytes 0x40000 (bytesLE 4 3 ++ bytesLE 4 0 ++ bytesLE 8 0x48000)

theorem witness_BlockPool : (pooled.ctxAt 0).pool.enabled = true ∧ (pooled.scalar 97).toNat ≤ 256 ∧ (pooled.issue.src.pair 16).toNat % 8 = 0 ∧
    rangeFault pooled pooled.agent (pooled.issue.src.pair 16) 16 .read = none ∧
    okay (readRange pooled pooled.agent (pooled.issue.src.pair 16) 16) (bytesLE 4 3 ++ bytesLE 4 0 ++ bytesLE 8 0x48000) = true ∧
    rangeFault pooled pooled.agent 0x48000 12 .write = none ∧
    (match grantRequests pooled pooled.agent none [(3, 0x48000)] 0 with | .ok (m, stop, _) => m == 1 && !stop | .error _ => false) = true ∧
    (9 : Nat) ≤ 4095 ∧ (pooled.issue.src.sreg 13).toNat ≠ 0 ∧ (pooled.issue.src.sreg 13).toNat < 4096 := by decide

theorem witness_EngineArgumentTraps : trapReady refers 24 ∧ (refers.opsOf 0 3).length < 1023 ∧ 2 ^ 24 < ((routing 0x1000001 0).issue.src.sreg 24).toNat ∧
    (refers.issue.src.pair 4).toNat % 64 ≠ 0 ∧ refers.owns 7 = false ∧ (refers.ctxAt 0).pool.enabled = false ∧ 4095 < (refers.scalar 103).toNat :=
  ⟨plainReady, by decide, by decide, by decide, by decide, by decide, by decide⟩

/-- A coherent window of context 0 at 2 MiB whose home is peer 0, context 0 of this package; its first line is lost or not. -/
def windowed (st : DirState) : State :=
  let s := lampChain.updCtx 0 fun c => { c with windows := [(0, { base := 0x200001, size := 1, home := 0 })], peertab := 0x60000, peercnt := 1 }
  let s := s.putBytes 0x60000 (bytesLE 4 0x80000000)
  let s := { s with fab := { s.fab with pkgid := 0 } }
  change (fun g => (g.setPair 4 0x200000).setPair 16 0x40000) (s.setDir 0x8000 { DirLine.home with state := st })

theorem witness_LineRecovery : (windowed .home).cur.lamp = true ∧ ((windowed .home).issue.src.pair 4).toNat % 64 = 0 ∧
    homedLine (windowed .home) 0 0x200000 = some 0x200000 ∧ ((windowed .home).dirAt 0x8000).state = .home ∧
    ((windowed (.lost 3)).dirAt 0x8000).state = .lost 3 ∧ homedLine (windowed .home) 0 0x400000 = none ∧
    okay (readRange (windowed (.lost 3)) (lampAgent 0) 0x40000 64) (List.replicate 64 0) = true ∧
    fine (readRange (windowed (.lost 3)) (lampAgent 0) 0x8000000000000000 64) = false := by decide

/-! ### The matrix array -/

/-- Bank 7 of the gang's dome in some state. -/
def banked (b : Bank) : State := (change (fun g => { g with granted := [5] }) refers).setBank 0 7 b

theorem witness_BankOwnership : ((banked Bank.reset).bankAt 0 7).owner = none ∧ (banked { Bank.reset with owner := some 0 }).owns 7 = true ∧
    7 ∉ (banked { Bank.reset with owner := some 0 }).cur.granted ∧
    7 ∈ (change (fun g => { g with granted := [7] }) (banked { Bank.reset with owner := some 0 })).cur.granted ∧
    ((banked { Bank.reset with owner := some 9 }).bankAt 0 7).owner = some 9 ∧
    (banked { Bank.reset with owner := some 0 }).bankBusy 0 7 = false ∧
    ((banked { Bank.reset with owner := some 0 }).issueOp 1 (.mzero 7 0 256) .notNeeded none).bankBusy 0 7 = true ∧
    ((banked { Bank.reset with owner := some 0, queue := [9, 3] }).bankAt 0 7).queue = [9, 3] := by decide

/-- Tiles h0 of 256 rows and h1 of 32 rows with 4,096 K-steps, or 4,097; s12 = 0x10, s13 = 0. -/
def tiled (steps : Nat) : State :=
  change (fun g => (((g.setTile 0 { valid := true, off := 0, desc := BitVec.ofNat 32 (256 + 8192 * steps) }).setTile 1
    { valid := true, off := 0, desc := BitVec.ofNat 32 (32 + 8192 * steps) }).setS 12 0x10).setS 13 0) (banked { Bank.reset with owner := some 0 })

theorem witness_MatrixInstructionResults : tileFits (banked Bank.reset) 0 (256 + 512 * 8 + 8192) ∧ (refers.claims 0) = [] ∧
    ((tiled 4096).scalar 12).toNat < 256 ∧ ((tiled 4096).scalar 13).toNat < 256 ∧ (tiled 4096).owns 7 = true ∧
    ((tiled 4096).cur.tile 0).rows + 0 ≤ 256 ∧ ((tiled 4096).cur.tile 1).rows = 32 ∧ ((tiled 4096).cur.tile 0).ksteps = 4096 ∧
    4096 < ((tiled 4097).cur.tile 0).ksteps ∧ typesMatch ((tiled 1).cur.tile 0).type ((tiled 1).cur.tile 1).type = true := by
  unfold tileFits; decide

/-- s12 asks for rows 192 to 255, with 64 registers from v0 on; bank 7 is the gang's, or an older operation on it is not over. -/
def draining (f : State → State) : State := f (change (fun g => g.setS 12 (192 + 256 * 64)) (banked { Bank.reset with owner := some 0 }))

/-- A drain of the owner, one behind an older operation, and one of a gang that gave the bank up with a drain before it on its way. -/
theorem witness_Drains : ((draining id).scalar 12).toNat < 2 ^ 15 ∧ 192 + 64 ≤ 256 ∧ (0 : BitVec 7).toNat + 64 ≤ 64 ∧ ((draining id).myBank 7).owner = some 0 ∧
    ((draining id).gangAt 0).launch = (draining id).cur.launch ∧ (draining id).ops = [] ∧ (draining id).drainPlace 7 = none ∧
    (draining id).oldDrains 0 0 7 = false ∧ ((draining id).myBank 7).poisoned = [] ∧
    ((draining fun s => s.issueOp 1 (.mzero 7 0 256) .notNeeded none).ops.all fun o => o.gang == 0 && o.cls == 1 && o.banks.contains 7 &&
      decide (o.id < (((draining fun s => s.issueOp 1 (.mzero 7 0 256) .notNeeded none).drainPlace 7).getD
        ((draining fun s => s.issueOp 1 (.mzero 7 0 256) .notNeeded none).nextOp, 1)).1)) = true ∧
    (change (fun g => g.updLane 31 fun x => { x with wait := .drainOrder 7 1 2 }) ((draining id).setBank 0 7 Bank.reset)).drainPlace 7 = some (1, 2) ∧
    (let s := change (fun g => g.updLane 0 fun x => { x with live := true, wait := .drainOrder 7 1 5 }) (draining id)
     s.drainTurns 7 = [5]) ∧
    ((draining id).setBank 0 7 { Bank.reset with left := some 0 }).drainable 7 = true := by
  decide

/-! ### Events -/

/-- The seed gang after a chain, changed; the Lamplighter of core 0 runs. -/
def event (f : Gang → Gang) : State := (placed.updCore 0 fun c => { c with slot := .running }).updGang 0 f

/-- The Lamplighter of core 0 holds the ticket of a job on die 0. -/
def serving (j : Job) (s : State) : State :=
  s.updDie 0 fun d => { d with tickets := [{ num := 0, job := j, agent := some 0, til := 50000, taken := true }] }

/-- A gang with a service, whose lanes have spilled nothing; a snuff hold that is over; a result; a drain of the last two rows of bank 7. -/
theorem witness_GangWaitEvents :
    (let s := serving (.service 0) (event fun g => { g with service := true })
     (s.gangAt 0).service = true ∧ s.served 0 = true ∧ (s.gangAt 0).marked = none ∧
       ∀ l, l < 32 → ((s.gangAt 0).lane l).rbase = 0 ∧ ((s.gangAt 0).lane l).links.length ≤ ((s.gangAt 0).lane l).resident) ∧
    (let s := event fun g => { g with hold := some { til := 0, pending := some 1 } }
     (s.gangAt 0).wrap = false ∧ (s.gangAt 0).alive = true ∧ (s.gangAt 0).delaysSnuff = false ∧ (s.gangAt 0).retries = []) ∧
    (let s := event fun g => { g with syncs := [{ kind := .result 7 9, lanes := 1, rows := 0, ordered := false, ready := 0, rank := 0 }] }
     (s.gangAt 0).syncs = [{ kind := .result 7 9, lanes := 1, rows := 0, ordered := false, ready := 0, rank := 0 }] ∧ (s.gangAt 0).marked = none) ∧
    (let y : SyncOp := { kind := .mdrain 7 254 2 62 true, lanes := 1, rows := 0, ordered := true, ready := 0, rank := 0 }
     let s := event fun g => { g.updLane 0 (fun x => { x with wait := .engine 24 }) with syncs := [y] }
     (s.gangAt 0).syncs = [y] ∧ (s.gangAt 0).marked = none ∧ s.portTaken 0 = false ∧ ((s.gangAt 0).lane 0).wait = .engine 24 ∧ 62 + 2 ≤ 64) := by
  decide

/-- The seed gang is parked with a served park, on a core with a slot for it. -/
theorem witness_Unpark : let s := serving (.service 0) (event fun g => { g with place := .parked 0, park := some (.served 4) })
    (s.gangAt 0).place = .parked 0 ∧ (s.gangAt 0).park = some (.served 4) ∧ s.served 0 = true ∧ (s.launchAt 0).phase = .running ∧
      s.slotFor 0 (s.gangAt 0) = true := by decide

/-- The seed gang waits for room in a service ring of 128 bytes, which is there. -/
def ringing : State :=
  warm ((event fun g => { g with park := some (.svcRoom 7 1 12 (List.replicate 8 5)) }).updCtx 0 fun c => { c with srbase := 0x80000, srsize := 7 })

theorem witness_SvcRingRoom : (ringing.gangAt 0).park = some (.svcRoom 7 1 12 (List.replicate 8 5)) ∧
    (List.replicate 8 (5 : Word)).length = 8 * (lanesOf 1).length ∧ (ringing.ctxAt 0).recordFits (64 + 32 * (lanesOf 1).length) = true ∧
    plainRange ringing (ringing.lampNear 0 (ringing.gangAt 0).core) 0x80000 128 fun i => 0x80000 + i :=
  ⟨by decide, by decide, by decide, range_of (by decide +kernel)⟩

/-- The seed gang is parked at ENQ.PARK for queue 5, which has room. -/
def enqueuing : State :=
  (event fun g => { g with park := some (.enq 10 5 (List.replicate 64 1)) }).setQueue 5
    { Queue.reset with ring := 0x100000, slots := 6, feed := true, state := .active }

theorem witness_EnqParkRoom : enqueuing.lampsFor 0 = true ∧ enqueuing.jobWaits (.service 0) = false ∧
    (enqueuing.queueAt 5).openTo (enqueuing.ctxNum 0) = true ∧
    enqueuing.enqRoom 5 = true ∧ fine (enqueuing.enqueue 5 0 (2 ^ 62) (List.replicate 64 1)) = true ∧
    (enqueuing.gangAt 0).launch = 0 := by decide

/-- A window of each live lane that has counted its instructions, and one of the gang. -/
theorem witness_LookaheadCommit : let w : Window := { seq := 0, off := 12, base := 0, left := 0, seven := true, vregs := [(8, 1), (9, 2)], preds := [(95, true)], flags := 16 }
    let s := event fun g => g.updLanes g.liveMask fun _ x => { x with wins := [w] }
    (∀ l, l < 32 → ((s.gangAt 0).lane l).live = true ∧ ((s.gangAt 0).lane l).wins = [w]) ∧ (s.gangAt 0).swins = [] ∧
      w.flags &&& (s.gangAt 0).fptrap = 0 ∧ (w.vregs.map Prod.fst).Nodup ∧ (w.preds.map Prod.fst).Nodup := by decide

/-- Gang 0 alone in group 5 waits at its superstep. -/
theorem witness_MeridianRelease : let s := (event fun g => { g.updLane 31 (fun x => { x with wait := .sstep 5 24 }) with
        members := [{ group := 5, live := true, step := 0 }] }).updLaunch 0 fun l =>
      { l with groups := [{ index := 5, coresident := false, fixed := false, step := 0 }] }
    (s.launchAt 0).groups.find? (fun x => x.index == 5) = some { index := 5, coresident := false, fixed := false, step := 0 } ∧
      s.stepMembers 0 5 = [0] ∧ ((s.gangAt 0).lane 31).wait = .sstep 5 24 ∧ ((s.gangAt 0).lane 31).live = true := by decide

/-- A new gang that waits alone finds core 0 of die 0 empty but for the seed gang; so does a saved one. -/
def waiting (p : Place) : State := (event id).setGang 1 { (Launch.absent).freshGang 0 1 3 0 [] 1 with place := p }

theorem witness_PlacementEvents : (serving (.placement 1 1) (waiting .unplaced)).placing 1 = true ∧
    (serving (.placement 1 1) (waiting .unplaced)).waitingList 0 = [1] ∧
    (waiting .unplaced).lampsOn 0 = true ∧ (waiting .unplaced).waitingList 0 = [1] ∧ (waiting .unplaced).batchGroup 1 = none ∧
    ((coresFrom 0 [47]).findSome? fun c => ((waiting .unplaced).roomOn c ((waiting .unplaced).gangAt 1)).map fun r => (c, r.1)) = some (47, 0) ∧
    (waiting .saved).waitingList 0 = [1] ∧ ((waiting .saved).gangAt 1).park = none ∧ ((waiting .saved).gangAt 1).marked = none ∧
    ((coresFrom 0 [47]).findSome? fun c => ((waiting .saved).roomOn c ((waiting .saved).gangAt 1)).map fun r => (c, r.1)) = some (47, 0) ∧
    ((waiting .unplaced).ctxAt 63).suspend = false := by decide

/-- Core 0 alone takes gangs; a gang of a higher class waits there for gang 0, whose registers fill it; the context has a pool. -/
def crowded : State :=
  let s := (waiting .unplaced).updGang 0 fun g => { g with dstack := 2990 }
  let s := s.setLaunch 1 { s.launchAt 0 with pkt := { (s.launchAt 0).pkt with prio := 1 } }
  let s := (s.updGang 1 fun g => { g with launch := 1 }).updCtx 0 fun c => { c with splbase := 0x100000, splsize := 36 }
  let s := (List.range 47).foldl (fun s c => s.updCore (c + 1) fun x => { x with testing := [0] }) s
  { s.updDie 0 fun d => { d with headSince := some (1, 0) } with clock := { s.clock with eph := 100000 } }

theorem witness_PrewaitExpiry : crowded.lampsOn 0 = true ∧ crowded.waitingList 0 = [1] ∧ (crowded.dieAt 0).headSince = some (1, 0) ∧
    0 + 1000 * max 1 crowded.pkg.prewait ≤ crowded.ran ∧ crowded.victims (coresFrom 0 []) 1 = [0] ∧ crowded.batchOf 0 = [0] ∧
    (crowded.seat (coresFrom 0 []) (crowded.batchOf 1)).isNone = true ∧ crowded.canSave 0 = true ∧
    (∀ l, l < 32 → ((crowded.gangAt 0).lane l).wins = []) ∧ (crowded.gangAt 0).swins = [] ∧ (crowded.gangAt 0).place ≠ .saved := by decide

/-- The pool of 64 GiB holds any image. -/
theorem crowded_room (n : Nat) (hn : n < 2 ^ 21) :
    crowded.takePieces 0 n = some (crowded.setCtx 0 { crowded.ctxAt 0 with splused := 4096 * n }) := by
  have hu : (crowded.ctxAt 0).splused = 0 := by decide
  have hp : (crowded.ctxAt 0).poolBytes = 2 ^ 36 := by decide
  unfold State.takePieces
  simp only [hu, hp]
  rw [if_neg (by simp; omega)]
  congr 3
  omega

theorem crowded_pieces (s : State) (k : Nat) : s.imagePieces k < 2 ^ 21 := by
  unfold State.imagePieces pieces
  dsimp only
  have := (Config.imageBytes (s.gangAt k).dstack (s.gangAt k).scratchSize (s.ownedBanks k).length).isLt
  omega

theorem witness_PrewaitPool : crowded.canSaveBatch 0 = true := by
  have hb : crowded.onCoreBatch 0 = [0] := by decide
  have hs : crowded.canSave 0 = true := by decide
  have hc : crowded.ctxNum 0 = 0 := by decide
  have hr := crowded_room _ (crowded_pieces crowded 0)
  simp only [State.canSaveBatch, hb, hs, hc, List.all_cons, List.all_nil, List.foldl, Bool.and_true, Bool.true_and, Int.zero_add]
  rw [hr]
  rfl

/-- With gang 0 saved, whatever its image takes, core 0 takes the waiting gang. -/
theorem witness_PrewaitRoom : ((crowded.saveGang 0).seat (coresFrom 0 []) ((crowded.saveGang 0).batchOf 1)).isSome = true := by
  have hc : crowded.closeForEvent 0 (fun l => ((crowded.gangAt 0).lane l).pc) = crowded := by decide +kernel
  have ha : (crowded.gangAt 0).alive = true := by decide
  have hn : crowded.ctxNum 0 = 0 := by decide
  have h := crowded_room _ (crowded_pieces crowded 0)
  have hs : crowded.saveGang 0 = State.saveImage (crowded.setCtx 0 { crowded.ctxAt 0 with splused := 4096 * crowded.imagePieces 0 }) 0 := by
    simp only [State.saveGang, hc, hn, h, ha, if_true, Option.getD]
  rw [hs]
  decide +kernel

/-! ### Engines and power -/

/-- The gang owns bank 7 of dome 0 and issues operation 0; a change of that operation. -/
def working (f : Op → Op) (cls : Nat) (k : OpKind) (wick : WickState) : State :=
  let s := (banked { Bank.reset with owner := some 0 }).issueOp cls k wick none
  { s with ops := s.ops.map f }

/-- Bytes of a structure: zeros but for some bytes at some offsets. -/
def bytesWith (n : Nat) (xs : List (Nat × Byte)) : List Byte := (List.range n).map fun k => Table.get 0 k xs

/-- A job card at 0x40000: one level of one tile, one K-step of a chunk, 1 row, bank 7; FULL and EMPTY in the window of the gang. -/
def carded (f : Op → Op) (k : Byte) : State :=
  ((working f 1 (.mjob 0x40000 true) .notNeeded).putBytes 0x40000
    (bytesWith 112 ((List.range 4).map (fun i => (96 + i, 0xFF)) ++ (List.range 4).map (fun i => (104 + i, 0xFF)) ++
      [(0, k), (4, 7), (8, 1), (10, 1), (40, 1), (100, 32)])))

/-- Operation 0 of a state. -/
def theOp (s : State) : Op := s.ops.headD ((State.reset).newOp 0 (.mzero 0 0 0) .notNeeded)

/-- The card that the bytes of `carded` give. -/
def theCard : Card := Card.ofBytes (bytesWith 128 ((List.range 4).map (fun i => (96 + i, 0xFF)) ++ (List.range 4).map (fun i => (104 + i, 0xFF)) ++
      [(0, 1), (4, 7), (8, 1), (10, 1), (40, 1), (100, 32)]))

theorem witness_EngineUnits : let s := working id 1 (.mfill 7 255 true [List.replicate 32 1]) .notNeeded
    let t := working id 0 (.bcopy ⟨2, 0x400⟩ ⟨2, 0x200⟩ 0x200) .granted
    (s.opAt 0 = some (theOp s) ∧ s.opRuns (theOp s) = true ∧ s.bankTurn (theOp s) 7 = true ∧ s.arrayHeld (theOp s) 0 = false ∧ (s.bankAt 0 7).owner = some 0 ∧ s.arrayGone 0 = false ∧
      255 ∉ (s.bankAt 0 7).poisoned) ∧
    t.opAt 0 = some (theOp t) ∧ t.opRuns (theOp t) = true ∧ 0 < (theOp t).units ∧ (theOp t).cancelling = false := by decide +kernel

theorem witness_EngineOpRetire : let s := working (fun o => { o with status := .failed 6 0 }) 1 (.mzero 7 0 1) .notNeeded
    s.opAt 0 = some (theOp s) ∧ s.opsOf 0 1 = [theOp s] ∧ (theOp s).isOver = true ∧ (s.gangAt 0).place ≠ .saved ∧ (s.gangAt 0).alive = true := by
  decide +kernel

theorem witness_JobCardRead : let s := carded id 1
    let t := carded id 0
    s.opAt 0 = some (theOp s) ∧ s.opOn (theOp s) = true ∧ (theOp s).cancelling = false ∧ (theOp s).card = none ∧ theCard.ok = true ∧
      (match readRange s (s.opAgent (theOp s)) 0x40000 128 with | .ok bs => Card.ofBytes bs == theCard | _ => false) = true ∧
      (let sound := fun ref : DWord => resolveScratch s 0 (refHigh ref) ≠ .groupFault ∧ ref.toNat % 2 ^ 32 % 16 = 0 ∧
         ref.toNat % 2 ^ 32 + 16 * theCard.slots true ≤ (s.gangAt 0).scratchSize
       sound theCard.full ∧ sound theCard.empty ∧ ¬ sound 0xFFFFFFFF00000FF8 ∧ ¬ sound 0xFFFFFFFF00000FF0) ∧ theCard.slots true = 2 ∧
      (match readRange t (t.opAgent (theOp t)) 0x40000 128 with | .ok bs => !(Card.ofBytes bs).ok | _ => false) = true := by decide +kernel

/-- A job with its card read starts where its banks are the gang's, and fails where they are not; a started twin job wants bank 7. -/
theorem witness_JobStart : let s := carded (fun o => { o with card := some theCard }) 1
    let t := carded (fun o => { o with card := some { theCard with banks := [6] } }) 1
    let u := carded (fun o => { o with card := some theCard, started := true }) 1
    s.opAt 0 = some (theOp s) ∧ s.opRuns (theOp s) = true ∧ (theOp s).started = false ∧ s.startFault (theOp s) theCard true = none ∧
      t.startFault (theOp t) { theCard with banks := [6] } true = some 4 ∧
      u.opRuns (theOp u) = true ∧ (theOp u).wanted = some 7 ∧ (u.bankAt (domeOf (partnerCore 0)) 7).owner = none ∧
      (u.bankAt (domeOf (partnerCore 0)) 7).queue = [] := by decide +kernel

/-- A LATTN list of one entry with no tokens, or with one token in the block at 0x40000, whose address stands at 0x48000. -/
def attending (f : Op → Op) (len : Byte) : State :=
  let s := (working f 0 (.lattn 0x40000 1 0xFFFFFFFF00000000) .notAsked)
  (s.putBytes 0x40000 (bytesWith 32 [(9, 0x80), (10, 4), (16, len)])).putBytes 0x48000 (bytesWith 8 [(2, 4)])

/-- The entry that the bytes of `attending` give. -/
def theEntry (blocks : List DWord) (len : Nat) : Entry :=
  { query := 0, blocks := blocks, len := len, scale := 0, toff := 0, kvt := 0, array := 0x48000 }

theorem witness_LattnWickRequest : let s := attending id 0
    let t := attending id 1
    s.opAt 0 = some (theOp s) ∧ s.opOn (theOp s) = true ∧ (theOp s).cancelling = false ∧ (theOp s).wick = .notAsked ∧
      (match s.readEntries (theOp s) 0x40000 1 with | .ok es => es == [theEntry [] 0] | _ => false) = true ∧
      okay (s.stacksOf (theOp s) [theEntry [] 0]) [] = true ∧
      (match t.readEntries (theOp t) 0x40000 1 with | .ok es => es == [theEntry [0x40000] 1] | _ => false) = true ∧
      okay (t.stacksOf (theOp t) [theEntry [0x40000] 1]) [0] = true := by decide +kernel

/-- The requests for the fourth unit from the committed position, at Lantern 3, and for another one, at Lantern 2 before it. -/
def lantern : State :=
  let r : LanternRequest := { op := 0, unit := 3, lantern := some 3, query := [], pa := 0x40000, since := 0 }
  { attending (fun o => { o with prepared := true, wick := .granted, entries := List.replicate 4 (theEntry [0x40000] 1) }) 1 with
      lanternQueue := [{ r with unit := 2, lantern := some 2 }, r] }

theorem witness_LanternTriple : let r : LanternRequest := { op := 0, unit := 3, lantern := some 3, query := [], pa := 0x40000, since := 0 }
    lantern.opAt 0 = some (theOp lantern) ∧ lantern.opRuns (theOp lantern) = true ∧ (theOp lantern).cancelling = false ∧
      tripleOf (theOp lantern).entries 3 = some (theEntry [0x40000] 1, 0) ∧ (theOp lantern).triples = [] ∧ (theOp lantern).pc = 0 ∧
      lantern.lanternQueue.find? (fun q => q.op == 0 && q.unit == 3) = some r ∧ lantern.servedBy r = some 3 ∧
      lantern.lanternQueue.find? (fun q => lantern.servedBy q == some 3) = some r ∧
      fine ((lantern.unplan (2 ^ 61 + 0)).computeTriple (theOp lantern) (theEntry [0x40000] 1) 0 r) = true := by decide +kernel

/-- A wick at the head of the queue asks for 180 W for stack 0. -/
def asking (c : Nat) (now : Nat) : State :=
  let s := working id 0 (.bcopy ⟨2, 0x400⟩ ⟨2, 0x200⟩ 0x200) .waiting
  { s with chandler := { s.chandler with queue := [{ op := 0, watts := [(4, 180)], since := 0 }], cap := c }, clock := { s.clock with eph := now } }

/-- The head fits the cap; it does not, after a period and before; the period is over; a die that is overloaded and one that is not. -/
theorem witness_WickGrant : let need := fun s : State => ((s.chandler.granted ++ s.chandler.queue).flatMap WickRequest.watts |>.map Prod.snd).sum + s.chandler.nonWick.sum
    need (asking 180 0) ≤ (asking 180 0).chandler.cap ∧ (asking 179 1000000).chandler.cap < need (asking 179 1000000) ∧
      0 + 1000000 ≤ (asking 179 1000000).ran ∧ (asking 179 999999).ran < 0 + 1000000 ∧ (asking 179 999999).chandler.cap < need (asking 179 999999) ∧
      (asking 180 0).opAt 0 = some (theOp (asking 180 0)) ∧ (asking 180 1000000).chandler.periodStart + 1000000 ≤ (asking 180 1000000).ran ∧
      ((asking 179 0).chandler.budget.getD 4 0 < 180) := by
  decide +kernel

/-- A swap of stack 7 may start; once started, it stands for its last and first regions. -/
theorem witness_RegionSwap : let p : SwapPick := { stack := 7, busy := 32767, idle := 0 }
    let s := after (asking 180 0) (execRmapctl 3 (asking 180 0)) id
    ({ s with pkg := { s.pkg with accesses := [(7 * 32768 + 32767, 4096)] } } : State).maySwap p = true ∧
    Table.find 7 ({ asking 180 0 with pkg := { (asking 180 0).pkg with swaps := [(7, (32767, 0))] } } : State).pkg.swaps = some (32767, 0) := by
  decide +kernel

/-! ### Units that are committed -/

/-- A tile of some rows of INT8 with two K-steps, at an offset. -/
def tileOf (off : Word) (rows : Nat) : Tile := { valid := true, off := off, desc := BitVec.ofNat 32 (rows + 512 * 8 + 8192 * 2) }

/-- MMA of 40 rows from row 2 of bank 7 on, at its first K-step, before it or between its row groups. -/
def multiplying (f : Op → Op) : State := working f 1 (.mma false 7 (tileOf 0x100 40) (tileOf 0x10000 32) 2) .notNeeded

theorem witness_MmaUnit : let s := multiplying id
    let t := multiplying fun o => { o with group := 1, brows := List.replicate 32 ([], []) }
    s.opAt 0 = some (theOp s) ∧ s.opRuns (theOp s) = true ∧ s.bankTurn (theOp s) 7 = true ∧ s.arrayHeld (theOp s) 0 = false ∧ (theOp s).group = 0 ∧
      okay (s.bankReady (theOp s) 0 7 2 40) () = true ∧ t.opRuns (theOp t) = true ∧ t.bankTurn (theOp t) 7 = true ∧ t.arrayHeld (theOp t) 0 = false ∧
      (theOp t).group = 1 ∧ (theOp t).brows.length = 32 := by decide +kernel

/-- A job of two steps in one tile on bank 7, with its first step loaded; it has begun, or has not. -/
def jobbing (f : Op → Op) : State :=
  let c : Card := { theCard with kc := 2, m := 40, counts := [2, 0, 0, 0, 0], full := 0xFFFFFFFF00000000, empty := 0xFFFFFFFF00000100 }
  working (fun o => f { o with card := some c, started := true, loads := [{ step := 0, ascales := [], bscales := [] }] }) 1 (.mjob 0x40000 false) .notNeeded

theorem witness_MjobUnit : let s := jobbing id
    let t := jobbing fun o => { o with pass := 1, group := 1, brows := List.replicate 32 ([], []) }
    (s.opAt 0 = some (theOp s) ∧ s.opRuns (theOp s) = true ∧ (theOp s).wanted = none ∧ (theOp s).group = 0 ∧ ((theOp s).runAt 0).begun = false ∧
      s.bankTurn (theOp s) 7 = true ∧ s.arrayHeld (theOp s) 0 = false ∧ okay (s.bankReady (theOp s) 0 7 0 40) () = true ∧
      (theOp s).card.map (fun c => ((c.step false 0).first, (c.step false 0).last, (c.step false 0).use, c.steps)) = some (true, false, 0, 2)) ∧
    t.opRuns (theOp t) = true ∧ ((theOp t).runAt 0).begun = true ∧ (theOp t).brows.length = 32 ∧ t.bankTurn (theOp t) 7 = true ∧
      t.arrayHeld (theOp t) 0 = false ∧ fine (t.opWindow (theOp t) 0xFFFFFFFF00000000) = true := by decide +kernel

/-- A list of one entry, a copy of 100 bytes from 0x48000 to offset 0x300 of the window with its arrival. -/
def listing : State := (working id 0 (.blist 0x40000 1 (some 0xFFFFFFFF00000000)) .notNeeded).putBytes 0x40000
  (bytesWith 32 [(1, 3), (4, 0xFF), (5, 0xFF), (6, 0xFF), (7, 0xFF), (9, 0x80), (10, 4), (16, 100), (20, 1), (21, 1)])

theorem witness_BlistUnit : let s := listing
    let u := trying s (theOp s)
    let d : Endpoint := { space := 1, addr := 0xFFFFFFFF00000300 }
    let r : Endpoint := { space := 0, addr := 0x48000 }
    s.opAt 0 = some (theOp s) ∧ s.opRuns (theOp s) = true ∧
      (match readRange u (u.opAgent (theOp s)) 0x40000 32 with
       | .ok es => field es 20 1 % 4 == 1 && field es 0 8 == 0xFFFFFFFF00000300 && field es 8 8 == 0x48000 && field es 16 4 == 100 && field es 21 1 == 1
       | _ => false) = true ∧
      (let w := (u.noteRange (u.opAgent (theOp s)) 0x40000 32).updOp 0 fun x => { x with named := x.named ++ [d.addr] }
       (match w.refKey (theOp s) d 100, w.readEnd (theOp s) r 0 0 100, w.opWindow (theOp s) 0xFFFFFFFF00000000 with
        | .ok key, .ok data, .ok _ => fine ((w.noteEndpoint (theOp s) r 0 100).writeEnd (theOp s) d key 0 data)
        | _, _, _ => false) = true) ∧
      (Rows.mk d r 0 0 100 1 0 0).overlap = false := by decide +kernel

/-- A gather of two rows of four bytes into the window, and one whose request stands there yet. -/
def gather : Gather := { dst := ⟨1, 0xFFFFFFFF00000100⟩, src := 0x48000, idx := ⟨0, 0x40000⟩, rowBytes := 4, rows := 2, dstStride := 4, srcStride := 4,
                         arrive := true, arr := 0xFFFFFFFF00000000 }

theorem witness_BkickUnit : let s := working id 0 (.bkick gather) .notNeeded
    let u := trying s (theOp s)
    let o := theOp s
    s.opAt 0 = some o ∧ s.opRuns o = true ∧ o.pc = 0 ∧ (gather.dst.low 0 : Int) + (rowSpan 4 2 4).2 ≤ (s.gangAt 0).scratchSize ∧
      0 ≤ (gather.dst.low 0 : Int) + (rowSpan 4 2 4).1 ∧
      (match u.refKey o gather.dst 0, u.refKey o gather.idx 8, u.opRef o gather.arr 16 16, u.readEnd o gather.idx 0 0 4 with
       | .ok key, .ok 0, .ok _, .ok ib =>
         let w := u.noteEndpoint o gather.idx 0 4
         natLE ib == 0 && (match w.readEnd o ⟨0, 0x48000⟩ 0 0 4 with
           | .ok data => fine ((w.noteEndpoint o ⟨0, 0x48000⟩ 0 4).writeEnd o gather.dst key 0 data)
           | _ => false)
       | _, _, _, _ => false) = true ∧
      (Rows.mk gather.dst ⟨0, 0x48000⟩ 0 0 4 1 0 0).overlap = false := by decide +kernel

theorem witness_BkickRequest : let s := working id 0 (.bkickAt 0xFFFFFFFF00000040) .notNeeded
    let t := s.putScratch 0 0x40 (bytesWith 64 [(2, 5), (10, 4), (18, 4), (24, 4), (28, 2), (32, 4), (40, 4)])
    s.opAt 0 = some (theOp s) ∧ s.opRuns (theOp s) = true ∧ okay (s.opWindow (theOp s) 0xFFFFFFFF00000040) 0 = true ∧ scratchPoisoned s 0 0x40 64 = false ∧
      gatherCheck (Gather.ofBytes (s.scratchBytes 0 0x40 64)) (s.coreAt 0).opbSize = false ∧ okay (t.opWindow (theOp t) 0xFFFFFFFF00000040) 0 = true ∧
      gatherCheck (Gather.ofBytes (t.scratchBytes 0 0x40 64)) (t.coreAt 0).opbSize = true := by decide +kernel

/-- Triple 0 of one or two stands ready to be written: computed, or with no Lantern to serve it. -/
def attended (n : Nat) (lost : Bool) : State :=
  attending (fun o => { o with cls := 2, prepared := true, wick := .granted, entries := List.replicate n (theEntry [0x40000] 1),
                               triples := [{ unit := 0, since := 0, bytes := bytesWith 528 [(8, if lost then 2 else 0)], touched := false, unserved := lost }] }) 1

theorem witness_LattnUnit : let s := attended 2 true
    let t := attended 1 true
    let u := attended 1 false
    (s.opAt 0 = some (theOp s) ∧ s.opRuns (theOp s) = true ∧ tripleOf (theOp s).entries 0 = some (theEntry [0x40000] 1, 0) ∧ (theOp s).erred = none ∧
      0 + 1 < (theOp s).units ∧ fine (s.opWindow (theOp s) 0xFFFFFFFF00000000) = true ∧ (s.gangAt 0).inWindow (0 + 528 * 0) 528 = true ∧
      scratchPoisoned s 0 0 528 = false) ∧
    ((theOp t).units = 1 ∧ t.opRuns (theOp t) = true) ∧ (theOp u).triples.all (fun x => field x.bytes 8 4 == 0) = true ∧ u.opRuns (theOp u) = true := by
  decide +kernel

/-! ### Queues and launches -/

/-- Queue 1023 of context 0 with a ring of 64 slots at 0x40000, home on die 0; the Lamplighter of core 0 runs. -/
def ringed (f : Queue → Queue) : State :=
  (event id).setQueue 1023 (f { Queue.reset with ring := 0x40000, slots := 6, state := .active, home := 0, ctx := 0 })

theorem witness_QueueStates : ((ringed fun q => { q with state := .off }).queueAt 1023).state = .off ∧
    ((ringed fun q => { q with state := .stopped, slots := 17 }).queueAt 1023).state = .stopped ∧
    16 < ((ringed fun q => { q with state := .stopped, slots := 17 }).queueAt 1023).slots ∧
    ((ringed id).queueAt 1023).state = .active ∧ ((ringed id).queueAt 1023).ridx + 2 ^ ((ringed id).queueAt 1023).slots < (65 : DWord).toNat ∧
    (64 : DWord).toNat ≤ ((ringed id).queueAt 1023).ridx + 2 ^ ((ringed id).queueAt 1023).slots := by decide

/-- Whether an attempt of a Lamplighter succeeds with a value that passes a test. -/
def tries {α : Type} (x : Tried α) (p : α → Bool) : Bool := match x with | .ok a => p a | _ => false

/-- Slot 63 holds a packet: its first byte, and all other bytes 0. -/
def filled (b : Byte) : State :=
  (ringed fun q => { q with ridx := 63, widx := 64 }).putBytes (0x40000 + 64 * 63) [b]

theorem witness_QueueIntake : let good := bytesWith 64 [(0, 3)]
    let bad := bytesWith 64 [(0, 1)]
    let job : Job := .intake 1023
    let s := serving job (filled 3)
    let u := serving job (filled 1)
    s.works 0 job = true ∧ (s.queueAt 1023).ridx < (s.queueAt 1023).widx ∧ (s.ctxAt 0).suspend = false ∧
      s.jobWaits job = false ∧ s.storeUsed 0 < 4096 ∧
      tries ((s.renew 0 job).lampRead ((s.renew 0 job).lampFor 0 0 job) ((s.queueAt 1023).slotAddr 63) 64) (· == good) = true ∧
      (good.headD 0).getLsbD 0 = true ∧ intakeReason good = none ∧
      tries (((s.renew 0 job).noteRange ((s.renew 0 job).lampFor 0 0 job) ((s.queueAt 1023).slotAddr 63) 64).lampWrite
        ((s.renew 0 job).lampFor 0 0 job) ((s.queueAt 1023).slotAddr 63) [0]) (fun _ => true) = true ∧
      tries ((u.renew 0 job).lampRead ((u.renew 0 job).lampFor 0 0 job) ((u.queueAt 1023).slotAddr 63) 64) (· == bad) = true ∧
      (bad.headD 0).getLsbD 0 = true ∧ intakeReason bad = some 1 ∧
      tries (((u.renew 0 job).noteRange ((u.renew 0 job).lampFor 0 0 job) ((u.queueAt 1023).slotAddr 63) 64).lampWrite
        ((u.renew 0 job).lampFor 0 0 job) ((u.queueAt 1023).slotAddr 63) [0]) (fun _ => true) = true := by
  decide +kernel

/-- A launch packet of the placed code object, whose header stands before it, waits to be admitted; a deadline. -/
def candidate (deadline : Byte) : Pending :=
  { die := 0, queue := 1023, ctx := 0, index := 7, parent := none, intake := 3, denied := none, slack := none,
    bytes := bytesWith 64 [(0, 0x13), (10, 2), (24, deadline), (36, 4), (37, 4), (38, 4), (39, 4), (42, 4)] }

/-- The header of the placed code object: magic, version, four packets, and no table. -/
def headed (now : Nat) (p : Pending) : State :=
  let s := (ringed id).putBytes (0x20000 - 128) (bytesWith 128 [(0, 0x43), (1, 0x4F), (2, 0x48), (3, 0x39), (4, 1), (8, 4)])
  { s with pendings := [p], clock := { s.clock with eph := now } }

/-- The same with the ticket of the packet's admission held. -/
def admitting (now : Nat) (deadline : Byte) : State := serving (.admission 3) (headed now (candidate deadline))

/-- The seed of the packet finds a place at once: first in its list; where another gang stands before it, it finds none. -/
theorem witness_LaunchAdmission : let p := candidate 0
    let f := PacketFields.ofBytes p.bytes
    let s := admitting 9 0
    let r := s.renew 0 (.admission 3)
    let a := r.lampFor 0 0 (.admission 3)
    let probe := fun c : Code => { Launch.absent with pkt := f, code := c, die := 0, parent := none }
    s.lampsOn 0 = true ∧ s.candidates 0 = [p] ∧ s.works 0 (.admission 3) = true ∧ s.pendings = [p] ∧ s.doomed p = false ∧ s.struck p = false ∧ s.late p = false ∧
      s.jobWaits (.admission p.intake) = false ∧
      (match r.checkCode a p.denied f.code f.seed f.snuffe, (r.noteCode a f.code).readItems a p.denied f with
       | .ok c, .ok items => s.refusalOf (probe c) == 0 && (s.wrapAt (probe c)).isNone &&
           ([0, 1, 2, 3].findSome? fun d => (((r.noteCode a f.code).openSeed p c items).seatNew (gangKey s.nextLaunch 0) d [])).isSome
       | _, _ => false) = true ∧ f.flags.getLsbD 3 = false ∧
      (admitting 9 9).candidates 0 = [candidate 9] ∧ (admitting 9 9).pendings = [candidate 9] ∧ (admitting 9 9).doomed (candidate 9) = false ∧ (admitting 9 9).struck (candidate 9) = false ∧
      (PacketFields.ofBytes (candidate 9).bytes).deadline = 9 ∧ 9 ≤ (admitting 9 9).now := by decide +kernel

/-- A child of launch 0, which the deadline kill has struck. -/
def orphan : State :=
  (serving (.admission 3) (headed 9 { candidate 0 with parent := some 0 })).updLaunch 0 fun l => { l with phase := .killed }

theorem witness_StruckPacket : let p := { candidate 0 with parent := some 0 }
    orphan.lampsOn 0 = true ∧ orphan.pendings = [p] ∧ p.isLaunch = true ∧ p.die = 0 ∧ orphan.works 0 (.admission 3) = true ∧
      orphan.doomed p = false ∧ (orphan.launchAt 0).phase = .killed := by decide +kernel

/-- Launch 0 with its spawn tree empty, some completion writes left. -/
def ended (f : PacketFields → PacketFields) : State := (ringed id).updLaunch 0 fun l => { l with spawn := 0, steps := 0, pkt := f l.pkt }

theorem witness_LaunchCompletion : let job : Job := .completion 0
    let s := serving job (ended fun p => { p with vrec := 0x48000 })
    let u := serving job (ended fun p => { p with signal := 0x48000 })
    (serving job (ended id)).completes 0 = true ∧ ((ended id).launchAt 0).steps = 0 ∧ ((ended id).launchAt 0).pkt.vrec = 0 ∧
      ((ended id).launchAt 0).pkt.signal = 0 ∧ s.completes 0 = true ∧
      tries ((s.renew 0 job).lampWrite ((s.renew 0 job).lampFor 0 0 job) 0x48000 (s.launchAt 0).recordBytes) (fun _ => true) = true ∧
      u.completes 0 = true ∧
      tries (((u.renew 0 job).stepDone 0).lampDecrement ((u.renew 0 job).lampFor 0 0 job) 0x48000) (fun _ => true) = true := by decide +kernel

/-- A signal marker waits; its signal. -/
def marked (signal : Byte) : State :=
  { ringed id with pendings := [{ candidate 0 with bytes := bytesWith 64 [(0, 5), (50, signal)] }] }

theorem witness_SignalMarker : let p : Pending := { candidate 0 with bytes := bytesWith 64 [(0, 5), (50, 0)] }
    let q : Pending := { candidate 0 with bytes := bytesWith 64 [(0, 5), (50, 4)] }
    (marked 0).oldestMarker 1023 = some p ∧ (marked 0).lampsOn 0 = true ∧ (marked 0).jobWaits (.marker 1023) = false ∧
      (marked 0).earlierDone p = true ∧ (marked 4).oldestMarker 1023 = some q ∧ (marked 4).earlierDone q = true ∧
      natLE ((q.bytes.drop 48).take 8) = 0x40000 ∧ tries ((marked 4).lampDecrement ((marked 4).lampFor 0 0 (.marker 1023)) 0x40000) (fun _ => true) = true := by decide +kernel

/-- A reclaim is posted to die 0: its line, and its busy bit. -/
def reclaiming (line : DWord) : State :=
  serving (.reclaim 5) ((ringed id).updCtx 5 fun c => { c with rcbusy := true, rcline := line, rcdata := 0x48000 })

/-- A line that is not aligned, one outside every window, and the lost line of a window whose data cannot be read yet: a pin holds them. -/
theorem witness_ReclaimAndLease : (reclaiming 1).reclaimDie 5 = some 0 ∧ ((reclaiming 1).ctxAt 5).rcbusy = true ∧
    ((reclaiming 1).ctxAt 5).rcline.toNat % 64 ≠ 0 ∧ (reclaiming 64).reclaimDie 5 = some 0 ∧ ((reclaiming 64).ctxAt 5).rcline.toNat % 64 = 0 ∧
    ((reclaiming 64).ctxAt 5).rcdata.toNat % 64 = 0 ∧ ((reclaiming 64).dieAt 0).fenced = false ∧
    ((reclaiming 64).reclaim ((reclaiming 64).lampFor 5 0 (.reclaim 5)) 64 0x48000).map Prod.fst = some 2 ∧
    (let s := { windowed (.lost 3) with pins := [{ line := 0x40000 / 128, gang := 9, scope := 1, til := 50000 }] }
     s.reclaim (lampAgent 0) 0x200000 0x40000 = none) := by decide

/-- Launch 0 at a time, with a deadline of 100 and a budget of 40. -/
def timed (now : Nat) : State :=
  let s := (ringed id).updLaunch 0 fun l => { l with pkt := { l.pkt with deadline := 100, budget := 40 } }
  { s with clock := { s.clock with eph := now } }

theorem witness_SnuffAndDeadline : ((timed 60).launchAt 0).phase = .running ∧ ((timed 60).launchAt 0).wrap = none ∧
    100 - min 40 100 ≤ (timed 60).now ∧ ((timed 60).gangAt 0).launch = 0 ∧ ((timed 60).gangAt 0).alive = true ∧
    ((timed 60).gangAt 0).wrap = false ∧ ((timed 60).gangAt 0).marked = none ∧ ((timed 60).gangAt 0).hold = none ∧
    ((timed 60).gangAt 0).delaysSnuff = false ∧ 100 ≤ (timed 100).now ∧ ((timed 100).launchAt 0).spawn ≠ 0 ∧
    ((timed 100).launchAt 0).lerr &&& 0x44 = 0 ∧ (timed 60).lampsOn 0 = true := by decide

/-- Slack is computed again 10 µs after it was; an arrival waits and has none yet. -/
theorem witness_SlackRecompute : let s := { timed 10000 with pendings := [candidate 9] }
    s.lampsOn 0 = true ∧ (s.dieAt 0).slackAt + 10000 ≤ s.ran ∧ s.pendings = [candidate 9] ∧ (s.launchAt 0).die = 0 ∧ (s.launchAt 0).phase ≠ .done := by
  decide

/-! ### Registers of the companion -/

/-- A fault record with id 9 stands in the queue, of a gang or of an operation. -/
def faulting (g op : Option Nat) : State :=
  let s := working (fun o => { o with fault := some 9 }) 0 (.bcopy ⟨2, 0x400⟩ ⟨2, 0x200⟩ 0x200) .granted
  let s := s.updGang 0 fun x => { x with park := some (.page [9] 0xFFFFFFFF) }
  { s with pkg := { s.pkg with faults := [{ id := 9, ctx := 0, va := 0, kind := 0, src := 0, posted := true, pc := 12, lane := 0, op := op, gang := g, job := none }] } }

theorem witness_FaultAnswers : let id := fun v : DWord => v.toNat % 2 ^ 32
    (faulting (some 0) none).pkg.faults.find? (fun f => f.id == id 9 && f.posted) =
        some { id := 9, ctx := 0, va := 0, kind := 0, src := 0, posted := true, pc := 12, lane := 0, op := none, gang := some 0, job := none } ∧
      ((faulting (some 0) none).gangAt 0).park = some (.page [9] 0xFFFFFFFF) ∧ (9 : DWord).getLsbD 32 = false ∧
      id 0x100000009 = 9 ∧ (0x100000009 : DWord).getLsbD 32 = true ∧ ((faulting (some 0) none).gangAt 0).lamp = false ∧
      ((faulting (some 0) none).launchOf 0).phase = .running ∧
      (faulting none (some 0)).pkg.faults.find? (fun f => f.id == id 9 && f.posted) =
        some { id := 9, ctx := 0, va := 0, kind := 0, src := 0, posted := true, pc := 12, lane := 0, op := some 0, gang := none, job := none } ∧
      (faulting none (some 0)).opAt 0 = some (theOp (faulting none (some 0))) ∧ (theOp (faulting none (some 0))).fault = some 9 := by decide +kernel

/-- Context 0, changed, in a package with its seed gang. -/
def contexts (f : Ctx → Ctx) : State := (ringed id).updCtx 0 f

/-- The service record at offset 64 is answered: byte 6 has its low bit set, and the block of its one lane can be read. -/
def answered : State :=
  ((contexts fun c => { c with srbase := 0x80000, srsize := 8, records := [{ at_ := 64, size := 96, gang := some 0 }] }).putBytes 0x80046 [1]).updGang 0
    fun g => { g with park := some (.svcReply 1 64) }

theorem witness_ServiceReply : (answered.ctxAt 0).records = [{ at_ := 64, size := 96, gang := some 0 }] ∧
    (answered.gangAt 0).park = some (.svcReply 1 64) ∧ (answered.launchOf 0).phase = .running ∧
    (let read := fun s : State => fun at_ n => readRange s (s.lampNear 0 (s.gangAt 0).core) ((s.ctxAt 0).srbase + BitVec.ofNat 64 (64 + at_)) n
     let t := answered.putBytes 0x80046 [0]
     let u := { answered with pins := [{ line := 0x80046 / 128, gang := 9, scope := 1, til := 50000 }] }
     okay (read answered 6 1) [1] = true ∧ okay (read answered 64 (32 * (lanesOf 1).length)) (List.replicate 32 0) = true ∧
       okay (read t 6 1) [0] = true ∧ (t.ctxAt 0).records = (answered.ctxAt 0).records ∧
       (match read u 6 1 with | .error (.wait, _) => true | _ => false) = true) := by
  decide

/-- A translation that an invalidation of context 0's pages of 64 KiB names, and one that it does not, with a dirty line where the first leads. -/
def invalidating : State :=
  let s := warm (contexts fun c => { c with tlbbusy := true, tlbinv := 0x40000 })
  let e : TlbEntry := { place := .die 3, ctx := 1, va := 0, size := 2 ^ 16, pa := 0, w := true, x := true }
  { s with tlb := e :: s.tlb, dirty := [{ line := 0x800, gang := 0 }] }

theorem witness_TlbInvalidation : (invalidating.ctxAt 0).tlbbusy = true ∧ (invalidating.ctxAt 0).tlbinv.toNat % 4 = 0 ∧
    (invalidating.tlb.filter fun e => e.ctx == 0 && decide (0x40000 < e.va + e.size) && decide (e.va < 0x40000 + 2 ^ 16)).length = 3 ∧
    invalidating.tlb.length = 4 ∧ invalidating.rangeUsed 0 0x40000 = false ∧
    (let r : DirRequest := { pkg := 9, ctx := 3, hctx := 0, tc := 1, dom := 2, line := 0x40000, xfer := 0, link := none }
     (invalidating.setDir (0x40000 / 64) { DirLine.home with state := .snoop 7, queue := [r] }).rangeUsed 0 0x40000 = true) := by decide

theorem witness_CompanionRegisters : ((contexts id).pkg.fqhead - 0).toNat ≤ 2 ^ (contexts id).pkg.fqsize ∧
    2 ^ (contexts id).pkg.fqsize < ((contexts id).pkg.fqhead - 0x80000000).toNat ∧ ((contexts id).ctxAt 0).dumpWait = [] ∧
    ((contexts id).ctxAt 0).rcbusy = false ∧ ((contexts fun c => { c with rcbusy := true }).ctxAt 0).rcbusy = true ∧
    ((contexts id).ctxAt 0).tlbbusy = false ∧ ((contexts fun c => { c with tlbbusy := true }).ctxAt 0).tlbbusy = true ∧
    (∀ b ∈ [14, 15], let c := (contexts fun c => { c with pool := { c.pool with bsz := b, count := 16777216 } }).ctxAt 0
      c.pool.bsz = b ∧ 0 < c.pool.count ∧ c.pool.count ≤ 16777216) ∧
    okay (translate (contexts id) (dieAgent 0 3 0) 0x40000 (kindOf 0)) 0x40000 = true ∧
    fine (translate (contexts id) (dieAgent 0 3 0) 0x10000000000 (kindOf 0)) = false := by decide +kernel

/-- A time of day can be set where no launch that is not over has a deadline. -/
theorem witness_Ephset : (∀ kl ∈ (ringed id).launches, kl.2.phase = .done ∨ kl.2.pkt.deadline = 0) ∧
    (∃ kl ∈ (timed 60).launches, kl.2.phase ≠ .done ∧ kl.2.pkt.deadline ≠ 0) := by decide

theorem witness_PinLimitExpiry : let s := { ringed id with pins := [{ line := 8, gang := 0, scope := 1, til := 0 }] }
    ∃ p ∈ s.pins, p.line = 8 ∧ p.til ≤ s.ran := by decide

/-! ### Bring-up, time and errors -/

/-- A package in CHECK with an image header at 64 MiB and the shortest FWLEN that takes it. -/
def pushed (m : Byte) : State :=
  let s := State.reset.putBytes 0x4000000 [m, 0x46, 0x57, 0x49, 1]
  { s with pkg := { s.pkg with fwstate := .check, fwbase := 0x4000000, fwlen := 29920 } }

theorem witness_FirmwareCheck : State.reset.pkg.fwstate = .waitImg ∧ (pushed 0x48).pkg.fwstate = .check ∧
    (pushed 0x48).numAt (pushed 0x48).pkg.fwbase.toNat 4 = 0x49574648 ∧ (pushed 0x48).numAt ((pushed 0x48).pkg.fwbase.toNat + 4) 2 = 1 ∧
    128 + (pushed 0x48).numAt ((pushed 0x48).pkg.fwbase.toNat + 8) 4 + 29792 ≤ (pushed 0x48).pkg.fwlen.toNat ∧
    (pushed 0).numAt (pushed 0).pkg.fwbase.toNat 4 ≠ 0x49574648 ∧
    (let s := { pushed 0x48 with pkg := { (pushed 0x48).pkg with fwlen := 29919 } }
     s.pkg.fwlen.toNat < 128 + s.numAt (s.pkg.fwbase.toNat + 8) 4 + 29792) := by decide

theorem witness_LampctlAndMgmt : ((State.reset.updCore 191 fun c => { c with slot := .halted }).coreAt 191).slot = .halted ∧
    State.reset.hasLaunch 63 = false ∧ (ringed id).hasLaunch 0 = true ∧ BitVec.ofNat 64 0x1000 ≠ ((ringed id).ctxAt 0).dumpbase := by decide

/-- A PTP slave of domain 127 that hears, at a time; the Lamplighter of the last core runs. -/
def hearing (f : Ptp → Ptp) (now : DWord) : State :=
  { State.reset.updCore 191 (fun c => { c with slot := .running }) with
      ptp := f { State.reset.ptp with cfg := 0x17F }, clock := { State.reset.clock with eph := now } }

theorem witness_Ptp : (hearing id 0).ptp.cfg.getLsbD 8 = true ∧ (hearing id 0).ptp.cfg.toNat % 128 = 127 ∧
    ((hearing id 0).ptp.locked = false ∧ ¬ ∃ kl ∈ (hearing id 0).launches, kl.2.phase ≠ .done ∧ kl.2.pkt.deadline ≠ 0) ∧
    ((hearing (fun p => { p with locked := true }) 1000000).ptp.locked = true ∧
      (((hearing (fun p => { p with locked := true }) 1000000).now : Int) - 0 - (hearing (fun p => { p with locked := true }) 1000000).ptp.path).natAbs ≤
        1000000) ∧
    (hearing (fun p => { p with sync := some (7, 5) }) 0).ptp.sync = some (7, 5) ∧
    (hearing (fun p => { p with delayReq := some (7, 5), last := some (4, 3) }) 0).ptp.delayReq = some (7, 5) ∧
    (hearing (fun p => { p with delayReq := some (7, 5), last := some (4, 3) }) 0).ptp.last = some (4, 3) ∧
    (hearing id 2000000000).ptp.syncAt + 2000000000 ≤ (hearing id 2000000000).ran ∧
    (hearing id 0).lampsOn 3 = true ∧ (hearing id 0).lampsOn 0 = false := by decide

/-- Units under test on die 3; gang 0 stands on core 0, where a Lamplighter runs, and has a window of 4,096 bytes. -/
def erring : State :=
  let s := (event fun g => { g with scratchSize := 4096 }).updDie 3 fun d =>
    { d with testing := [.sramBank 144 31, .arrayRow 12 31, .lantern 7 31] }
  s.setGang (lampKey 5) (lampGang 5)

theorem witness_ErrorEvents : physOk 0x7FFFFFFFFF = true ∧ 4095 < (erring.gangAt 0).scratchSize ∧ (erring.gangAt 0).windowFreed = false ∧
    (erring.gangAt 0).place = .resident 0 ∧ (erring.gangAt 0).lamp = false ∧ (erring.launchOf 0).phase = .running ∧
    (erring.gangAt (lampKey 5)).place = .resident 5 ∧ (erring.gangAt (lampKey 5)).lamp = true ∧ (erring.dieAt 3).fenced = false ∧
    (erring.queueAt 1023).state ≠ .broken ∧ erring.bankUnder 0 4095 = some (erring.bankUnder 0 4095 |>.getD 0) ∧
    ∀ u ∈ ([.sramBank 144 31, .arrayRow 12 31, .lantern 7 31] : List TestUnit), u ∈ (erring.dieAt 3).testing ∧ erring.testable 3 u = true := by decide

/-! ### The fabric -/

/-- Port 17 is up, changed. -/
def wired (f : Port → Port) (s : State) : State := s.setPort 17 (f { Port.reset with up := true })

/-- Flit 4 has been sent over port 17 and is kept. -/
def sentFlit : State := wired (fun x => { x with txcnt := 2 ^ 48 - 4, kept := [(4, [])] }) State.reset

/-- This package is number 5; port 17 is up. -/
def here (s : State) : State := wired id { s with fab := { s.fab with pkgid := 5 } }

/-- A FAB operation of the gang, to peer 1 of its context, context 3 of package 7. -/
def remote (f : Op → Op) (k : OpKind) : State :=
  let s := working f 3 k .notNeeded
  ((here s).updCtx 0 fun c => { c with peertab := 0x60000, peercnt := 2, rgtab := 0x70000, rgcnt := 1 }).putBytes 0x60004 [7, 0x30, 0, 0x80]

theorem witness_Ports : (sentFlit.portAt 17).up = true ∧ (sentFlit.portAt 17).goTx = false ∧ (sentFlit.portAt 17).keyWait = none ∧
    (sentFlit.portAt 17).txcnt + ((sentFlit.portAt 17).kept.filter fun k => decide (4 ≤ k.1)).length < 2 ^ 48 - 2 ∧
    (sentFlit.portAt 17).keptOld = [] ∧
    (sentFlit.portAt 17).goRx = false ∧ ((wired (fun x => { x with goRx := true }) State.reset).portAt 17).goRx = true ∧
    ((wired (fun x => { x with keyWait := some 0 }) { State.reset with clock := { State.reset.clock with eph := 1000000 } }).portAt 17).keyWait = some 0 ∧
    0 + 1000000 ≤ ({ State.reset with clock := { State.reset.clock with eph := 1000000 } } : State).ran ∧
    ({ State.reset with fab := { State.reset.fab with pkgid := 5 } } : State).fab.pkgid.toNat % 4096 ≠ 0xFFF ∧
    (State.reset.portAt 17).up = false ∧ ((wired (fun x => { x with up := false, training := true }) State.reset).portAt 17).training = true ∧
    ((wired (fun x => { x with up := false, training := true }) State.reset).portAt 17).up = false := by decide

/-- After a new key: the port has sent no flit under it, and a REPLAY names one of the old key. -/
theorem witness_ReplayOldKey : let s := wired (fun x => { x with keptOld := [(9, [])] }) State.reset
    (s.portAt 17).txcnt ≤ 9 ∧ ((s.portAt 17).keptOld.filter fun k => decide (9 ≤ k.1)) ≠ [] ∧ (s.portAt 17).up = true ∧ (s.portAt 17).goTx = false ∧
      (s.portAt 17).keyWait = none ∧ (s.portAt 17).txcnt + ((s.portAt 17).keptOld.filter (fun k => decide (9 ≤ k.1)) ++ (s.portAt 17).kept).length < 2 ^ 48 - 2 := by
  decide

/-- The next flit on the wire of a die link is the one expected, or another one. -/
theorem witness_DieLinkWire : let s := State.reset.setLink 0 3 { DieLink.reset with rxn := 7, txn := 9, wire := [7, 8] }
    let u := State.reset.setLink 0 3 { DieLink.reset with rxn := 7, txn := 9, wire := [8] }
    (s.linkAt 0 3).wire = [7, 8] ∧ 7 = (s.linkAt 0 3).rxn ∧ (u.linkAt 0 3).wire = [8] ∧ 8 ≠ (u.linkAt 0 3).rxn := by decide

theorem witness_DieLinkFlit : let flit := List.replicate 64 (0 : Byte) ++ bytesLE 8 (crc64 (List.replicate 64 0)).toNat
    flit.length = 72 ∧ flit.drop 64 = bytesLE 8 (crc64 (flit.take 64)).toNat := by decide +kernel

/-- A packet from package 7, context 3, for this package, which is number 5. -/
def parcel : Packet :=
  { blankPacket with src := 7, dst := 5, ctx := 0, sctx := 3, tc := 1, dom := 2, xfer := 0, addr := 0x40000, data := List.replicate 8 1 }

/-- A kept packet of the way back. -/
def keptOne : State :=
  let s := here State.reset
  { s with fab := { s.fab with outflows := [{ dst := 7, ctx := 3, sctx := 0, tc := 1, dom := 2, port := some 17, next := 1,
                                              kept := [{ die := 0, packet := parcel, op := none, unit := 0, sentAt := some 0, holds := none }], lost := none }] } }

theorem witness_AckAndNak : keptOne.heard 17 parcel = true ∧ (keptOne.outFlow (backFlow parcel)).kept ≠ [] ∧
    keptOne.flowPort (keptOne.outFlow (backFlow parcel)) = some 17 := by decide

/-- The route word of peer 1. -/
def route : Route := { arr := false, scratch := false, dom := 2, tc := 1, peer := 1 }

/-- The flow of an operation has had no port for a millisecond. -/
def lostFlow : State :=
  let s := remote id (.fput 0x50000 0x40000 64 route none)
  { s with fab := { s.fab with outflows := [{ dst := 7, ctx := 3, sctx := 0, tc := 1, dom := 2, port := none, next := 0, kept := [], lost := some 0 }] },
           clock := { s.clock with eph := 1000000 } }

theorem witness_FlowPortTimeout : let g : OutFlow := { dst := 7, ctx := 3, sctx := 0, tc := 1, dom := 2, port := none, next := 0, kept := [], lost := some 0 }
    lostFlow.fab.outflows[0]? = some g ∧ 0 + 1000000 ≤ lostFlow.ran ∧ portFor lostFlow g.dst g.tc g.dom = none ∧
      (theOp lostFlow).cls = 3 ∧ (theOp lostFlow).status = .active ∧ lostFlow.opFlow (theOp lostFlow) = some g.key := by decide +kernel

/-- The last unit of a bulk transfer, whose packets are on their way, is reported missing. -/
theorem witness_Dropnote : let s := remote (fun o => { o with sent := 2, ended := true }) (.fbulk 0x40000 0x50040 128 route 0)
    let p := { parcel with aux := 127 }
    s.heard 17 p = true ∧ s.xferOp p.ctx p.xfer = some (theOp s) ∧ (0x50040 + 127) / 128 - 0x50040 / 128 = 1 ∧ (theOp s).pc ≤ 1 ∧
      1 ∉ (theOp s).acked ∧ 1 ∉ (theOp s).owed := by decide +kernel

/-! A packet of each kind that is due, in a state in which it can be applied. -/

/-- The package with an operation that packets of transfer 0 belong to. -/
def awaiting (k : OpKind) : State := remote id k

/-- The packets of the next four witnesses, each in its state. -/
def dueOnes : List (State × Packet) :=
  [(awaiting (.fput 0x50000 0x40000 64 route none), parcel), (awaiting (.fget 0x48000 0x50000 8 route 0), { parcel with kind := 2, resp := true }),
   (awaiting (.fatom 0x50000 0 0 0 route 0x48000), { parcel with kind := 3, resp := true }),
   (awaiting (.fred 0x48000 0x40000 8 0 0 0 9), { parcel with kind := 4, resp := true, addr := 0, aux := 9 * 65536 }),
   (awaiting (.fresv route 0 0x48000), { parcel with kind := 6 }), (awaiting (.fresv route 0 0x48000), { parcel with kind := 6, op := 2, aux := 0x7FFFFFFF }),
   (awaiting (.fbulk 0x40000 0x50040 128 route 0), { parcel with kind := 7, op := 3, aux := 63 }),
   (awaiting (.fput 0x50000 0x40000 64 route none), { parcel with kind := 5, op := 6 })]

theorem witness_Due : ∀ x ∈ dueOnes, due x.1 17 x.2 := by unfold due; decide +kernel

/-- A packet that has been applied already comes again, one comes too early, one comes while its flow waits, and one is malformed. -/
theorem witness_LatePacket : let flow : InFlow := { src := 7, sctx := 3, ctx := 0, tc := 1, dom := 2, expected := 0, ended := [], refused := [], stalled := none, behind := [] }
    let s := (here State.reset).setInFlow flow
    let p := { parcel with seq := 0xFFFFFFFF }
    let u := (here State.reset).setInFlow { flow with stalled := some { fault := none, port := 17, packet := parcel } }
    seqReached p.seq (s.inFlow p).expected = true ∧ p.seq ≠ (s.inFlow p).expected ∧ s.heard 17 p = true ∧
      seqReached 1 (s.inFlow p).expected = false ∧ 1 ≠ (s.inFlow p).expected ∧ s.heard 17 { parcel with seq := 1 } = true ∧
      (u.inFlow parcel).stalled ≠ none ∧ u.heard 17 parcel = true ∧ parcel.seq = (u.inFlow parcel).expected ∧
      (s.portAt 17).up = true ∧ packetOk { parcel with op := 1 } = false := by decide

/-- A put to a page that is not mapped, and one to a pinned line. -/
theorem witness_PutStalls : let s := awaiting (.fput 0x50000 0x40000 64 route none)
    let p := { parcel with addr := 0x10000000000 }
    let u := { s with pins := [{ line := 0x40000 / 128, gang := 9, scope := 1, til := 50000 }] }
    (match writeRange (atGateway s p) (gateAgent 0 17) p.addr p.data with | .error (.page, _) => true | _ => false) = true ∧
      (match writeRange (atGateway u parcel) (gateAgent 0 17) parcel.addr parcel.data with | .error (.wait, _) => true | _ => false) = true ∧
      (u.inFlow parcel).stalled = none ∧ (s.inFlow p).stalled = none := by decide +kernel

theorem witness_Put : let s := awaiting (.fput 0x50000 0x40000 64 route none)
    parcel.kind = 0 ∧ parcel.resp = false ∧ parcel.drop = false ∧ parcel.rsvd = false ∧
      fine (writeRange (atGateway s parcel) (gateAgent 0 17) parcel.addr parcel.data) = true ∧
      (let p := { parcel with kind := 1 }; fine ((atGateway s p).addWord (gateAgent 0 17) p.addr (natLE (p.data.take 8))) = true) ∧
      (let p := { parcel with kind := 2 }; fine (readRange (atGateway s p) (gateAgent 0 17) p.addr p.data.length) = true) ∧
      (let p := { parcel with kind := 3, op := 11 }; ∃ old, readGlobal (atGateway s p) (gateAgent 0 17) p.addr 4 .atomic = .ok old ∧
        fine (writeGlobal (atGateway s p) (gateAgent 0 17) p.addr (atomicBytes p.op old (BitVec.ofNat 64 (natLE (p.data.take 4)))
          (BitVec.ofNat 64 (natLE ((p.data.drop 4).take 4))))) = true) := by
  refine ⟨by decide, by decide, by decide, by decide, by decide +kernel, by decide +kernel, by decide +kernel, [0, 0, 0, 0], ?_, by decide +kernel⟩
  exact ok_of (by decide +kernel)

theorem witness_Responses : let s := awaiting (.fget 0x48000 0x50000 8 route 0)
    let p := { parcel with kind := 2, resp := true }
    let s' := awaiting (.fatom 0x50000 0 0 0 route 0x48000)
    let q := { parcel with kind := 3, resp := true }
    s.xferOp 0 0 = some (theOp s) ∧ s.opAt (theOp s).id = some (theOp s) ∧ route.scratch = false ∧ p.op ≠ 0xFF ∧
      fine ((atGateway s p).writeEnd (theOp s) { space := 0, addr := 0x48000 } 0 p.aux.toNat p.data) = true ∧
      s'.xferOp 0 0 = some (theOp s') ∧ fine (writeRange (atGateway s' q) (s'.opAgent (theOp s')) 0x48000 q.data) = true ∧
      (let s'' := awaiting (.fred 0x48000 0x40000 8 0 0 0 9)
       let r := { parcel with kind := 4, resp := true, addr := 0, aux := 9 * 65536 }
       s''.redOps 0 (r.xfer % 4096) (r.aux.toNat / 65536) = [theOp s''] ∧ s''.opAt (theOp s'').id = some (theOp s'') ∧
         fine (writeRange (atGateway s'' r) (s''.opAgent (theOp s'')) (0x48000 + BitVec.ofNat 64 (r.addr.toNat % 2 ^ 32)) r.data) = true) := by
  decide +kernel

/-- A request that the port's budget takes, one that it does not, answers to a reservation, and a bulk acknowledgement. -/
theorem witness_Reservations : let s := awaiting (.fresv route 0 0x48000)
    let p := { parcel with kind := 6 }
    let q := { p with aux := 0x7FFFFFFF }
    let window := fun x : Packet => (x.aux.toNat + 3999) / 4000 + 10
    let budget := fun (u : State) x => 7000 * (stripe (u.portAt 17).rxmask).length * window x
    ((atGateway s p).openBytes 17 + p.aux.toNat ≤ budget (atGateway s p) p) ∧ ¬ ((atGateway s q).openBytes 17 + q.aux.toNat ≤ budget (atGateway s q) q) ∧
      s.xferOp 0 0 = some (theOp s) ∧ s.opAt (theOp s).id = some (theOp s) ∧
      fine (writeRange (atGateway s p) (s.opAgent (theOp s)) 0x48000 (bytesLE 8 (p.aux.toNat * 2 ^ 32))) = true ∧
      fine (writeRange (atGateway s p) (s.opAgent (theOp s)) 0x48000 (bytesLE 8 1)) = true ∧
      (let b := remote (fun o => { o with sent := 2 }) (.fbulk 0x40000 0x50040 128 route 0)
       b.xferOp 0 0 = some (theOp b) ∧ (theOp b).cancelling = false ∧ (theOp b).acked = [] ∧ (theOp b).pc = (0x50040 + 63) / 128 - 0x50040 / 128) := by
  decide +kernel

/-- A bulk transfer that owes a unit was refused its reservation 10 µs ago. -/
theorem witness_ResvRetryTimer :
    let s := remote (fun o => { o with sent := 2, owed := [1], resv := .refused 0 }) (.fbulk 0x40000 0x50040 128 route 0)
    let t := { s with clock := { s.clock with eph := 10000 } }
    t.ops.find? (fun o => o.cls == 3 && o.xfer == 0 && o.status == .active && !o.owed.isEmpty) = some (theOp t) ∧ (theOp t).resv = .refused 0 ∧
      0 + 10000 ≤ t.ran ∧ (t.opFlow (theOp t)).isSome = true := by decide +kernel

/-- Group 0 has two members and a root, which no listed byte but the table's names; no contribution has come, or one has. -/
def reducing (root : Nat) (ns : List RedNode) : State :=
  let s := awaiting (.fred 0x48000 0x40000 8 0 0 0 9)
  { s with mem := [(0x70000, 2), (0x70004, BitVec.ofNat 8 root), (0x70005, BitVec.ofNat 8 (root / 256)), (0x70006, 1)],
           fab := { s.fab with nodes := ns } }

/-- Whatever number the switch has, a group's root may be that one. -/
theorem reducing_entry (root : Nat) (h : root < 4096) (ns : List RedNode) : groupEntry (reducing root ns) 0 0 = some (2, 0, root) := by
  have e : groupEntry (reducing root ns) 0 0 =
      some (2, 0, ((BitVec.ofNat 8 root).toNat + 256 * ((BitVec.ofNat 8 (root / 256)).toNat + 256 * 0)) % 4096) := by rfl
  rw [e]
  simp only [BitVec.toNat_ofNat]
  congr 3
  omega

theorem witness_Red (n : Nat) : ∃ root other, root = n % 4096 ∧ other ≠ n % 4096 ∧ (∀ ns, groupEntry (reducing root ns) 0 0 = some (2, 0, root)) ∧
    ∀ ns, groupEntry (reducing other ns) 0 0 = some (2, 0, other) :=
  ⟨n % 4096, (n % 4096 + 1) % 4096, rfl, by omega, reducing_entry _ (Nat.mod_lt _ (by decide)), reducing_entry _ (Nat.mod_lt _ (by decide))⟩

theorem witness_RedPackets : let p := { parcel with kind := 4, addr := 8 * 2 ^ 32, aux := 9 * 65536 }
    let y : RedNode := { ctx := 0, group := 0, number := 9, off := 0, level := 0, index := 1, code := 0, total := 8, data := List.replicate 8 2,
                         members := [(1, 5, 0)] }
    packetOk p = true ∧ p.xfer % 4096 = 0 ∧ p.aux.toNat / 4096 % 16 = 0 ∧ p.aux.toNat % 4096 = 0 ∧ (reducing 5 []).fab.failedReds = [] ∧
      (reducing 5 []).fab.nodes = [] ∧ (reducing 5 [y]).fab.nodes = [y] ∧ ({ y with code := 1 } : RedNode).code ≠ p.op ∧
      y = { ctx := p.ctx, group := p.xfer % 4096, number := p.aux.toNat / 65536, off := p.addr.toNat % 2 ^ 32, level := 0, index := 1, code := p.op,
            total := p.addr.toNat / 2 ^ 32, data := y.data, members := y.members } := by decide +kernel

/-- The line at 0x40000 at the directory, or held from another package. -/
def directed (d : DirState) (h : Option DirRequest) : State := (awaiting (.fput 0x50000 0x40000 64 route none)).setDir (0x40000 / 64)
  { state := d, holder := h, queue := [], timer := 0, turn := [] }

theorem witness_CoherenceEvents : let p := { parcel with kind := 5 }
    let line := p.addr &&& ~~~(63 : DWord)
    let h : DirRequest := { pkg := 9, ctx := 3, hctx := 0, tc := 1, dom := 2, line := 0x40000, xfer := 0, link := none }
    p.src ≠ (directed .home none).ownPkg ∧ okay (translate (atGateway (directed .home none) p) (gateAgent 0 17) line .read) 0x40000 = true ∧
      okay (translate (atGateway (directed .home none) p) (gateAgent 0 17) line .write) 0x40000 = true ∧
      carved (atGateway (directed .home none) p) (gateAgent 0 17) 0x40000 = false ∧ ((directed .home none).dirAt (0x40000 / 64)).state = .home ∧
      ((directed .home none).dirAt (0x40000 / 64)).turn = [] ∧
      (((directed .home none).setDir (0x40000 / 64) { DirLine.home with turn := [{ req := 0, access := none, used := false, late := false }] }).dirAt
        (0x40000 / 64)).turn ≠ [] ∧
      ((directed (.excl 9) (some h)).dirAt (0x40000 / 64)).state = .excl 9 ∧ ((directed (.excl 9) (some h)).dirAt (0x40000 / 64)).holder = some h ∧
      ((directed (.excl 7) (some h)).dirAt (0x40000 / 64)).state = .excl 7 ∧ ((directed (.snoop 7) none).dirAt (0x40000 / 64)).state = .snoop 7 ∧
      ((directed (.snoop 7) none).dirAt (0x40000 / 64)).queue = [] ∧ ((directed (.snoop 7) none).dirAt (0x40000 / 64)).timer ≤ (directed (.snoop 7) none).ran ∧
      (directed .home none).fab.held = [] ∧ (directed .home none).fab.cohWaits = [] ∧
      (let x : HeldLine := { ctx := 0, line := 0x40000, home := 7, die := 0, data := List.replicate 64 3, turn := [] }
       let s := directed .home none
       ({ x with turn := [{ req := 0, access := none, used := false, late := false }] } : HeldLine).turn ≠ [] ∧ ({ s with fab := { s.fab with held := [x] } } : State).fab.held.find? (fun y => y.ctx == p.ctx && y.line == line) = some x) := by decide +kernel

/-! ### Units of fabric operations, refusals and answers -/

/-- Packages reach package 7 over port 17. -/
def routed (s : State) : State := ({ s with fab := { s.fab with yrtab := 0x65000 } } : State).putBytes 0x65000 (bytesWith 32 [(30, 2)])

/-- The gang's group 0 has two members, its root at switch 5. -/
def reduction : State := (remote id (.fred 0x48000 0x40000 300 0 0 0 9)).putBytes 0x70000 [2, 0, 1, 0, 5, 0, 1]

theorem witness_FabricUnit : ∀ s ∈ [remote id (.fput 0x50000 0x40000 300 route none), remote id (.fget 0x48000 0x50000 300 route 0),
      remote id (.fatom 0x50000 24 3 5 route 0x48000), remote id (.fresv route 100 0x48000), reduction, remote id (.fbulk 0x40000 0x50040 128 route 0)],
    let s := routed s
    let o := theOp s
    s.opAt 0 = some o ∧ s.opRuns o = true ∧ o.cls = 3 ∧ o.sent < o.packets ∧ o.begun (o.sent + 1) ≤ o.pc + 4 ∧
      (match s.opFlow o with
       | some k => !s.flowBusy o k && !s.orderedBefore o k && (match packetSource o with
         | some (a, n) => fine (readRange (s.unplan (2 ^ 61)) ((s.unplan (2 ^ 61)).opAgent o) a n) | none => true)
       | none => false) = true := by decide +kernel

theorem witness_FbulkUnit : let s := routed (remote id (.fbulk 0x40000 0x50040 128 route 0))
    let o := theOp s
    let k : FlowKey := { dst := 7, ctx := 3, sctx := 0, tc := 1, dom := 2 }
    let v := (s.unplan (2 ^ 61)).noteRange ((s.unplan (2 ^ 61)).opAgent o) 0x40000 64
    s.opFlow o = some k ∧ packetSource o = some (0x40000, 64) ∧ (v.flowPort (v.outFlow k)).isSome = true ∧ (v.carrier o 64 k).isNone = true := by
  decide +kernel

/-- A PUT to an address that is denied, and a SPUT behind it. -/
theorem witness_RefusedPut : let s := awaiting (.fput 0x50000 0x40000 64 route none)
    let p := { parcel with addr := 0x800000000000 }
    let q := { parcel with kind := 1 }
    let t := s.setInFlow { src := 7, sctx := 3, ctx := 0, tc := 1, dom := 2, expected := 0, ended := [], refused := [0], stalled := none, behind := [] }
    (match writeRange (atGateway s p) (gateAgent 0 17) p.addr p.data with | .error (c, _) => c == .prot | _ => false) = true ∧
      (atGateway t q).refusedBefore q = true ∧ (atGateway s q).refusedBefore q = false ∧ t.heard 17 q = true ∧ (t.inFlow q).stalled = none ∧
      q.seq = (t.inFlow q).expected := by decide +kernel

/-- The answer to an operation of a gang that is saved; answers with an arrival, one of two units, and a result with a signal. -/
theorem witness_Answers : let p := { parcel with kind := 2, resp := true }
    let s := (awaiting (.fget 0x48000 0x50000 8 route 0)).updGang 0 fun g => { g with place := .saved }
    let t := awaiting (.fget 0xFFFFFFFF00000100 0x50000 8 { route with arr := true, scratch := true } 0xFFFFFFFF00000000)
    let u := awaiting (.fget 0x48000 0x50000 300 route 0)
    let r := { parcel with kind := 4, resp := true, addr := 0, aux := 9 * 65536 }
    let v := awaiting (.fred 0x48000 0x40000 8 0 0 0x49000 9)
    (s.xferOp 0 0 = some (theOp s) ∧ s.opAt 0 = some (theOp s) ∧ s.opDefers (theOp s) = true ∧ s.heard 17 p = true) ∧
    (t.opDefers (theOp t) = false ∧ (theOp t).unitAt 0 = 0 ∧ (theOp t).units = 1 ∧ okay ((atGateway t p).endKey (theOp t) ⟨1, 0xFFFFFFFF00000100⟩) 0 = true ∧
      (match (atGateway t p).writeEnd (theOp t) ⟨1, 0xFFFFFFFF00000100⟩ 0 0 p.data with
       | .ok w => fine (w.opWindow (theOp t) 0xFFFFFFFF00000000) | _ => false) = true) ∧
    (1 < (theOp u).units ∧ u.opDefers (theOp u) = false) ∧
    v.redOps 0 0 9 = [theOp v] ∧ v.opDefers (theOp v) = false ∧ v.redTurn (theOp v) 0 = true ∧ redPackets 8 = 1 ∧
      (match writeRange (atGateway v r) (v.opAgent (theOp v)) 0x48000 r.data with
       | .ok w => fine ((w.updOp 0 fun o => { o with acked := [0] }).addWord (v.opAgent (theOp v)) 0x49000 8) | _ => false) = true := by decide +kernel

/-- Error responses to a write and to a reduction, of operations that are not cancelled. -/
theorem witness_ErrorResponses : let s := awaiting (.fput 0x50000 0x40000 64 route none)
    let t := awaiting (.fred 0x48000 0x40000 8 0 0 0 9)
    s.xferOp 0 0 = some (theOp s) ∧ s.opDefers (theOp s) = false ∧ (theOp s).cancelling = false ∧ s.heard 17 { parcel with resp := true, op := 0xFF } = true ∧
      t.redOps 0 0 9 = [theOp t] ∧ t.opDefers (theOp t) = false ∧ (theOp t).cancelling = false ∧
      t.heard 17 { parcel with kind := 4, resp := true, op := 0xFF, addr := 0, aux := 9 * 65536 } = true := by decide +kernel

/-- A line that this package holds, with a party whose turn is to come. -/
theorem witness_SnoopedTurn : let p := { parcel with kind := 5, op := 3 }
    let h : HeldLine := { ctx := 0, line := 0x40000, home := 7, die := 0, data := List.replicate 64 3, turn := [{ req := 0, access := none, used := false, late := false }] }
    let s := directed .home none
    let t : State := { s with fab := { s.fab with held := [h] } }
    t.heard 17 p = true ∧ (t.inFlow p).stalled = none ∧ p.seq = (t.inFlow p).expected ∧ h.turn ≠ [] ∧
      t.fab.held.find? (fun h => h.ctx == p.ctx && h.line == p.addr &&& ~~~(63 : DWord)) = some h := by decide +kernel

/-! ### Saving, restoring and stopping -/

/-- The seed gang owns bank 7 of its dome, and its context has a pool. -/
def suspendable : State :=
  ((event id).setBank 0 7 { Bank.reset with owner := some 0, words := [(5, 9)] }).updCtx 0 fun c => { c with splbase := 0x100000, splsize := 36 }

theorem witness_SuspendSaves : (suspendable.ctxAt 0).suspend = false ∧ (suspendable.gangs.map Prod.fst).Pairwise (· < ·) ∧ suspendable.onCores 0 = [0] ∧
    suspendable.onCoreBatch 0 = [0] ∧ suspendable.canSave 0 = true ∧ (suspendable.gangAt 0).liveMask ≠ 0 ∧ (suspendable.gangAt 0).swins = [] ∧
    (∀ l, l < 32 → ((suspendable.gangAt 0).lane l).wins = [] ∧ ((suspendable.gangAt 0).lane l).restartable = false) ∧
    (suspendable.bankAt 0 7).owner = some 0 := by decide

/-- A saved gang that sleeps, or waits at a superstep that its group has passed. -/
theorem witness_RestoreTestsWaits : let s := (waiting .saved).updGang 1 fun g => g.updLane 3 fun x => { x with wait := .sleep 9 3 24 }
    let t := ((waiting .saved).updGang 1 fun g =>
      { g.updLane 3 (fun x => { x with wait := .sstep 5 24 }) with members := [{ group := 5, live := true, step := 0 }] }).updLaunch 0 fun l =>
        { l with groups := [{ index := 5, coresident := false, fixed := false, step := 1 }] }
    ((s.gangAt 1).lane 3).wait = .sleep 9 3 24 ∧ ((s.gangAt 1).lane 3).live = true ∧ (s.gangAt 1).wake = false ∧ (s.launchOf 1).die = 0 ∧
      t.waitingList 0 = [1] ∧ (t.gangAt 1).inGroup 5 = true ∧ (t.gangAt 1).stepOf 5 < 1 ∧ ((t.gangAt 1).lane 3).wait = .sstep 5 24 := by decide

/-- A gang in wrap-up at the head of its list, and no victim, or one. -/
theorem witness_PrewaitVictims : let s := crowded.updGang 1 fun g => { g with wrap := true }
    (s.gangAt 1).wrapping = true ∧ s.waitingList 0 = [1] ∧ s.victims (coresFrom 0 []) 1 = [0] ∧ (s.gangAt 0).wrapping = false ∧
      (crowded.updGang 0 fun g => { g with wrap := true }).victims (coresFrom 0 []) 1 = [] := by decide

/-- BKICK of a request in the window of a gang that is not placed. -/
theorem witness_BkickAbsent : let s := paired .unplaced
    resolveScratch s s.issue.gang ((s.issue.src.pair 4).extractLsb' 32 32) = .absent ∧ ((s.issue.src.pair 4 &&& ~~~(0xFFFF : DWord)) ||| 0xFC0).toNat % 2 ^ 32 % 16 = 0 ∧
      0xFC0 + 64 ≤ s.cur.scratchSize := by decide

/-- Corners of R88: a product of numbers, a zero sum rounded down, infinities of both signs; encodings of a NaN and of an infinity. -/
theorem witness_ArithmeticIsExact : mulExact (.fin false 3 0) (.fin true 5 1) = .fin true 15 1 ∧ zeroInf (.fin true 0 0) (.inf false) = true ∧
    (sumExact 4 [.fin false 1 0, .fin true 1 0]).1 = .fin true 0 0 ∧ (sumExact 1 [.inf true, .inf false]) = (.nan false, flagInvalid) ∧
    (1 : Nat) ≠ 0 ∧ (-149 : Int) ≤ fp32.minExp ∧ fp32.value 0x7FC00000 = .nan false ∧ fp32.value 0xFF800000 = .inf true ∧ (0x7F : Byte) ≠ 0xFF := by decide

/-- An operation that a kill finds between the row groups of a K-step goes on to its point. -/
theorem witness_KillMidUnit : (theOp (multiplying fun o => { o with group := 1 })).stands = false ∧ (theOp (multiplying id)).stands = true := by
  decide +kernel

/-! ### Steps, words, memory -/

/-- The package with three words in the packet that its next step fetches. -/
def fetching (ws : List Word) : State := { State.reset.bootProgram ws with agenda := [.gang 0] }

/-- The instruction `smovi s20, 0x40` alone, as StepRunsDecodedInstruction asks. -/
theorem witness_StepRunsDecodedInstruction : let s := fetching [0x08050040, padWord, padWord]
    let b : State := { s with agenda := [] }
    let i : Instr := .smovi 20 0x40
    let n : Insn := { first := 0, main := 0, next := 1, pfx := none, instr := i, word := 0x08050040, literal := none, chain := false }
    let here := (b.openChain 0 0 0xFFFFFFFF 0).setInsn n false
    let ready := ((b.openChain 0 0 0xFFFFFFFF 12).setInsn n false).closeBefore Pfx.none i
    s.agenda = [.gang 0] ∧ fetches b 0 0 0xFFFFFFFF [0x08050040, padWord, padWord] ∧ decodeWord 0x08050040 = .instr i ∧ wellFormed i = true ∧
      lowestCase (wordFields Pfx.none 0x08050040 i) = none ∧ takesLiteral Pfx.none i = false ∧ chainBit 0x08050040 = false ∧
      here.dynCase n = none ∧ here.leadsNowhere i = false ∧ ready.2.flags &&& ready.1.cur.fptrap = 0 ∧
      holdsAfter (exec i ready.1) (fun t => t.issue.hold == 0 && (t.readsFrom (b.openChain 0 0 0xFFFFFFFF 12).issue.src).lateTrap.isNone) = true := by
  refine ⟨by decide, ⟨by decide, by decide, by decide, ok_of (by decide), by decide⟩, by decide, by decide, by decide, by decide, by decide,
    by decide, by decide, by decide, by decide⟩

/-- The gang's turn, the cycle of its core on the agenda, and the cycle that comes by itself. -/
theorem witness_Picks : let s := fetching [0x08050040, padWord, padWord]
    let b : State := { s with agenda := [] }
    picks s b 0 ∧ picks { s with agenda := [.cycle 0 [lampKey 0]] } b 0 ∧ picks b b 0 := by
  refine ⟨.inl ⟨[], rfl, rfl⟩, .inr ⟨[lampKey 0], [], by decide, by simp, .inl ⟨[], rfl, rfl⟩⟩,
    .inr ⟨[lampKey 0], [], by decide, by simp, .inr ⟨rfl, rfl, by decide, by decide⟩⟩⟩

/-- A prefix before `vadd v9, v9, 100, v0`. -/
theorem witness_ChainWithPrefix : let ws : List Word := [0x68000000, 0x200489C8, padWord]
    let b : State := { fetching ws with agenda := [] }
    let probe := fun n => (b.openChain 0 0 0xFFFFFFFF 0).setInsn n false
    fetches b 0 0 0xFFFFFFFF ws ∧
      (match parseChain (fun n => (probe n).dynCase n) ws 3 0 [] with
       | .ok [n] => n.pfx == some (pfxOf 0x68000000) && !(probe n).leadsNowhere n.instr
       | _ => false) = true ∧
      (match parseChain (fun n => (probe n).dynCase n) ws 3 0 [] with
       | .ok ns => holdsAfter ((b.openChain 0 0 0xFFFFFFFF 12).runInsns ws ns) (fun t => t.issue.hold == 0 && t.lateTrap.isNone &&
           match (b.openChain 0 0 0xFFFFFFFF 12).endChain t ws ns with | .ok v => v.issue.hold == 0 | _ => false)
       | _ => false) = true :=
  ⟨⟨by decide, by decide, by decide, ok_of (by decide), by decide⟩, by decide, by decide⟩

/-- Two gangs of one core, the second one starved. -/
def pairWaiting (n : Nat) : State :=
  let s := fetching [0x08050040, padWord, padWord]
  s.setGang 1 { s.gangAt 0 with num := 1, waited := n, born := 1 }

theorem witness_StarvedFirst : (pairWaiting 64).issueOrder = [1, 0] ∧ ((pairWaiting 64).gangAt 1).waited = 64 ∧
    ((pairWaiting 64).gangAt 0).waited = 0 := by decide

set_option maxRecDepth 20000 in
/-- The gang that issues starts its count again, and the other one's rises (R364). -/
theorem test_wait_count : holdsAfter (step { (pairWaiting 3).updGang 0 (fun g => { g with waited := 5 }) with agenda := [.cycle 0 [lampKey 0]] })
    (fun t => (t.gangAt 0).waited == 0 && (t.gangAt 1).waited == 4) = true := by decide

/-- An event is the next move. -/
theorem witness_EventMove : isEvent (.queueActivate 0) = true ∧ holdsAfter (exec (.queueActivate 0) State.reset) (fun _ => true) = true := by decide

theorem witness_EncodeThenDecode : wellFormed (.vcmpltu 95 112 101 1) = true ∧ isEvent (.vcmpltu 95 112 101 1) = false := by decide

theorem witness_DecodeThenEncode : decodeWord 0x88028040 = .instr (.smovi 10 0x40) ∧ (Instr.smovi 10 0x40) ∉ [.pfx, .vpref, .region, .fence] := by
  decide

/-- Memory is in its form at reset and with a program in it; the step goes on. -/
theorem witness_StepKeepsMemoryForm : MemoryKept (fetching [0x08050040, padWord, padWord]) ∧ MemoryKept State.reset ∧
    holdsAfter (step (fetching [0x08050040, padWord, padWord])) (fun _ => true) = true := by
  unfold MemoryKept; decide

/-! ### Single steps -/

/-- `smovi s20, 0x40` (file 09): the register, and the lanes past the packet. -/
theorem test_step_smovi : holdsAfter (step (State.reset.withFetchWord 32 0x08050040)) (fun t =>
    (t.gangAt 0).sreg 20 == 0x40 && ((t.gangAt 0).lane 31).pc == 4) = true := by decide +kernel

/-- R11, R13: the second instruction of a chain reads what stood before it: `smovi s1, 7` chained to `vadd v9, v9, s1`. -/
theorem test_step_chain : let c := fun i k => (encode k i).getD 0
    holdsAfter (step (fetching [c (.smovi 1 7) true, c (.vadd 9 9 65 0) false, padWord])) (fun t =>
      (t.gangAt 0).sreg 1 == 7 && ((t.gangAt 0).lane 31).vreg 9 == 0 && ((t.gangAt 0).lane 31).pc == 12) = true := by decide +kernel

/-- A reserved class ends the launch as FAULTED (R31, R33). -/
theorem test_step_illegal : holdsAfter (step (fetching [0x70000000, padWord, padWord])) (fun t => (t.launchAt 0).faulted) = true := by decide +kernel

/-- R208: with two lane groups ready, the one at the lowest offset issues. -/
theorem test_step_lowest : let s := (fetching [0x08050040, 0x08060041, padWord]).updGang 0 fun g => g.updLanes 0xFF fun _ x => { x with pc := 4 }
    holdsAfter (step s) (fun t => (t.gangAt 0).sreg 20 == 0x40 && (t.gangAt 0).sreg 24 == 0 && ((t.gangAt 0).lane 0).pc == 4) = true := by decide +kernel

/-- Addition wraps modulo 2^32 (R85). -/
theorem test_add_wraps : let s := change (fun g => g.setS 0 0xFFFFFFFF) (chain 1)
    after 1 (exec (.sadd 1 0 97) s) (fun t => t.cur.sreg 1) = 0 := by decide

/-- The example of file 02: bits 15:8 of 0x12345678. -/
theorem test_sbfe : let s := change (fun g => g.setS 11 0x12345678) (chain 1)
    after 0 (exec (.sbfe 10 11 127) { s with issue := { s.issue with literal := 0x108 } }) (fun t => t.cur.sreg 10) = 0x56 := by decide

/-- The example of R227: 464 rounds to 448 in E4M3, and the next value up to NaN, or to 448 with .sat. -/
theorem test_e4m3 : convert fp32 e4m3 (modeOf 0 1) false 0x43E80000 = (0x7E, 16) ∧ (convert fp32 e4m3 (modeOf 0 1) false 0x43E80001).1 = 0x7F ∧
    (convert fp32 e4m3 (modeOf 0 1) true 0x43E80001).1 = 0x7E := by decide

/-- The example of R310: port 3 without lanes 5, 9 and 14. -/
theorem test_stripe : (stripe 0xBDDF).length = 13 ∧
    [0, 5, 12, 13, 71, 72].map (laneOfByte 0xBDDF) = [0, 6, 15, 0, 7, 8] := by decide

/-- R62, R64: a set that JSETM staged with every member waiting stays as it is when its members enter it again. -/
theorem test_jenter_staged : let s := change (fun g => g.setJ 3 { g.jset 3 with waiting := 0xFFFFFFFF }) joined
    after 0 (exec (.jenter 3) s) (fun t => (t.cur.jset 3).waiting) = 0xFFFFFFFF := by decide

/-- R11, R14: behind BAND in its chain SSYSR still reads the band that stood before the chain. -/
theorem test_ssysr_in_chain : let c := fun i k => (encode k i).getD 0
    holdsAfter (step (fetching [c (.band 4) true, c (.ssysr 20 0x010) false, padWord])) (fun t =>
      (t.gangAt 0).sreg 20 == 32 && (t.gangAt 0).band == 16) = true := by decide +kernel
end Sys2Proof.Tests
end

section
/-!
PROOFS. Scalar results: what each value that the 32-bit scalar instructions compute is, and that the words of those that read one source
have b = 0.
-/

namespace Sys2Proof.Machine

open Sys2Proof.Says

/-! ### A destination that holds the value of a row -/

/-- An instruction that runs as a class 0 operation of two sources, where the value of its row has another name. -/
theorem scalarTo_of_scalar2 {s : State} {d a b : BitVec 7} {i : Instr} (f : Word → Word → Word) {v : Word}
    (hi : exec i s = s.scalar2 d a b f) (hv : f (s.scalar a) (s.scalar b) = v) : scalarTo s d.toNat v (exec i s) := by
  rw [hi, ← hv]
  exact scalarTo_writeS s d.toNat _

/-- The same for a class 0 operation of one source. -/
theorem scalarTo_of_scalar1 {s : State} {d a : BitVec 7} {i : Instr} (f : Word → Word) {v : Word}
    (hi : exec i s = s.scalar1 d a f) (hv : f (s.scalar a) = v) : scalarTo s d.toNat v (exec i s) := by
  rw [hi, ← hv]
  exact scalarTo_writeS s d.toNat _

/-! ### Arithmetic, shifts and comparisons (R46) -/

theorem toNat_and_31 (x : Word) : (x &&& 31).toNat = x.toNat % 32 := by
  rw [BitVec.toNat_and]
  exact Nat.and_two_pow_sub_one_eq_mod x.toNat 5

theorem minS_eq_ofInt {w : Nat} (x y : BitVec w) : minS x y = BitVec.ofInt w (min x.toInt y.toInt) := by
  unfold minS
  split
  case isTrue h => rw [Int.min_eq_left (Int.le_of_lt (BitVec.slt_iff_toInt_lt.mp h)), BitVec.ofInt_toInt]
  case isFalse h => rw [Int.min_eq_right (Int.not_lt.mp fun h' => h (BitVec.slt_iff_toInt_lt.mpr h')), BitVec.ofInt_toInt]

theorem maxS_eq_ofInt {w : Nat} (x y : BitVec w) : maxS x y = BitVec.ofInt w (max x.toInt y.toInt) := by
  unfold maxS
  split
  case isTrue h => rw [Int.max_eq_right (Int.le_of_lt (BitVec.slt_iff_toInt_lt.mp h)), BitVec.ofInt_toInt]
  case isFalse h => rw [Int.max_eq_left (Int.not_lt.mp fun h' => h (BitVec.slt_iff_toInt_lt.mpr h')), BitVec.ofInt_toInt]

theorem minU_eq_ofNat {w : Nat} (x y : BitVec w) : minU x y = BitVec.ofNat w (min x.toNat y.toNat) := by
  unfold minU
  split
  case isTrue h => rw [Nat.min_eq_left (Nat.le_of_lt (BitVec.ult_iff_lt.mp h)), BitVec.ofNat_toNat, BitVec.setWidth_eq]
  case isFalse h => rw [Nat.min_eq_right (Nat.not_lt.mp fun h' => h (BitVec.ult_iff_lt.mpr h')), BitVec.ofNat_toNat, BitVec.setWidth_eq]

theorem maxU_eq_ofNat {w : Nat} (x y : BitVec w) : maxU x y = BitVec.ofNat w (max x.toNat y.toNat) := by
  unfold maxU
  split
  case isTrue h => rw [Nat.max_eq_right (Nat.le_of_lt (BitVec.ult_iff_lt.mp h)), BitVec.ofNat_toNat, BitVec.setWidth_eq]
  case isFalse h => rw [Nat.max_eq_left (Nat.not_lt.mp fun h' => h (BitVec.ult_iff_lt.mpr h')), BitVec.ofNat_toNat, BitVec.setWidth_eq]

/-- The word of a test is 1 exactly where what it tests holds. -/
theorem boolWord_eq_ite {b : Bool} {p : Prop} [Decidable p] (h : b = true ↔ p) : boolWord b = if p then 1 else 0 := by
  unfold boolWord
  simp only [h]

/-! ### Counting, reversing and cutting bits (R46) -/

/-- The count of leading zero bits brackets the value between two powers of two. -/
theorem clz_spec {w : Nat} (x : BitVec w) :
    clz x ≤ w ∧ x.toNat < 2 ^ (w - clz x) ∧ (clz x < w → 2 ^ (w - 1 - clz x) ≤ x.toNat) := by
  unfold clz
  cases hf : (List.range w).find? fun i => x.getLsbD (w - 1 - i) with
  | none =>
    have hzero : x = 0#w := BitVec.eq_of_getLsbD_eq fun i hi => by
      have h := List.find?_eq_none.mp hf (w - 1 - i) (List.mem_range.mpr (by omega))
      rw [show w - 1 - (w - 1 - i) = i by omega] at h
      simpa using h
    simp [hzero]
  | some n =>
    obtain ⟨hbit, hn, hbelow⟩ := List.find?_range_eq_some.mp hf
    rw [List.mem_range] at hn
    refine ⟨Nat.le_of_lt hn, Nat.lt_pow_two_of_testBit _ fun i hi => ?_, fun _ => Nat.ge_two_pow_of_testBit hbit⟩
    by_cases hw : i < w
    · have h := hbelow (w - 1 - i) (by simp only [Option.getD_some] at hi; omega)
      rw [show w - 1 - (w - 1 - i) = i by omega] at h
      exact (Bool.not_eq_true' _).mp h
    · exact BitVec.getLsbD_of_ge x i (Nat.not_lt.mp hw)

/-- A number built from bits, the first the most significant, holds them in reverse order. -/
theorem testBit_foldl_bits (b : Nat → Bool) (n j : Nat) :
    ((List.range n).foldl (fun m i => 2 * m + (b i).toNat) 0).testBit j = (decide (j < n) && b (n - 1 - j)) := by
  induction n generalizing j with
  | zero => simp
  | succ n ih =>
    rw [List.range_succ, List.foldl_append, List.foldl_cons, List.foldl_nil]
    cases j with
    | zero => cases h : b n <;> simp [h]
    | succ j =>
      rw [Nat.testBit_succ, show ∀ m, (2 * m + (b n).toNat) / 2 = m by intro m; have := Bool.toNat_lt (b n); omega, ih]
      simp only [Nat.add_lt_add_iff_right, show n + 1 - 1 - (j + 1) = n - 1 - j by omega]

theorem getLsbD_bitReverse (x : Word) (i : Nat) (hi : i < 32) : (bitReverse x).getLsbD i = x.getLsbD (31 - i) := by
  rw [bitReverse, BitVec.getLsbD_ofNat, testBit_foldl_bits]
  simp [hi]

theorem getLsbD_bitField (x y : Word) (i : Nat) (hi : i < 32) :
    (bitField x y).getLsbD i = (decide (i < y.toNat / 32 % 64) && x.getLsbD (y.toNat % 32 + i)) := by
  have hwidth : i < min 32 (y.toNat / 32 % 64) ↔ i < y.toNat / 32 % 64 := by omega
  rw [bitField, BitVec.getLsbD_ofNat, Nat.testBit_mod_two_pow, Nat.testBit_div_two_pow, Nat.add_comm i]
  simp only [hi, hwidth, decide_true, Bool.true_and, BitVec.getLsbD]

/-! ### The words of instructions that read one source (R46) -/

/-- The 32-bit scalar instructions that read only A. -/
def readsOnlyA : Instr → Bool
  | .smov _ _ | .sclz _ _ | .spop _ _ | .sbrev _ _ => true
  | _ => false

/-- A word decodes to one of them. -/
def givesReadsOnlyA : Decoded → Bool
  | .instr i => readsOnlyA i
  | .reject _ => false

@[simp] theorem givesReadsOnlyA_instr (i : Instr) : givesReadsOnlyA (.instr i) = readsOnlyA i := rfl

@[simp] theorem givesReadsOnlyA_reject (r : Reject) : givesReadsOnlyA (.reject r) = false := rfl

@[simp] theorem givesReadsOnlyA_ifFixed (ok : Bool) (i : Instr) : givesReadsOnlyA (ifFixed ok i) = (ok && readsOnlyA i) := by
  cases ok <;> rfl

/-- A word of class 0 that decodes to such an instruction has b = 0. -/
theorem decodeClass0_readsOnlyA {w : Word} (h : givesReadsOnlyA (decodeClass0 w) = true) : cut w 0 7 = 0 := by
  unfold decodeClass0 at h
  split at h <;> simp [readsOnlyA] at h <;> exact h

/-- No other class holds such an instruction. -/
theorem decodeWord_readsOnlyA {w : Word} (h : givesReadsOnlyA (decodeWord w) = true) : givesReadsOnlyA (decodeClass0 w) = true := by
  unfold decodeWord at h
  split at h
  case h_1 => exact h
  case h_14 => simp [decodeClass13, readsOnlyA] at h
  case h_15 => simp at h
  all_goals
    simp only [decodeClass1, decodeClass2, decodeClass3, decodeClass4, decodeClass5, decodeClass6, decodeClass7, decodeClass8,
      decodeClass9, decodeClass10, decodeClass11, decodeClass12] at h
    split at h <;> simp [readsOnlyA] at h


/-- A word that decodes to such an instruction has 0 in its bits 6:0. -/
theorem low_bits_of_readsOnlyA {w : Word} {i : Instr} (hi : readsOnlyA i = true) (hw : decodeWord w = .instr i) :
    w.toNat % 128 = 0 := by
  have hb : cut w 0 7 = 0 := decodeClass0_readsOnlyA (decodeWord_readsOnlyA (by rw [hw]; exact hi))
  simpa [cut] using congrArg BitVec.toNat hb

/-! ### The rows of R46 -/

/-- Settles O1: each row is a class 0 operation whose value is the one that the row names. -/
theorem scalarResults : Obligations.ScalarResults := by
  unfold Obligations.ScalarResults
  refine ⟨fun s d a b => ?_, fun s d a b => ?_⟩
  · intro A B gives
    refine ⟨?_, ?_, ?_, ?_, ?_, ?_, ?_, ?_, ?_, ?_, ?_, ?_, ?_, ?_, ?_, ?_, ?_, ?_, ?_, ?_⟩
    · exact scalarTo_of_scalar2 (fun x y => x + y) rfl rfl
    · exact scalarTo_of_scalar2 (fun x y => x - y) rfl rfl
    · exact scalarTo_of_scalar2 (fun x y => x * y) rfl rfl
    · exact scalarTo_of_scalar2 mulHighU rfl rfl
    · exact scalarTo_of_scalar2 mulHighS rfl rfl
    · exact scalarTo_of_scalar2 (fun x y => x &&& y) rfl rfl
    · exact scalarTo_of_scalar2 (fun x y => x ||| y) rfl rfl
    · exact scalarTo_of_scalar2 (fun x y => x ^^^ y) rfl rfl
    · exact scalarTo_of_scalar2 (fun x y => x &&& ~~~y) rfl rfl
    · exact scalarTo_of_scalar2 (fun x y => x <<< (y.toNat % 32)) rfl (by rw [toNat_and_31])
    · exact scalarTo_of_scalar2 (fun x y => x >>> (y.toNat % 32)) rfl (by rw [toNat_and_31])
    · exact scalarTo_of_scalar2 (fun x y => x.sshiftRight (y.toNat % 32)) rfl (by rw [toNat_and_31])
    · exact scalarTo_of_scalar2 minS rfl (minS_eq_ofInt A B)
    · exact scalarTo_of_scalar2 maxS rfl (maxS_eq_ofInt A B)
    · exact scalarTo_of_scalar2 minU rfl (minU_eq_ofNat A B)
    · exact scalarTo_of_scalar2 maxU rfl (maxU_eq_ofNat A B)
    · exact scalarTo_of_scalar2 (fun x y => boolWord (x == y)) rfl (boolWord_eq_ite beq_iff_eq)
    · exact scalarTo_of_scalar2 (fun x y => boolWord (x.slt y)) rfl (boolWord_eq_ite BitVec.slt_iff_toInt_lt)
    · exact scalarTo_of_scalar2 (fun x y => boolWord (x.ult y)) rfl (boolWord_eq_ite BitVec.ult_iff_lt)
    · exact scalarTo_of_scalar1 (fun x => x) rfl rfl
  · intro A B
    obtain ⟨hle, hlt, hge⟩ := clz_spec A
    refine ⟨⟨clz A, hle, hlt, hge, ?_⟩, ?_, ⟨bitReverse A, getLsbD_bitReverse A, ?_⟩, ⟨bitField A B, getLsbD_bitField A B, ?_⟩, ?_⟩
    · exact scalarTo_of_scalar1 (fun x => BitVec.ofNat 32 (clz x)) rfl rfl
    · exact scalarTo_of_scalar1 (fun x => BitVec.ofNat 32 (popCount x)) rfl (by rw [popCount, List.countP_eq_length_filter])
    · exact scalarTo_of_scalar1 bitReverse rfl rfl
    · exact scalarTo_of_scalar2 bitField rfl rfl
    · intro w i hi hw
      refine low_bits_of_readsOnlyA ?_ hw
      simp only [List.mem_cons, List.not_mem_nil, or_false] at hi
      obtain rfl | rfl | rfl | rfl := hi <;> rfl

end Sys2Proof.Machine
end

section
/-!
PROOFS. Rejoin sets: what the operations on a set and on the lanes that wait in it do, in the words of the statements, and the
instructions of R61 to R64 that are made of them.
-/

namespace Sys2Proof.Machine

open Sys2Proof.Says

/-! ### Lanes and sets of a gang -/

theorem jset_setJ (g : Gang) (k i : Nat) (x : JSet) : (g.setJ k x).jset i = if i = k then x else g.jset i := Table.get_put ..

@[simp] theorem lane_setJ (g : Gang) (k l : Nat) (x : JSet) : (g.setJ k x).lane l = g.lane l := rfl

/-- Writing back what a set holds changes no set. -/
theorem jset_setJ_self (g : Gang) (k i : Nat) : (g.setJ k (g.jset k)).jset i = g.jset i := by
  rw [jset_setJ]; split <;> simp_all

theorem foldl_updLane (f : Nat → Lane → Lane) (ls : List Nat) (hn : ls.Nodup) (g : Gang) :
    ls.foldl (fun g l => g.updLane l (f l)) g = { g with lanes := (ls.foldl (fun g l => g.updLane l (f l)) g).lanes } ∧
      ∀ l, (ls.foldl (fun g l => g.updLane l (f l)) g).lane l = if l ∈ ls then f l (g.lane l) else g.lane l := by
  induction ls generalizing g with
  | nil => exact ⟨rfl, fun l => by simp⟩
  | cons a ls ih =>
    obtain ⟨ha, hn⟩ := List.nodup_cons.mp hn
    obtain ⟨hrest, hlane⟩ := ih hn (g.updLane a (f a))
    refine ⟨hrest, fun l => ?_⟩
    rw [List.foldl_cons, hlane l, lane_updLane]
    by_cases hl : l = a
    · subst hl; simp [ha]
    · simp [hl]

/-- A change of some lanes is one of the lane table only. -/
theorem updLanes_rest (g : Gang) (m : LaneMask) (f : Nat → Lane → Lane) :
    g.updLanes m f = { g with lanes := (g.updLanes m f).lanes } := (foldl_updLane f _ (lanesOf_nodup m) g).1

/-- Each lane of the mask changes, and no other. -/
theorem lane_updLanes (g : Gang) (m : LaneMask) (f : Nat → Lane → Lane) (l : Nat) :
    (g.updLanes m f).lane l = if m.getLsbD l then f l (g.lane l) else g.lane l := by
  have hmem : l ∈ lanesOf m ↔ m.getLsbD l = true := (mem_lanesOf m l).trans (and_iff_right_of_imp BitVec.lt_of_getLsbD)
  rw [Gang.updLanes, (foldl_updLane f _ (lanesOf_nodup m) g).2 l]
  simp only [hmem]

@[simp] theorem jset_updLanes (g : Gang) (m : LaneMask) (f : Nat → Lane → Lane) (k : Nat) : (g.updLanes m f).jset k = g.jset k := by
  rw [updLanes_rest]; rfl

/-- The live mask depends on the live bits of the lanes only. -/
theorem liveMask_congr {g h : Gang} (hl : ∀ l, (h.lane l).live = (g.lane l).live) : h.liveMask = g.liveMask := by
  simp only [Gang.liveMask, Gang.lanesWhere, hl]

/-! ### Changes of one set and of lanes -/

/-- A gang changes in set k and in its lanes only. -/
def changesSet (k : Nat) (g h : Gang) : Prop :=
  (∀ i, i ≠ k → h.jset i = g.jset i) ∧ h = { g with lanes := h.lanes, sets := h.sets }

theorem changesSet_refl (k : Nat) (g : Gang) : changesSet k g g := ⟨fun _ _ => rfl, rfl⟩

theorem changesSet_trans {k : Nat} {g h m : Gang} (h1 : changesSet k g h) (h2 : changesSet k h m) : changesSet k g m := by
  obtain ⟨hsets, hrest⟩ := h1
  obtain ⟨hsets', hrest'⟩ := h2
  refine ⟨fun i hi => (hsets' i hi).trans (hsets i hi), ?_⟩
  rw [hrest', hrest]

theorem changesSet_setJ (k : Nat) (g : Gang) (x : JSet) : changesSet k g (g.setJ k x) :=
  ⟨fun i hi => by rw [jset_setJ, if_neg hi], rfl⟩

theorem changesSet_updLanes (k : Nat) (g : Gang) (m : LaneMask) (f : Nat → Lane → Lane) : changesSet k g (g.updLanes m f) :=
  ⟨fun i _ => jset_updLanes g m f i, by rw [updLanes_rest]⟩

/-- Such a change of the chain's gang changes nothing else. -/
theorem setOnly_updCur {k : Nat} {s : State} {f : Gang → Gang} (h : changesSet k s.cur (f s.cur)) : setOnly k s (s.updCur f) := by
  obtain ⟨hsets, hrest⟩ := h
  rw [setOnly, cur_updCur]
  exact ⟨hsets, hrest, onlyGang_updCur s f⟩

/-! ### The release of a set (R57) -/

/-- The waiters of a set as w has them go on where each was to go, and no other lane changes. -/
def goesOnFrom (w : LaneMask) (k : Nat) (before after : Nat → Lane) : Prop :=
  (∀ l, l < 32 → ∀ r, w.getLsbD l = true → (before l).wait = .jwait k r → after l = { before l with wait := .ready, pc := r }) ∧
    ∀ l, ¬ (l < 32 ∧ w.getLsbD l = true ∧ ∃ r, (before l).wait = .jwait k r) → after l = before l

theorem changesSet_releaseSet (g : Gang) (k : Nat) : changesSet k g (g.releaseSet k) :=
  changesSet_trans (changesSet_updLanes k g _ _) (changesSet_setJ k _ _)

theorem jset_releaseSet (g : Gang) (k : Nat) : (g.releaseSet k).jset k = { g.jset k with waiting := 0 } := by
  rw [Gang.releaseSet, jset_setJ, if_pos rfl, jset_updLanes]

theorem goesOnFrom_releaseSet (g : Gang) (k : Nat) : goesOnFrom (g.jset k).waiting k g.lane (g.releaseSet k).lane := by
  constructor
  · intro l _ r hw hr
    simp [Gang.releaseSet, lane_updLanes, hw, hr]
  · intro l hl
    rw [Gang.releaseSet, lane_setJ, lane_updLanes]
    split
    case isFalse => rfl
    case isTrue hw =>
      split
      next i r hr =>
        refine if_neg fun hi => hl ⟨BitVec.lt_of_getLsbD hw, hw, r, ?_⟩
        rw [hr, hi]
      next => rfl

@[simp] theorem depth_releaseSet (g : Gang) (k l : Nat) : ((g.releaseSet k).lane l).depth = (g.lane l).depth := by
  rw [Gang.releaseSet, lane_setJ, lane_updLanes]
  split
  · split
    · split <;> rfl
    · rfl
  · rfl

/-! ### The completion procedure of a set (R57) -/

theorem changesSet_complete (g : Gang) (k : Nat) : changesSet k g (g.complete k) := by
  unfold Gang.complete
  simp only
  split
  · exact changesSet_releaseSet g k
  · exact changesSet_refl k g

/-- The procedure does what the statements call completion. -/
theorem completed_complete (g : Gang) (k : Nat) : completed g.lane g.liveMask k (g.jset k) (g.complete k) := by
  unfold completed Gang.complete
  simp only [Bool.and_eq_true, bne_iff_ne, beq_iff_eq]
  split
  · exact ⟨jset_releaseSet g k, goesOnFrom_releaseSet g k⟩
  · exact ⟨rfl, fun _ => rfl⟩

/-- The same of a set that an operation leaves as x. -/
theorem completed_complete_setJ (g : Gang) (k : Nat) (x : JSet) : completed g.lane g.liveMask k x ((g.setJ k x).complete k) := by
  have h := completed_complete (g.setJ k x) k
  rwa [jset_setJ, if_pos rfl] at h

/-- A set in which no lane waits is never complete. -/
theorem complete_of_waiting_zero {g : Gang} {k : Nat} (h : (g.jset k).waiting = 0) : g.complete k = g := by
  unfold Gang.complete
  refine if_neg ?_
  simp only [h, Bool.and_eq_true, bne_iff_ne, beq_iff_eq]
  exact fun ⟨hne, heq⟩ => hne (heq.symm.trans BitVec.zero_and)

/-- A fold of steps of which only the one at k can change anything. -/
theorem foldl_of_single {α : Type} (F : α → Nat → α) (k : Nat) (ls : List Nat) (hn : ls.Nodup) (h : ∀ a i, i ≠ k → F a i = a) (a : α) :
    ls.foldl F a = if k ∈ ls then F a k else a := by
  induction ls generalizing a with
  | nil => rfl
  | cons b ls ih =>
    obtain ⟨hb, hn⟩ := List.nodup_cons.mp hn
    rw [List.foldl_cons, ih hn]
    by_cases hk : b = k
    · subst hk; simp [hb]
    · simp [h a b hk, Ne.symm hk]

/-- After an operation on set k the procedure runs on that set, where its member mask has changed. -/
theorem completeChanged_setJ (g : Gang) (k : Nat) (hk : k < 16) (x : JSet) :
    g.completeChanged (g.setJ k x) = if (g.jset k).member = x.member then g.setJ k x else (g.setJ k x).complete k := by
  have hother : ∀ (h : Gang) (i : Nat), i ≠ k →
      (if (g.jset i).member = ((g.setJ k x).jset i).member then h else h.complete i) = h := by
    intro h i hi
    rw [jset_setJ, if_neg hi, if_pos rfl]
  rw [Gang.completeChanged, foldl_of_single _ k _ List.nodup_range hother, if_pos (List.mem_range.mpr hk), jset_setJ, if_pos rfl]

/-! ### Members (R61, R62) -/

/-- The least of some numbers and a bound is a lower bound and one of them. -/
theorem foldl_min_spec (f : Nat → Nat) (ls : List Nat) (a : Nat) :
    ls.foldl (fun d l => min d (f l)) a ≤ a ∧ (∀ l ∈ ls, ls.foldl (fun d l => min d (f l)) a ≤ f l) ∧
      (ls.foldl (fun d l => min d (f l)) a = a ∨ ∃ l ∈ ls, ls.foldl (fun d l => min d (f l)) a = f l) := by
  induction ls generalizing a with
  | nil => simp
  | cons b ls ih =>
    obtain ⟨hle, hall, hone⟩ := ih (min a (f b))
    simp only [List.foldl_cons, List.mem_cons, forall_eq_or_imp, exists_eq_or_imp]
    refine ⟨by omega, ⟨by omega, hall⟩, ?_⟩
    obtain h | h := hone
    · omega
    · exact .inr (.inr h)

/-- The lowest depth among some lanes is at most 255 and the depth of each, and it is 255 or one of them. -/
theorem lowestDepth_spec (g : Gang) (m : LaneMask) :
    g.lowestDepth m ≤ 255 ∧ (∀ l ∈ lanesOf m, g.lowestDepth m ≤ (g.lane l).depth) ∧
      (g.lowestDepth m = 255 ∨ ∃ l ∈ lanesOf m, g.lowestDepth m = (g.lane l).depth) :=
  foldl_min_spec (fun l => (g.lane l).depth) (lanesOf m) 255

theorem exists_mem_lanesOf {m : LaneMask} (hm : m ≠ 0) : ∃ l, l ∈ lanesOf m := by
  refine Classical.byContradiction fun hnone => hm (BitVec.eq_of_getLsbD_eq fun i hi => ?_)
  have hbit : ¬ m.getLsbD i = true := fun h => hnone ⟨i, (mem_lanesOf m i).mpr ⟨hi, h⟩⟩
  exact (Bool.eq_false_iff.mpr hbit).trans BitVec.getLsbD_zero.symm

/-- Among some lanes there is one whose depth, capped at 255, is the lowest. -/
theorem exists_lowestDepth_eq (g : Gang) {m : LaneMask} (hm : m ≠ 0) : ∃ l ∈ lanesOf m, g.lowestDepth m = min 255 (g.lane l).depth := by
  obtain ⟨hcap, hle, hcapped | ⟨l, hl, heq⟩⟩ := lowestDepth_spec g m
  · obtain ⟨l, hl⟩ := exists_mem_lanesOf hm
    have := hle l hl
    exact ⟨l, hl, by omega⟩
  · exact ⟨l, hl, by omega⟩

theorem lowestDepth_releaseSet (g : Gang) (k : Nat) (m : LaneMask) : (g.releaseSet k).lowestDepth m = g.lowestDepth m := by
  simp only [Gang.lowestDepth, depth_releaseSet]

/-- The member mask of set k becomes m, and the set completes where that is a change. -/
def membersBecome (s : State) (k : Nat) (m : LaneMask) (t : State) : Prop :=
  (m ≠ (s.cur.jset k).member → completed s.cur.lane s.cur.liveMask k { s.cur.jset k with member := m } t.cur) ∧
    (m = (s.cur.jset k).member → t.cur.jset k = s.cur.jset k ∧ ∀ l, t.cur.lane l = s.cur.lane l) ∧ setOnly k s t

/-- All that an operation does which writes the member mask of a set of the chain's gang and completes the sets so changed. -/
theorem membersBecome_of_eq {s : State} {F : Gang → Gang} {k : Nat} (hk : k < 16) {m : LaneMask}
    (h : F s.cur = s.cur.completeChanged (s.cur.setJ k { s.cur.jset k with member := m })) : membersBecome s k m (s.updCur F) := by
  rw [completeChanged_setJ _ _ hk] at h
  unfold membersBecome
  rw [cur_updCur]
  refine ⟨fun hm => ?_, fun hm => ?_, setOnly_updCur ?_⟩
  · rw [h, if_neg (Ne.symm hm)]
    exact completed_complete_setJ s.cur k _
  · rw [h, if_pos hm.symm, hm]
    exact ⟨jset_setJ_self s.cur k k, fun _ => rfl⟩
  · rw [h]
    split
    · exact changesSet_setJ k _ _
    · exact changesSet_trans (changesSet_setJ k _ _) (changesSet_complete _ k)

/-- Where no use of a set is orphaned, the operation on it runs. -/
theorem unlessOrphan_of_owned {s : State} {k : Nat} (h : ownedSet s k) (f : State → State) : s.unlessOrphan k f = .next (f s) := by
  obtain ⟨hfreed, hdepth⟩ := h
  refine if_neg ?_
  simp only [List.any_eq_true, not_exists, not_and, mem_lanesOf, Gang.orphaned, hfreed, Bool.false_or, decide_eq_true_eq, Nat.not_lt]
  exact hdepth

theorem exec_jenter_of_owned {s : State} {j : BitVec 4} (h : ownedSet s j.toNat) :
    exec (.jenter j) s = .next (s.updCur fun g =>
      g.completeChanged (g.setJ j.toNat { g.jset j.toNat with member := (g.jset j.toNat).member ||| s.issue.lanes })) :=
  unlessOrphan_of_owned h fun s => s.updCur fun g =>
    g.completeChanged (g.setJ j.toNat { g.jset j.toNat with member := (g.jset j.toNat).member ||| s.issue.lanes })

theorem exec_jquit_of_freed {s : State} {j : BitVec 4} (h : (s.cur.jset j.toNat).freed = true) : exec (.jquit j) s = .next s := if_pos h

theorem exec_jquit_of_not_freed {s : State} {j : BitVec 4} (h : (s.cur.jset j.toNat).freed = false) :
    exec (.jquit j) s = .next (s.updCur fun g =>
      g.completeChanged (g.setJ j.toNat { g.jset j.toNat with member := (g.jset j.toNat).member &&& ~~~s.issue.lanes })) :=
  if_neg (by rw [h]; exact Bool.false_ne_true)

/-! ### Sets that start anew (R61, R62) -/

/-- Lanes that wait in set k go on, and the set becomes x: what JNEW and JFREE do. -/
def Gang.restart (g : Gang) (k : Nat) (x : JSet) : Gang := (g.releaseSet k).setJ k x

theorem jset_restart (g : Gang) (k : Nat) (x : JSet) : (g.restart k x).jset k = x := by rw [Gang.restart, jset_setJ, if_pos rfl]

/-- All that an operation does which starts a set of the chain's gang anew. -/
theorem restart_effect {s : State} {F : Gang → Gang} {k : Nat} {x : JSet} (h : F s.cur = s.cur.restart k x) :
    (s.updCur F).cur.jset k = x ∧ goesOnFrom (s.cur.jset k).waiting k s.cur.lane (s.updCur F).cur.lane ∧ setOnly k s (s.updCur F) := by
  have hset : changesSet k s.cur (F s.cur) := h ▸ changesSet_trans (changesSet_releaseSet s.cur k) (changesSet_setJ k _ x)
  refine ⟨?_, ?_, setOnly_updCur hset⟩
  · rw [cur_updCur, h, jset_restart]
  · rw [cur_updCur, h]
    exact goesOnFrom_releaseSet s.cur k

/-- The set that JNEW starts: the issuing lanes, at their lowest depth. -/
def Gang.started (g : Gang) (m : LaneMask) : JSet :=
  { member := m, waiting := 0, home := g.lowestDepth m, snuffed := false, freed := false }

theorem exec_jnew (j : BitVec 4) (s : State) :
    ∃ F, exec (.jnew j) s = .next (s.updCur F) ∧ F s.cur = s.cur.restart j.toNat (s.cur.started s.issue.lanes) := by
  refine ⟨_, rfl, ?_⟩
  show (Gang.restart s.cur j.toNat ((s.cur.releaseSet j.toNat).started s.issue.lanes)).complete j.toNat = _
  rw [complete_of_waiting_zero (by rw [jset_restart]; rfl), Gang.started, lowestDepth_releaseSet]
  rfl

/-! ### JWAIT (R57, R62) -/

theorem closeWhere_of_none {x : Lane} (h : x.wins = []) (p : Window → Bool) : x.closeWhere p = x := by
  cases x
  subst h
  rfl

theorem flagsWhere_of_none {g : Gang} (h : ∀ l, (g.lane l).wins = []) (m : LaneMask) (p : Window → Bool) : g.flagsWhere m p = 0 := by
  simp only [Gang.flagsWhere, h, List.filter_nil, List.foldl_nil]
  induction lanesOf m with
  | nil => rfl
  | cons l ls ih => exact ih

/-- What closing windows does to the gang itself: class 9 windows that satisfy a test commit and go, and flags enter FPFLAG. -/
def Gang.commitS (g : Gang) (q : SWindow → Bool) (f : BitVec 5) : Gang :=
  let v := (g.swins.filter q).foldl Gang.applyS g
  { v with swins := v.swins.filter (fun w => !q w), fpflag := v.fpflag ||| f }

theorem closeWhere_eq_commitS (g : Gang) (m : LaneMask) (p : Window → Bool) (q : SWindow → Bool) :
    g.closeWhere m p q = (g.updLanes m fun _ x => x.closeWhere p).commitS q (g.flagsWhere m p) := rfl

theorem commitS_of_none {g : Gang} (h : g.swins = []) (q : SWindow → Bool) : g.commitS q 0 = g := by
  unfold Gang.commitS
  simp only [h, List.filter_nil, List.foldl_nil]
  rw [← h, show g.fpflag ||| 0 = g.fpflag from BitVec.or_zero]

/-- Closing the windows of a gang that has none changes no lane. -/
theorem closeAll_of_none {g : Gang} (hl : ∀ l, (g.lane l).wins = []) (hs : g.swins = []) (m : LaneMask) :
    g.closeAll m = { g with lanes := (g.closeAll m).lanes } ∧ (g.closeAll m).lane = g.lane := by
  have hsw : (g.updLanes m fun _ x => x.closeWhere fun _ => true).swins = [] := by rw [updLanes_rest]; exact hs
  rw [Gang.closeAll, closeWhere_eq_commitS, flagsWhere_of_none hl, commitS_of_none hsw]
  refine ⟨updLanes_rest .., funext fun l => ?_⟩
  rw [lane_updLanes, closeWhere_of_none (hl l), ite_self]

theorem cur_closeHere (s : State) : s.closeHere.cur = s.cur.closeAll s.issue.lanes := cur_updCur s _

/-- A lane that stops at a JWAIT on set k at pc; it goes on where it stood, past the chain. -/
def Lane.stopAt (k pc : Nat) (x : Lane) : Lane := { x with wait := .jwait k x.pc, pc := pc }

/-- Some lanes stop at a JWAIT on set k at pc and the set completes; what JWAIT does once windows are closed. -/
def Gang.stopIn (g : Gang) (k pc : Nat) (stay : LaneMask) : Gang :=
  if stay = 0 then g
  else ((g.updLanes stay fun _ => Lane.stopAt k pc).setJ k
    { g.jset k with waiting := (g.jset k).waiting ||| stay }).complete k

/-- The lanes as they stand when some of them have stopped. -/
def stopped (lane : Nat → Lane) (k pc : Nat) (stay : LaneMask) (l : Nat) : Lane :=
  if stay.getLsbD l then (lane l).stopAt k pc else lane l

theorem changesSet_stopIn (g : Gang) (k pc : Nat) (stay : LaneMask) : changesSet k g (g.stopIn k pc stay) := by
  unfold Gang.stopIn
  split
  · exact changesSet_refl k g
  · exact changesSet_trans (changesSet_trans (changesSet_updLanes k g _ _) (changesSet_setJ k _ _)) (changesSet_complete _ k)

theorem completed_stopIn (g : Gang) (k pc : Nat) {stay : LaneMask} (h : stay ≠ 0) :
    completed (stopped g.lane k pc stay) g.liveMask k { g.jset k with waiting := (g.jset k).waiting ||| stay } (g.stopIn k pc stay) := by
  have hlane : (g.updLanes stay fun _ => Lane.stopAt k pc).lane = stopped g.lane k pc stay := funext (lane_updLanes g stay _)
  have hlive : (g.updLanes stay fun _ => Lane.stopAt k pc).liveMask = g.liveMask :=
    liveMask_congr fun l => by rw [lane_updLanes]; split <;> rfl
  rw [← hlane, ← hlive, Gang.stopIn, if_neg h]
  exact completed_complete_setJ (g.updLanes stay fun _ => Lane.stopAt k pc) k _

/-- The lanes that a JWAIT stops: the issuing members of a set that no snuff has released. -/
def staying (js : JSet) (lanes : LaneMask) : LaneMask := if js.snuffed then 0 else lanes &&& js.member

theorem exec_jwait_of_owned {s : State} {j : BitVec 4} (h : ownedSet s j.toNat) :
    exec (.jwait j) s =
      .next (s.closeHere.updCur fun g => g.stopIn j.toNat s.issue.pc (staying (g.jset j.toNat) s.issue.lanes)) :=
  unlessOrphan_of_owned h fun s => s.closeHere.updCur fun g => g.stopIn j.toNat s.issue.pc (staying (g.jset j.toNat) s.issue.lanes)

/-- With no window to close, the chain's gang stops lanes as it stands. -/
theorem closeHere_effect {s : State} (h : noWindows s) :
    s.closeHere.cur = { s.cur with lanes := s.closeHere.cur.lanes } ∧ s.closeHere.cur.lane = s.cur.lane := by
  obtain ⟨hlanes, hgang⟩ := h
  rw [cur_closeHere]
  exact closeAll_of_none hlanes hgang s.issue.lanes

/-- A change of the chain's gang once its windows are closed changes nothing of other gangs or of memory. -/
theorem onlyGangIssue_closeHere (s : State) (F : Gang → Gang) : onlyGangIssue s (s.closeHere.updCur F) :=
  ⟨rfl, rfl, rfl, fun k hk => (gangAt_updCur s.closeHere F k hk).trans (gangAt_updCur s (·.closeAll s.issue.lanes) k hk), fun _ => rfl⟩

/-- All that JWAIT does where the set is not orphaned and no window is open. -/
theorem jwait_stops {s : State} {j : BitVec 4} (howned : ownedSet s j.toNat) (hclosed : noWindows s) :
    let k := j.toNat
    let js := s.cur.jset k
    let stay := staying js s.issue.lanes
    goes (exec (.jwait j) s) fun t =>
      (stay ≠ 0 → completed (stopped s.cur.lane k s.issue.pc stay) s.cur.liveMask k { js with waiting := js.waiting ||| stay } t.cur) ∧
        (stay = 0 → t.cur.jset k = js ∧ ∀ l, t.cur.lane l = s.cur.lane l) ∧ changesSet k s.cur t.cur ∧ onlyGangIssue s t := by
  intro k js stay
  obtain ⟨hrest, hlane⟩ := closeHere_effect hclosed
  have hsets : ∀ i, s.closeHere.cur.jset i = s.cur.jset i := fun i => by rw [hrest]; rfl
  have hlive : s.closeHere.cur.liveMask = s.cur.liveMask := liveMask_congr fun l => by rw [hlane]
  rw [exec_jwait_of_owned howned]
  refine ⟨_, rfl, ?_, ?_, ?_, onlyGangIssue_closeHere s _⟩ <;> rw [cur_updCur, hsets]
  · intro hstay
    rw [← hlane, ← hlive, show js = s.closeHere.cur.jset k from (hsets k).symm]
    exact completed_stopIn _ _ _ hstay
  · intro hstay
    rw [Gang.stopIn, if_pos hstay]
    exact ⟨hsets k, fun l => by rw [hlane]⟩
  · exact changesSet_trans ⟨fun i _ => hsets i, by rw [hrest]⟩ (changesSet_stopIn _ _ _ _)

/-! ### JSETM and reserved selectors (R63, R64) -/

/-- In the Lamplighter slot JSETM writes one field of the set and nothing else. -/
theorem jsetm_writes {s : State} (hlamp : s.cur.lamp = true) (j : BitVec 4) (x : BitVec 7) (y : BitVec 10) {v : JSet}
    (hv : (s.cur.jset j.toNat).stage y.toNat (s.scalar x) = v) : goes (exec (.jsetm j x y) s) fun t =>
      t.cur.jset j.toNat = v ∧ (∀ i, i ≠ j.toNat → t.cur.jset i = s.cur.jset i) ∧ t.cur = { s.cur with sets := t.cur.sets } ∧
        onlyGang s t := by
  have hexec : exec (.jsetm j x y) s =
      .next (s.updCur fun g => g.setJ j.toNat ((g.jset j.toNat).stage y.toNat (s.scalar x))) := if_neg (by simp [hlamp])
  rw [hexec]
  refine ⟨_, rfl, ?_, ?_, ?_, onlyGang_updCur s _⟩ <;> rw [cur_updCur]
  · rw [jset_setJ, if_pos rfl, hv]
  · intro i hi; rw [jset_setJ, if_neg hi]
  · rfl

theorem isNone_lowestCase {fs : List Field} : (lowestCase fs).isNone = true → ∀ f ∈ fs, f.case = none := by
  induction fs with
  | nil => simp
  | cons f fs ih =>
    unfold lowestCase
    intro h
    split at h <;> simp_all

/-- A broken field makes an instruction ill-formed. -/
theorem not_wellFormed_of_field {i : Instr} {f : Field} (hf : f ∈ fields Pfx.none i) (hcase : f.case ≠ none) : wellFormed i = false := by
  refine Bool.eq_false_iff.mpr fun h => ?_
  rw [wellFormed, wellFormedWith, Bool.and_eq_true] at h
  obtain ⟨hfields, -⟩ := h
  exact hcase (isNone_lowestCase hfields f hf)

/-- A selector above the last one that has a meaning is a broken field. -/
theorem case_code3_of_lt {y n : Nat} (h : n < y) : (Field.code3 (decide (y ≤ n))).case ≠ none := by
  simp [Field.case, h]

/-! ### The rows of R61 to R64 -/

/-- Settles O12: each operation on a set is a restart, a change of members or a stop of lanes, whose effect is said once above. -/
theorem rejoinSetInstructionResults : Obligations.RejoinSetInstructionResults := by
  unfold Obligations.RejoinSetInstructionResults
  refine ⟨fun s j x => ?_, fun s j => ?_, fun s j x hlamp => ?_⟩
  · intro k js I freedLanes
    refine ⟨fun hI => ?_, ?_⟩
    · obtain ⟨F, hexec, hF⟩ := exec_jnew j s
      obtain ⟨hset, hwaiters, honly⟩ := restart_effect hF
      obtain ⟨l, hl, hlow⟩ := exists_lowestDepth_eq s.cur hI
      obtain ⟨-, hle, -⟩ := lowestDepth_spec s.cur I
      refine ⟨_, hexec, ⟨l, (mem_lanesOf _ l).mp hl, ?_⟩, fun m hm => ?_, ?_, hwaiters, honly⟩
      · rw [hset]; exact hlow
      · rw [hset]; exact hle m ((mem_lanesOf _ m).mpr hm)
      · rw [hset]; rfl
    · intro changed
      refine ⟨fun howned => ⟨_, exec_jenter_of_owned howned, membersBecome_of_eq j.isLt rfl⟩, exec_jquit_of_freed,
        fun hfreed => ⟨_, exec_jquit_of_not_freed hfreed, membersBecome_of_eq j.isLt rfl⟩, ⟨_, rfl, restart_effect rfl⟩, ?_, ?_, ?_⟩
      · exact scalarTo_writeS s x.toNat js.member
      · exact scalarTo_writeS s x.toNat js.word
      · exact scalarTo_writeS s x.toNat js.waiting
  · intro k js stay now before howned hclosed
    obtain ⟨t, hexec, hcompletes, hnone, ⟨hsets, hrest⟩, hframe⟩ := jwait_stops howned hclosed
    exact ⟨t, hexec, hcompletes, hnone, hsets, hrest, hframe⟩
  · intro k js w gives
    refine ⟨jsetm_writes hlamp j x 0 rfl, jsetm_writes hlamp j x 1 rfl, jsetm_writes hlamp j x 2 rfl, fun y => ⟨fun hy => ?_, fun hy => ?_⟩⟩
    · exact not_wellFormed_of_field (List.mem_cons_of_mem (Field.sreg x) List.mem_cons_self) (case_code3_of_lt hy)
    · exact not_wellFormed_of_field (List.mem_cons_of_mem (Field.scalar x) List.mem_cons_self) (case_code3_of_lt hy)

end Sys2Proof.Machine
end

section
/-!
PROOFS. Vector moves and predicates: the values of VLEA, VMAD and VPTOV, and the instructions of R84 to R87 that write one vector register
or one predicate.
-/

namespace Sys2Proof.Machine

open Sys2Proof.Says

/-! ### A destination that holds the value of a row -/

/-- An instruction that writes one vector register, where the value of its row has another name. -/
theorem vectorTo_of_writeLanes {s : State} {i : Instr} {n : Nat} (f : Nat → Word) {g : Nat → Word}
    (hi : exec i s = .next (s.writeLanes n f)) (hv : ∀ l, f l = g l) : vectorTo s n g (exec i s) := by
  rw [hi, ← funext hv]
  exact vectorTo_writeLanes s n f

/-- The same for an instruction that writes one predicate. -/
theorem predTo_of_writePreds {s : State} {i : Instr} {n : Nat} (f : Nat → Bool) {g : Nat → Bool}
    (hi : exec i s = .next (s.writePreds n f)) (hv : ∀ l, f l = g l) : predTo s n g (exec i s) := by
  rw [hi, ← funext hv]
  exact predTo_writePreds s n f

/-- A compare names its predicate by d and h (R22, R85). -/
theorem predTo_of_compare {s : State} {i : Instr} {d : BitVec 6} {a b : BitVec 7} {h : BitVec 1} (rel : Word → Word → Bool)
    {g : Nat → Bool} (hi : exec i s = s.compare d a b h rel) (hv : ∀ l, rel (s.vector l a) (s.vector l b) = g l) :
    predTo s (2 * d.toNat + h.toNat) g (exec i s) := by
  rw [Nat.mul_comm]
  exact predTo_of_writePreds (fun l => rel (s.vector l a) (s.vector l b)) hi hv

/-- So does an operation on predicates (R22, R86). -/
theorem predTo_of_predOp {s : State} {i : Instr} {d : BitVec 6} {a b : BitVec 7} {h : BitVec 1} (f : Bool → Bool → Bool)
    (hi : exec i s = s.predOp d a b h f) :
    predTo s (2 * d.toNat + h.toNat) (fun l => f ((s.srcLane l).pred a.toNat) ((s.srcLane l).pred b.toNat)) (exec i s) := by
  rw [Nat.mul_comm]
  exact predTo_of_writePreds _ hi fun _ => rfl

/-! ### The values of VCMPNE, VLEA, VMAD and VPTOV -/

theorem bne_eq_decide_ne (x y : Word) : (x != y) = decide (x ≠ y) := by
  rw [Bool.eq_iff_iff, bne_iff_ne, decide_eq_true_iff]

theorem shiftLeft_eq_mul_ofNat (x : Word) (k : Nat) : x <<< k = x * BitVec.ofNat 32 (2 ^ k) := by
  have hpow : BitVec.twoPow 32 k = BitVec.ofNat 32 (2 ^ k) := BitVec.eq_of_toNat_eq (by simp [BitVec.toNat_twoPow])
  rw [BitVec.shiftLeft_eq_mul_twoPow, hpow]

/-- A product and then a sum of halves is the sum of each half's product with its addend (R80, R87). -/
theorem perHalf3_eq_elements (x y z : Word) :
    perHalf3 (fun x y z => x * y + z) x y z =
      elements 1 (fun _ x y => x + y) (elements 1 (fun w x y => BitVec.ofNat w (x.toNat * y.toNat)) x y) z := by
  have hmul : ∀ x y : BitVec 16, BitVec.ofNat 16 (x.toNat * y.toNat) = x * y := fun _ _ => rfl
  simp only [elements, if_true, perHalf3, hmul, BitVec.extractLsb'_append_eq_left, BitVec.extractLsb'_append_eq_right]

/-- VMAD's value: the product, on the whole register or on its halves, plus the addend. -/
theorem mad_eq_elements (h : BitVec 1) (x y z : Word) :
    (if h = 1 then perHalf3 (fun x y z => x * y + z) x y z else x * y + z) =
      elements h (fun _ x y => x + y) (elements h (fun w x y => BitVec.ofNat w (x.toNat * y.toNat)) x y) z := by
  by_cases hh : h = 1
  · subst hh
    exact perHalf3_eq_elements x y z
  · simp only [elements, if_neg hh]
    rfl

/-- A number built from bits, the first the least significant, holds them in order. -/
theorem testBit_foldl_powers (b : Nat → Bool) (n j : Nat) :
    ((List.range n).foldl (fun m i => m + if b i then 2 ^ i else 0) 0).testBit j = (decide (j < n) && b j) := by
  induction n generalizing j with
  | zero => simp
  | succ n ih =>
    rw [List.range_succ, List.foldl_append, List.foldl_cons, List.foldl_nil]
    generalize (List.range n).foldl _ 0 = m at ih
    have hm : m < 2 ^ n := Nat.lt_pow_two_of_testBit m fun i hi => by simp [ih, Nat.not_lt.mpr hi]
    have hadd : m + (if b n then 2 ^ n else 0) = (if b n then 2 ^ n else 0) ||| m := by
      split
      · simpa [Nat.add_comm] using Nat.two_pow_add_eq_or_of_lt hm 1
      · simp
    rw [hadd, Nat.testBit_or, ih]
    by_cases hj : j = n
    · subst hj
      cases b j <;> simp
    · have hlt : j < n + 1 ↔ j < n := by omega
      cases b n <;> simp [hlt, Ne.symm hj]

theorem getLsbD_predBits (x : Lane) (a b i : Nat) (hi : i < 32) :
    (predBits x a b).getLsbD i = (decide (a + i ≤ b) && x.pred (a + i)) := by
  have hrange : i < b + 1 - a ↔ a + i ≤ b := by omega
  rw [predBits, BitVec.getLsbD_ofNat, testBit_foldl_powers fun i => x.pred (a + i)]
  simp only [hi, hrange, decide_true, Bool.true_and]

/-! ### The rows of R84 to R87 -/

/-- Settles O7: each row writes one register or one predicate in every active lane, with the value that the row names. -/
theorem vectorMoveAndPredicateResults : Obligations.VectorMoveAndPredicateResults := by
  unfold Obligations.VectorMoveAndPredicateResults
  refine ⟨fun s d a b h => ?_, fun s d a b h => ?_⟩
  · intro A B o k C
    refine ⟨?_, ?_, ?_, ?_, ?_, fun l => predBits (s.srcLane l) a.toNat b.toNat, ?_, ?_⟩
    · exact vectorTo_of_writeLanes A rfl fun _ => rfl
    · exact vectorTo_of_writeLanes (fun l => if s.predAt l o.toNat then A l else B l) rfl fun _ => rfl
    · exact vectorTo_of_writeLanes (fun l => bitField (A l) (B l)) rfl fun _ => rfl
    · exact vectorTo_of_writeLanes (fun l => A l + B l <<< k) rfl fun l => by rw [shiftLeft_eq_mul_ofNat]
    · exact vectorTo_of_writeLanes _ rfl fun l => mad_eq_elements h (s.vectorInt h l a) (s.vectorInt h l b) (C l)
    · exact fun l i hi => getLsbD_predBits (s.srcLane l) a.toNat b.toNat i hi
    · exact vectorTo_of_writeLanes _ rfl fun _ => rfl
  · intro A B P Q gives
    refine ⟨?_, ?_, ?_, ?_, ?_, ?_, ?_, ?_, ?_, ?_, ?_⟩
    · exact predTo_of_compare (fun x y => x == y) rfl fun _ => rfl
    · exact predTo_of_compare (fun x y => x != y) rfl fun l => bne_eq_decide_ne (A l) (B l)
    · exact predTo_of_compare (fun x y => x.slt y) rfl fun _ => rfl
    · exact predTo_of_compare (fun x y => x.sle y) rfl fun _ => rfl
    · exact predTo_of_compare (fun x y => x.ult y) rfl fun _ => rfl
    · exact predTo_of_compare (fun x y => x.ule y) rfl fun _ => rfl
    · exact predTo_of_predOp (fun x y => x && y) rfl
    · exact predTo_of_predOp (fun x y => x || y) rfl
    · exact predTo_of_predOp (fun x y => x != y) rfl
    · exact predTo_of_predOp (fun x _ => !x) (b := a) rfl
    · exact predTo_of_compare (fun x y => x &&& y != 0) rfl fun l => bne_eq_decide_ne (A l &&& B l) 0

end Sys2Proof.Machine
end

section
/-!
PROOFS. Cross-lane execution: a class 6 instruction runs once for each participant set (R96). Together these runs write every issuing lane
once, from the active participants that the statements call its partners.
-/

namespace Sys2Proof.Machine

open Sys2Proof.Says

/-! ### Masks of lanes -/

theorem getLsbD_laneBit (l i : Nat) : (laneBit l).getLsbD i = true ↔ i < 32 ∧ i = l := by
  rw [laneBit, BitVec.getLsbD_ofNat, Nat.testBit_two_pow, Bool.and_eq_true, decide_eq_true_iff, decide_eq_true_iff, eq_comm (a := l)]

theorem getLsbD_foldl_laneBit (ls : List Nat) (m : LaneMask) (i : Nat) :
    (ls.foldl (fun m l => m ||| laneBit l) m).getLsbD i = true ↔ m.getLsbD i = true ∨ i < 32 ∧ i ∈ ls := by
  induction ls generalizing m with
  | nil => simp
  | cons a ls ih =>
    rw [List.foldl_cons, ih, BitVec.getLsbD_or, Bool.or_eq_true, getLsbD_laneBit, List.mem_cons, and_or_left, or_assoc]

theorem getLsbD_maskOf (ls : List Nat) (i : Nat) : (maskOf ls).getLsbD i = true ↔ i < 32 ∧ i ∈ ls := by
  rw [maskOf, getLsbD_foldl_laneBit]
  simp

theorem getLsbD_liveMask (g : Gang) (l : Nat) : g.liveMask.getLsbD l = true ↔ l < 32 ∧ (g.lane l).live = true := by
  rw [Gang.liveMask, Gang.lanesWhere, getLsbD_maskOf]
  simp

/-! ### Changes of lanes -/

/-- Each lane of the chain's gang changes as F says, and nothing else changes. -/
def lanesChange (s t : State) (F : Nat → Lane → Lane) : Prop :=
  onlyGang s t ∧ t.cur = { s.cur with lanes := t.cur.lanes } ∧ ∀ l, t.cur.lane l = F l (s.cur.lane l)

/-- A change of the lanes of a list. -/
def onLanes (ls : List Nat) (F : Nat → Lane → Lane) (l : Nat) (x : Lane) : Lane := if l ∈ ls then F l x else x

theorem issue_of_onlyGang {s t : State} (h : onlyGang s t) : t.issue = s.issue := by
  obtain ⟨hrest, -, -⟩ := h
  rw [hrest]

theorem onlyGang_trans {s t u : State} (h1 : onlyGang s t) (h2 : onlyGang t u) : onlyGang s u := by
  have hissue := issue_of_onlyGang h1
  obtain ⟨hrest, hgangs, hmem⟩ := h1
  obtain ⟨hrest', hgangs', hmem'⟩ := h2
  refine ⟨?_, fun k hk => ?_, fun a => (hmem' a).trans (hmem a)⟩
  · rw [hrest', hrest]
  · rw [hgangs' k (by rwa [hissue]), hgangs k hk]

theorem lanesChange_refl (s : State) : lanesChange s s fun _ x => x := ⟨⟨rfl, fun _ _ => rfl, fun _ => rfl⟩, rfl, fun _ => rfl⟩

theorem lanesChange_trans {s t u : State} {F G : Nat → Lane → Lane} (h1 : lanesChange s t F) (h2 : lanesChange t u G) :
    lanesChange s u fun l x => G l (F l x) := by
  obtain ⟨honly, hrest, hlane⟩ := h1
  obtain ⟨honly', hrest', hlane'⟩ := h2
  refine ⟨onlyGang_trans honly honly', ?_, fun l => ?_⟩
  · rw [hrest', hrest]
  · rw [hlane', hlane]

theorem lanesChange_congr {s t : State} {F G : Nat → Lane → Lane} (h : lanesChange s t F) (hFG : ∀ l x, F l x = G l x) :
    lanesChange s t G := by
  rwa [show G = F from funext fun l => funext fun x => (hFG l x).symm]

theorem issue_of_lanesChange {s t : State} {F : Nat → Lane → Lane} (h : lanesChange s t F) : t.issue = s.issue := by
  obtain ⟨honly, -, -⟩ := h
  exact issue_of_onlyGang honly

/-- A change of the lanes of two lists one after the other is one of the lanes of both, if they have none in common. -/
theorem onLanes_append {as bs : List Nat} (h : ∀ a ∈ as, ∀ b ∈ bs, a ≠ b) (F : Nat → Lane → Lane) (l : Nat) (x : Lane) :
    onLanes bs F l (onLanes as F l x) = onLanes (as ++ bs) F l x := by
  unfold onLanes
  by_cases ha : l ∈ as
  · have hb : l ∉ bs := fun hb => h l ha l hb rfl
    simp [ha, hb]
  · simp [ha]

/-- Lanes that are written one after another. -/
theorem lanesChange_foldl {s t : State} (ht : t.issue = s.issue) {F : Nat → Lane → Lane} {step : State → Nat → State}
    (hstep : ∀ u l, u.issue = s.issue → step u l = u.updCur fun g => g.updLane l (F l)) {ls : List Nat} (hls : ls.Nodup) :
    lanesChange t (ls.foldl step t) (onLanes ls F) := by
  obtain ⟨hrest, hgangs, hcur, hlane⟩ := lanes_fold s F step hstep ls hls t ht
  refine ⟨⟨hrest, hgangs, fun a => ?_⟩, hcur, hlane⟩
  rw [hrest]
  rfl

/-! ### Writes under the guard (R25) -/

/-- A lane after a write: an active lane as W says, another one as Z says with .z. -/
def State.underGuard (s : State) (W Z : Nat → Lane → Lane) (l : Nat) (x : Lane) : Lane :=
  if s.guardOn l then W l x else if s.issue.pfx.z = 1 then Z l x else x

/-- All that a write to the lanes of a list under the guard does. -/
theorem lanesChange_underGuard {s t : State} (ht : t.issue = s.issue) {ls : List Nat} (hls : ls.Nodup) {W Z : Nat → Lane → Lane}
    {step zero : State → Nat → State}
    (hstep : ∀ u l, u.issue = s.issue → step u l = u.updCur fun g => g.updLane l (W l))
    (hzero : ∀ u l, u.issue = s.issue → zero u l = u.updCur fun g => g.updLane l (Z l)) :
    let u := (ls.filter s.guardOn).foldl step t
    lanesChange t (if s.issue.pfx.z = 1 then (ls.filter fun l => !s.guardOn l).foldl zero u else u) (onLanes ls (s.underGuard W Z)) := by
  intro u
  have hactive : lanesChange t u (onLanes (ls.filter s.guardOn) W) := lanesChange_foldl ht hstep (hls.filter _)
  have hu : u.issue = s.issue := (issue_of_lanesChange hactive).trans ht
  have hinactive := lanesChange_foldl hu hzero (hls.filter fun l => !s.guardOn l)
  by_cases hz : s.issue.pfx.z = 1
  · rw [if_pos hz]
    refine lanesChange_congr (lanesChange_trans hactive hinactive) fun l x => ?_
    simp only [onLanes, State.underGuard, if_pos hz, List.mem_filter]
    by_cases hl : l ∈ ls
    · cases s.guardOn l <;> simp [hl]
    · simp [hl]
  · rw [if_neg hz]
    refine lanesChange_congr hactive fun l x => ?_
    simp only [onLanes, State.underGuard, if_neg hz, List.mem_filter]
    by_cases hl : l ∈ ls
    · cases s.guardOn l <;> simp [hl]
    · simp [hl]

/-- A lane after a write of `v`n. -/
def State.writesV (s : State) (n : Nat) (f : Nat → Word) : Nat → Lane → Lane :=
  s.underGuard (fun l x => x.setVAt (s.srcLane l).wbase n (f l)) fun l x => x.setVAt (s.srcLane l).wbase n 0

/-- A lane after a write of predicate n. -/
def State.writesP (s : State) (n : Nat) (f : Nat → Bool) : Nat → Lane → Lane :=
  s.underGuard (fun l x => x.setPred n (f l)) fun _ x => x.setPred n false

theorem writeV_eq {s u : State} (hu : u.issue = s.issue) (l n : Nat) (v : Word) :
    u.writeV l n v = u.updCur fun g => g.updLane l fun x => x.setVAt (s.srcLane l).wbase n v := by
  simp only [State.writeV, State.srcLane, hu]

theorem lanesChange_writeLanes (s : State) (n : Nat) (f : Nat → Word) :
    lanesChange s (s.writeLanes n f) (onLanes (lanesOf s.issue.lanes) (s.writesV n f)) :=
  lanesChange_underGuard rfl (lanesOf_nodup _) (fun _ l hu => writeV_eq hu l n (f l)) fun _ l hu => writeV_eq hu l n 0

theorem lanesChange_writePreds (s : State) (n : Nat) (f : Nat → Bool) :
    lanesChange s (s.writePreds n f) (onLanes (lanesOf s.issue.lanes) (s.writesP n f)) :=
  lanesChange_underGuard (step := fun t l => t.writeP l n (f l)) (zero := fun t l => t.writeP l n false) rfl (lanesOf_nodup _)
    (fun _ _ _ => rfl) fun _ _ _ => rfl

/-- What a statement says of a vector destination is about the lanes only. -/
theorem vectorPart_congr {s t u : State} {n : Nat} {f : Nat → Word} (h : ∀ l, t.cur.lane l = u.cur.lane l) (hu : vectorPart s u n f) :
    vectorPart s t n f := by
  simpa only [vectorPart, elementPart, vreg, h] using hu

/-- So it is with a predicate destination. -/
theorem predPart_congr {s t u : State} {n : Nat} {f : Nat → Bool} (h : ∀ l, t.cur.lane l = u.cur.lane l) (hu : predPart s u n f) :
    predPart s t n f := by
  simpa only [predPart, h] using hu

/-- All that an instruction does which writes `v`n of its lanes once. -/
theorem vectorTo_of_lanesChange {s t : State} {n : Nat} {f : Nat → Word}
    (h : lanesChange s t (onLanes (lanesOf s.issue.lanes) (s.writesV n f))) : vectorTo s n f (.next t) := by
  obtain ⟨-, -, hwritten⟩ := lanesChange_writeLanes s n f
  obtain ⟨hpart, -, -⟩ := elementPart_writePart s n f fun _ => 0
  obtain ⟨honly, hrest, hlane⟩ := h
  exact ⟨t, rfl, vectorPart_congr (fun l => (hlane l).trans (hwritten l).symm) hpart, hrest, honly⟩

/-- The same of predicate n. -/
theorem predTo_of_lanesChange {s t : State} {n : Nat} {f : Nat → Bool}
    (h : lanesChange s t (onLanes (lanesOf s.issue.lanes) (s.writesP n f))) : predTo s n f (.next t) := by
  obtain ⟨-, -, hwritten⟩ := lanesChange_writePreds s n f
  obtain ⟨u, hu, hpart, -, -⟩ := predTo_writePreds s n f
  cases hu
  obtain ⟨honly, hrest, hlane⟩ := h
  exact ⟨t, rfl, predPart_congr (fun l => (hlane l).trans (hwritten l).symm) hpart, hrest, honly⟩

/-! ### Participant sets (R96) -/

theorem nodup_eraseDups {α : Type} [BEq α] [LawfulBEq α] : (as : List α) → as.eraseDups.Nodup
  | [] => .nil
  | a :: as => by
    rw [List.eraseDups_cons, List.nodup_cons]
    refine ⟨fun h => ?_, nodup_eraseDups _⟩
    obtain ⟨-, hne⟩ := List.mem_filter.mp (List.mem_eraseDups.mp h)
    rw [beq_self_eq_true] at hne
    cases hne
termination_by as => as.length
decreasing_by exact Nat.lt_succ_of_le (List.length_filter_le _ as)

theorem eq_filter_of_mem_bandsOf {w : Nat} {ls p : List Nat} (hp : p ∈ bandsOf w ls) {l : Nat} (hl : l ∈ p) :
    p = ls.filter fun m => m / w == l / w := by
  obtain ⟨b, -, rfl⟩ := List.mem_map.mp hp
  obtain ⟨-, hb⟩ := List.mem_filter.mp hl
  rw [beq_iff_eq.mp hb]

theorem mem_flatten_bandsOf (w : Nat) (ls : List Nat) (l : Nat) : l ∈ (bandsOf w ls).flatten ↔ l ∈ ls := by
  rw [List.mem_flatten]
  constructor
  · rintro ⟨p, hp, hl⟩
    rw [eq_filter_of_mem_bandsOf hp hl] at hl
    exact (List.mem_filter.mp hl).1
  · intro hl
    refine ⟨ls.filter fun m => m / w == l / w, List.mem_map.mpr ⟨l / w, ?_, rfl⟩, List.mem_filter.mpr ⟨hl, beq_self_eq_true _⟩⟩
    exact List.mem_eraseDups.mpr (List.mem_map.mpr ⟨l, hl, rfl⟩)

theorem nodup_flatten_bandsOf (w : Nat) {ls : List Nat} (hls : ls.Nodup) : (bandsOf w ls).flatten.Nodup := by
  refine List.pairwise_flatten.mpr ⟨fun p hp => ?_, List.pairwise_map.mpr ((nodup_eraseDups _).imp fun hne l hl m hm heq => hne ?_)⟩
  · obtain ⟨b, -, rfl⟩ := List.mem_map.mp hp
    exact hls.filter _
  · obtain ⟨-, hl⟩ := List.mem_filter.mp hl
    obtain ⟨-, hm⟩ := List.mem_filter.mp hm
    rw [← beq_iff_eq.mp hl, ← beq_iff_eq.mp hm, heq]

/-- The participant sets split the issuing lanes. -/
theorem participants_flatten_perm (g : Gang) (k : Nat) {ls : List Nat} (hls : ls.Nodup) : (g.participants k ls).flatten.Perm ls := by
  have hbands : ∀ {ms : List Nat}, ms.Nodup → (bandsOf g.band ms).flatten.Perm ms := fun hms =>
    (List.perm_ext_iff_of_nodup (nodup_flatten_bandsOf g.band hms) hms).mpr (mem_flatten_bandsOf g.band _)
  unfold Gang.participants
  split
  · exact hbands hls
  · rw [List.flatten_append, ← List.flatMap_def, List.flatMap_singleton']
    refine (List.Perm.append_left _ (hbands (hls.filter _))).trans (List.perm_append_comm.trans ?_)
    exact List.filter_append_perm _ ls

/-- The lanes that take part with a lane, whether they issue or not: its band with set 15, its band's members for a member, else itself. -/
def Gang.peer (g : Gang) (k l m : Nat) : Bool :=
  if k = 15 then m / g.band == l / g.band
  else if (g.jset k).member.getLsbD l then (g.jset k).member.getLsbD m && m / g.band == l / g.band else m == l

theorem partners_eq (s : State) (j : BitVec 4) (l : Nat) :
    partners s j l = ((lanesOf s.issue.lanes).filter (s.issue.src.peer j.toNat l)).filter s.guardOn := by
  have hj : j = 15 ↔ j.toNat = 15 := ⟨fun h => by rw [h]; rfl, fun h => BitVec.eq_of_toNat_eq h⟩
  refine congrArg (List.filter s.guardOn) ?_
  rw [lanesOf, List.filter_filter]
  refine List.filter_congr fun m _ => ?_
  simp only [hj]
  rw [Bool.and_comm]
  rfl

/-- A participant set holds the peers of each of its lanes. -/
theorem eq_filter_peer {g : Gang} {k : Nat} {ls p : List Nat} (hls : ls.Nodup) (hp : p ∈ g.participants k ls) {l : Nat} (hl : l ∈ p) :
    p = ls.filter (g.peer k l) := by
  unfold Gang.participants at hp
  split at hp
  case isTrue hk =>
    rw [eq_filter_of_mem_bandsOf hp hl]
    exact List.filter_congr fun m _ => by rw [Gang.peer, if_pos hk]
  case isFalse hk =>
    obtain hp | hp := List.mem_append.mp hp
    · obtain ⟨m, hm, rfl⟩ := List.mem_map.mp hp
      obtain rfl := List.mem_singleton.mp hl
      obtain ⟨hm, hnot⟩ := List.mem_filter.mp hm
      have hself : ∀ m, g.peer k l m = (m == l) := fun m => by
        rw [Gang.peer, if_neg hk, if_neg (by simpa using hnot)]
      rw [List.filter_congr fun m _ => hself m, List.filter_beq, hls.count, if_pos hm, List.replicate_one]
    · have hmem : (g.jset k).member.getLsbD l = true := by
        rw [eq_filter_of_mem_bandsOf hp hl] at hl
        exact (List.mem_filter.mp (List.mem_filter.mp hl).1).2
      rw [eq_filter_of_mem_bandsOf hp hl, List.filter_filter]
      exact List.filter_congr fun m _ => by rw [Gang.peer, if_neg hk, if_pos hmem, Bool.and_comm]

/-- The active lanes of a participant set are the partners of each of its lanes. -/
theorem filter_guardOn_eq_partners {s : State} {j : BitVec 4} {p : List Nat}
    (hp : p ∈ s.issue.src.participants j.toNat (lanesOf s.issue.lanes)) {l : Nat} (hl : l ∈ p) : p.filter s.guardOn = partners s j l := by
  rw [partners_eq, ← eq_filter_peer (lanesOf_nodup _) hp hl]

/-- No issuing lane of a ready instruction waits for another one. -/
theorem not_crossWaits_of_ready {s : State} {j : BitVec 4} (h : crossReady s j) {l : Nat} (hl : l ∈ lanesOf s.issue.lanes) :
    s.issue.src.crossWaits j.toNat s.issue.lanes l = false := by
  obtain ⟨-, rfl | ⟨-, -, ⟨hwrap, hsnuffed⟩ | hall⟩⟩ := h
  · rfl
  · simp [Gang.crossWaits, hwrap, hsnuffed]
  · rw [Bool.eq_false_iff]
    intro hwaits
    simp only [Gang.crossWaits, Gang.bandMembers, Bool.and_eq_true, List.any_eq_true, List.mem_filter, mem_lanesOf,
      BitVec.getLsbD_and, getLsbD_liveMask, beq_iff_eq] at hwaits
    obtain ⟨⟨⟨-, hmember⟩, -⟩, m, ⟨⟨hm, hmem, -, hlive⟩, hband⟩, hnot⟩ := hwaits
    obtain ⟨-, hissues⟩ := hall l m ((mem_lanesOf _ l).mp hl) hmember hm hmem hlive hband
    simp [hissues] at hnot

/-- No issuing lane of a ready instruction finds the set orphaned (R61). -/
theorem not_orphaned_of_ready {s : State} {j : BitVec 4} (h : crossReady s j) :
    (j.toNat ≠ 15 && (lanesOf s.issue.lanes).any fun l => s.issue.src.orphaned j.toNat l) = false := by
  obtain ⟨-, rfl | ⟨hfreed, hhome, -⟩⟩ := h
  · rfl
  · rw [Bool.and_eq_false_imp]
    intro _
    rw [List.any_eq_false]
    intro l hl
    have := hhome l ((mem_lanesOf _ l).mp hl)
    simpa [Gang.orphaned, hfreed] using this

/-- Where a class 6 instruction is ready, it runs for its participant sets. -/
theorem crossGo_of_ready {s : State} {j : BitVec 4} (h : crossReady s j) (go : List (List Nat) → State) :
    s.crossGo j go = .next (go (s.issue.src.participants j.toNat (lanesOf s.issue.lanes))) := by
  have hstay : (lanesOf s.issue.lanes).filter (fun l => s.issue.src.crossWaits j.toNat s.issue.lanes l) = [] :=
    List.filter_eq_nil_iff.mpr fun l hl => by simp [not_crossWaits_of_ready h hl]
  unfold State.crossGo
  simp only [not_orphaned_of_ready h, hstay]
  rfl

/-- All that the runs for lists of lanes do which have none in common. -/
theorem lanesChange_foldl_runs {s : State} {f : State → List Nat → State} {F : Nat → Lane → Lane} {ps : List (List Nat)}
    (hps : ps.Pairwise fun p q => ∀ a ∈ p, ∀ b ∈ q, a ≠ b)
    (hf : ∀ p ∈ ps, ∀ t, t.issue = s.issue → lanesChange t (f t p) (onLanes p F)) {t : State}
    (ht : t.issue = s.issue) : lanesChange t (ps.foldl f t) (onLanes ps.flatten F) := by
  induction ps generalizing t with
  | nil => exact lanesChange_congr (lanesChange_refl t) fun _ _ => by simp [onLanes]
  | cons p ps ih =>
    obtain ⟨hp, hps⟩ := List.pairwise_cons.mp hps
    have hdisjoint : ∀ a ∈ p, ∀ b ∈ ps.flatten, a ≠ b := fun a ha b hb => by
      obtain ⟨q, hq, hbq⟩ := List.mem_flatten.mp hb
      exact hp q hq a ha b hbq
    have hfirst := hf p List.mem_cons_self t ht
    have hrest := ih hps (fun q hq => hf q (List.mem_cons_of_mem p hq)) ((issue_of_lanesChange hfirst).trans ht)
    exact lanesChange_congr (lanesChange_trans hfirst hrest) (onLanes_append hdisjoint F)

/-- All that the runs of a class 6 instruction do together. In each run `f` gets the participants and their active lanes, which are the
partners of each participant. -/
theorem lanesChange_crossSets {s : State} {j : BitVec 4} {f : State → List Nat → List Nat → State} {F : Nat → Lane → Lane}
    (hf : ∀ t p, t.issue = s.issue → p.Nodup → (∀ l ∈ p, p.filter s.guardOn = partners s j l) →
      lanesChange t (f t p (p.filter s.guardOn)) (onLanes p F)) :
    lanesChange s (s.crossSets f (s.issue.src.participants j.toNat (lanesOf s.issue.lanes))) (onLanes (lanesOf s.issue.lanes) F) := by
  have hperm := participants_flatten_perm s.issue.src j.toNat (lanesOf_nodup s.issue.lanes)
  obtain ⟨hnodup, hdisjoint⟩ := List.pairwise_flatten.mp (hperm.nodup_iff.mpr (lanesOf_nodup _))
  have hall := lanesChange_foldl_runs (s := s) (f := fun t p => f t p (p.filter s.guardOn)) (F := F) hdisjoint
    (fun p hp t ht => hf t p ht (hnodup p hp) fun l hl => filter_guardOn_eq_partners hp hl) (t := s) rfl
  exact lanesChange_congr hall fun l x => by simp only [onLanes, hperm.mem_iff]

/-! ### One register or predicate (R96) -/

theorem filter_not_contains (p : List Nat) (f : Nat → Bool) : (p.filter fun l => !(p.filter f).contains l) = p.filter fun l => !f l :=
  List.filter_congr fun l hl => by simp [hl]

theorem onLanes_congr {ls : List Nat} {F G : Nat → Lane → Lane} (h : ∀ l ∈ ls, ∀ x, F l x = G l x) (l : Nat) (x : Lane) :
    onLanes ls F l x = onLanes ls G l x := by
  unfold onLanes
  split
  case isTrue hl => exact h l hl x
  case isFalse => rfl

/-- All that a run does which writes `v`n. -/
theorem lanesChange_crossV {s t : State} (ht : t.issue = s.issue) {p : List Nat} (hp : p.Nodup) (n : Nat) {v f : Nat → Word}
    (hv : ∀ l ∈ p, v l = f l) : lanesChange t (t.crossV s n p (p.filter s.guardOn) v) (onLanes p (s.writesV n f)) := by
  rw [State.crossV, filter_not_contains]
  refine lanesChange_congr (lanesChange_underGuard ht hp (fun _ l hu => writeV_eq hu l n (v l)) fun _ l hu => writeV_eq hu l n 0) ?_
  exact onLanes_congr fun l hl x => by rw [State.writesV, State.underGuard, State.underGuard, hv l hl]

/-- All that a run does which writes predicate n. -/
theorem lanesChange_crossP {s t : State} (ht : t.issue = s.issue) {p : List Nat} (hp : p.Nodup) (n : Nat) {v : Bool} {f : Nat → Bool}
    (hv : ∀ l ∈ p, v = f l) : lanesChange t (t.crossP s n p (p.filter s.guardOn) v) (onLanes p (s.writesP n f)) := by
  rw [State.crossP, filter_not_contains]
  refine lanesChange_congr (lanesChange_underGuard ht hp (step := fun t l => t.writeP l n v) (zero := fun t l => t.writeP l n false)
    (fun _ _ _ => rfl) fun _ _ _ => rfl) ?_
  exact onLanes_congr fun l hl x => by rw [State.writesP, State.underGuard, State.underGuard, hv l hl]

/-- A class 6 instruction whose runs write `v`d, each from its active lanes, gives each lane the value that comes of its partners. -/
theorem vectorTo_of_crossLane {s : State} {i : Instr} {d : BitVec 6} {j : BitVec 4} (h : crossReady s j)
    (v : List Nat → Nat → Word) {f : Nat → Word}
    (hi : exec i s = s.crossLane j fun t p act => t.crossV s d.toNat p act (v act))
    (hv : ∀ l, v (partners s j l) l = f l) : vectorTo s d.toNat f (exec i s) := by
  rw [hi, State.crossLane, crossGo_of_ready h]
  refine vectorTo_of_lanesChange (lanesChange_crossSets fun t p ht hp hpartners => ?_)
  exact lanesChange_crossV ht hp _ fun l hl => by rw [hpartners l hl, hv]

/-- The same of a predicate, which is one for all lanes of a run. -/
theorem predTo_of_crossLane {s : State} {i : Instr} {d : BitVec 6} {j : BitVec 4} (h : crossReady s j) (v : List Nat → Bool)
    (hi : exec i s = s.crossLane j fun t p act => t.crossP s d.toNat p act (v act)) :
    predTo s d.toNat (fun l => v (partners s j l)) (exec i s) := by
  rw [hi, State.crossLane, crossGo_of_ready h]
  refine predTo_of_lanesChange (lanesChange_crossSets fun t p ht hp hpartners => ?_)
  exact lanesChange_crossP ht hp _ fun l hl => by rw [hpartners l hl]

end Sys2Proof.Machine
end

section
/-!
PROOFS. Lane moves and gathers: the instructions of R99 and R100, each from the active participants of a lane.
-/

namespace Sys2Proof.Machine

open Sys2Proof.Says

/-! ### Lane moves (R99) -/

/-- A lane move gives each lane the value of its source lane where that is among its partners, else its own. -/
theorem vectorTo_of_laneMove {s : State} {i : Instr} {d a : BitVec 6} {j : BitVec 4} (h : crossReady s j) {src src' : Nat → Int}
    (hi : exec i s = s.laneMove d a j src) (hsrc : ∀ l, src l = src' l) :
    vectorTo s d.toNat (fun l =>
      if 0 ≤ src' l ∧ (src' l).toNat / s.width = l / s.width ∧ (src' l).toNat ∈ partners s j l then s.vAt (src' l).toNat a
      else s.vAt l a) (exec i s) := by
  refine vectorTo_of_crossLane h (fun act l =>
    if 0 ≤ src l && (src l).toNat / s.width == l / s.width && act.contains (src l).toNat then s.vAt (src l).toNat a else s.vAt l a)
    hi fun l => ?_
  simp only [hsrc, Bool.and_eq_true, decide_eq_true_eq, beq_iff_eq, List.contains_iff_mem, and_assoc]

/-- Settles O23: each lane move has the source lane that its row names. -/
theorem laneMoveResults : Obligations.LaneMoveResults := by
  unfold Obligations.LaneMoveResults
  intro s d a b j hready w wraps v takes
  refine ⟨?_, ?_, ?_, ?_⟩
  · exact vectorTo_of_laneMove hready rfl fun _ => rfl
  · exact vectorTo_of_laneMove hready rfl fun _ => rfl
  · exact vectorTo_of_laneMove hready rfl fun l => (apply_ite Int.ofNat _ _ _).symm
  · exact vectorTo_of_laneMove hready rfl fun _ => rfl

/-! ### Gathers (R100) -/

/-- The mask of some lanes has the bits of their numbers, or of their positions in the band. -/
theorem getLsbD_laneBits (s : State) (ls : List Nat) {i : Nat} (hi : i < 32) :
    (s.laneBits ls).getLsbD i = true ↔ ∃ m ∈ ls, (if s.aux 0 then m % s.width else m) = i := by
  rw [State.laneBits, getLsbD_maskOf, and_iff_right hi]
  split
  · exact List.mem_map
  · simp

/-- Settles O24: each gather computes its value from the active participants. -/
theorem gatherResults : Obligations.GatherResults := by
  unfold Obligations.GatherResults
  intro s d a j hready A P v place mask
  refine ⟨?_, ?_, ?_, ⟨fun l => s.laneBits ((A l).filter P), fun l i hi => ?_, ?_⟩,
    ⟨fun l => s.laneBits ((A l).filter fun m => v m == v l), fun l i hi => ?_, ?_⟩⟩
  · exact predTo_of_crossLane hready (fun act => act.any P) rfl
  · exact predTo_of_crossLane hready (fun act => act.all P) rfl
  · exact predTo_of_crossLane hready (fun act => act.all fun m => act.all fun n => v m == v n) rfl
  · rw [getLsbD_laneBits s _ hi]
    simp only [List.mem_filter, and_assoc]
    rfl
  · exact vectorTo_of_crossLane hready (fun act _ => s.laneBits (act.filter P)) rfl fun _ => rfl
  · rw [getLsbD_laneBits s _ hi]
    simp only [List.mem_filter, beq_iff_eq, and_assoc]
    rfl
  · exact vectorTo_of_crossLane hready (fun act l => s.laneBits (act.filter fun m => v m == v l)) rfl fun _ => rfl

end Sys2Proof.Machine
end

section
/-!
PROOFS. Sorting and searching: the order of SORT.KV and the ranks of TOPK as counts of lanes that come before, what several registers read
after a class 6 instruction has written them, and the instructions of R102 to R105.
-/

namespace Sys2Proof.Machine

open Sys2Proof.Says

/-! ### The order of lanes by key (R98, R102, R103) -/

/-- A lane has the key that comes first, ascending or descending. -/
def keyBefore (key : Nat → Nat) (desc : Bool) (m n : Nat) : Bool := if desc then key n < key m else key m < key n

/-- Lane m comes before lane n: by key, and by lane number where the keys are equal. -/
def precedes (key : Nat → Nat) (desc : Bool) (m n : Nat) : Bool :=
  keyBefore key desc m n || (decide (key m = key n) && decide (m < n))

theorem keyBefore_iff (key : Nat → Nat) (desc : Bool) (m n : Nat) :
    keyBefore key desc m n = true ↔ if desc then key n < key m else key m < key n := by
  cases desc
  · exact decide_eq_true_iff
  · exact decide_eq_true_iff

theorem precedes_iff (key : Nat → Nat) (desc : Bool) (m n : Nat) :
    precedes key desc m n = true ↔ (if desc then key n < key m else key m < key n) ∨ key m = key n ∧ m < n := by
  rw [precedes, Bool.or_eq_true, keyBefore_iff, Bool.and_eq_true, decide_eq_true_iff, decide_eq_true_iff]

theorem precedes_trans {key : Nat → Nat} {desc : Bool} {a b c : Nat} (hab : precedes key desc a b = true)
    (hbc : precedes key desc b c = true) : precedes key desc a c = true := by
  rw [precedes_iff] at *
  cases desc <;> simp only [if_true, Bool.false_eq_true, if_false] at * <;> omega

theorem precedes_asymm {key : Nat → Nat} {desc : Bool} {a b : Nat} (hab : precedes key desc a b = true) :
    precedes key desc b a = false := by
  rw [Bool.eq_false_iff, Ne, precedes_iff]
  rw [precedes_iff] at hab
  cases desc <;> simp only [if_true, Bool.false_eq_true, if_false] at * <;> omega

theorem insertBy_perm (before : Nat → Nat → Bool) (l : Nat) (ms : List Nat) : (insertBy before l ms).Perm (l :: ms) := by
  induction ms with
  | nil => exact .refl _
  | cons m ms ih =>
    unfold insertBy
    split
    · exact .refl _
    · exact (ih.cons m).trans (.swap l m ms)

/-- A lane goes into an ordered list at its place, if the test says for each lane of the list which of the two comes first. -/
theorem pairwise_insertBy {r before : Nat → Nat → Bool} (htrans : ∀ {a b c}, r a b = true → r b c = true → r a c = true) {l : Nat}
    {ms : List Nat} (hms : ms.Pairwise (r · ·)) (hl : ∀ m ∈ ms, if before l m then r l m = true else r m l = true) :
    (insertBy before l ms).Pairwise (r · ·) := by
  induction ms with
  | nil => exact List.pairwise_singleton _ l
  | cons m ms ih =>
    obtain ⟨hm, hrest⟩ := List.pairwise_cons.mp hms
    have hhead := hl m List.mem_cons_self
    unfold insertBy
    split
    case isTrue hb =>
      rw [if_pos hb] at hhead
      refine List.pairwise_cons.mpr ⟨fun x hx => ?_, hms⟩
      obtain rfl | hx := List.mem_cons.mp hx
      · exact hhead
      · exact htrans hhead (hm x hx)
    case isFalse hb =>
      rw [if_neg hb] at hhead
      refine List.pairwise_cons.mpr ⟨fun x hx => ?_, ih hrest fun n hn => hl n (List.mem_cons_of_mem m hn)⟩
      obtain rfl | hx := List.mem_cons.mp ((insertBy_perm before l ms).mem_iff.mp hx)
      · exact hhead
      · exact hm x hx

/-- Ascending lanes that go one after another into an ordered list of lower lanes leave it ordered, and it holds them all. -/
theorem foldl_insertBy_spec {key : Nat → Nat} {desc : Bool} {before : Nat → Nat → Bool}
    (hbefore : ∀ l m, m < l → if before l m then precedes key desc l m = true else precedes key desc m l = true) {ls : List Nat}
    (hls : ls.Pairwise (· < ·)) {o : List Nat} (ho : o.Pairwise (precedes key desc · ·)) (hbelow : ∀ m ∈ o, ∀ l ∈ ls, m < l) :
    (ls.foldl (fun o l => insertBy before l o) o).Perm (ls ++ o) ∧
      (ls.foldl (fun o l => insertBy before l o) o).Pairwise (precedes key desc · ·) := by
  induction ls generalizing o with
  | nil => exact ⟨.refl _, ho⟩
  | cons l ls ih =>
    obtain ⟨hl, hls⟩ := List.pairwise_cons.mp hls
    have hinsert : (insertBy before l o).Pairwise (precedes key desc · ·) :=
      pairwise_insertBy (r := precedes key desc) precedes_trans ho fun m hm => hbefore l m (hbelow m hm l List.mem_cons_self)
    have hbelow' : ∀ m ∈ insertBy before l o, ∀ n ∈ ls, m < n := fun m hm n hn => by
      obtain rfl | hm := List.mem_cons.mp ((insertBy_perm before l o).mem_iff.mp hm)
      · exact hl n hn
      · exact hbelow m hm n (List.mem_cons_of_mem l hn)
    obtain ⟨hperm, hsorted⟩ := ih hls hinsert hbelow'
    exact ⟨hperm.trans (((insertBy_perm before l o).append_left ls).trans List.perm_middle), hsorted⟩

/-- The key says which of two lanes comes first, if the one that it asks about is the higher one. -/
theorem keyBefore_spec (key : Nat → Nat) (desc : Bool) (l m : Nat) (hm : m < l) :
    if keyBefore key desc l m then precedes key desc l m = true else precedes key desc m l = true := by
  by_cases h : keyBefore key desc l m = true
  · rw [if_pos h, precedes, h, Bool.true_or]
  · rw [if_neg h, precedes_iff]
    rw [keyBefore_iff] at h
    cases desc <;> simp only [if_true, Bool.false_eq_true, if_false] at h ⊢ <;> omega

/-- The order of ascending lanes holds them all, each before those that it precedes. -/
theorem orderLanes_spec (key : Nat → Nat) (desc : Bool) {ls : List Nat} (hls : ls.Pairwise (· < ·)) :
    (orderLanes key desc ls).Perm ls ∧ (orderLanes key desc ls).Pairwise (precedes key desc · ·) := by
  have hspec := foldl_insertBy_spec (keyBefore_spec key desc) hls .nil fun m hm => nomatch hm
  rw [List.append_nil] at hspec
  exact hspec

/-- In a list in order, a member stands behind as many members as come before it. -/
theorem countP_eq_idxOf {r : Nat → Nat → Bool} (hasymm : ∀ {a b}, r a b = true → r b a = false) {o : List Nat}
    (ho : o.Pairwise (r · ·)) {x : Nat} (hx : x ∈ o) : o.countP (r · x) = o.idxOf x := by
  induction o with
  | nil => cases hx
  | cons y ys ih =>
    obtain ⟨hy, hys⟩ := List.pairwise_cons.mp ho
    by_cases hxy : x = y
    · subst hxy
      have hself : r x x = false := Bool.eq_false_iff.mpr fun h => by simp [hasymm h] at h
      rw [List.idxOf_cons_self, List.countP_eq_zero]
      intro z hz
      obtain rfl | hz := List.mem_cons.mp hz
      · simp [hself]
      · simp [hasymm (hy z hz)]
    · have hx : x ∈ ys := (List.mem_cons.mp hx).resolve_left hxy
      rw [List.countP_cons_of_pos (p := (r · x)) (hy x hx), ih hys hx, List.idxOf_cons, beq_false_of_ne (Ne.symm hxy), cond_false]

theorem countP_lt_eq_idxOf {ls : List Nat} (hls : ls.Pairwise (· < ·)) {l : Nat} (hl : l ∈ ls) :
    ls.countP (fun n => decide (n < l)) = ls.idxOf l :=
  countP_eq_idxOf (r := fun a b => decide (a < b)) (fun h => by simp at *; omega) (by simpa using hls) hl

/-- The rank of a lane is the number of lanes that come before it. -/
theorem idxOf_orderLanes (key : Nat → Nat) (desc : Bool) {ls : List Nat} (hls : ls.Pairwise (· < ·)) {l : Nat} (hl : l ∈ ls) :
    (orderLanes key desc ls).idxOf l = ls.countP fun m => precedes key desc m l := by
  obtain ⟨hperm, hsorted⟩ := orderLanes_spec key desc hls
  rw [← countP_eq_idxOf precedes_asymm hsorted (hperm.mem_iff.mpr hl), hperm.countP_eq]

/-- The lane at the place of l in the order is one that as many lanes precede as there are lanes below l. -/
theorem orderLanes_getD_spec (key : Nat → Nat) (desc : Bool) {ls : List Nat} (hls : ls.Pairwise (· < ·)) {l : Nat} (hl : l ∈ ls) :
    let m := (orderLanes key desc ls).getD (ls.idxOf l) l
    m ∈ ls ∧ (ls.countP fun n => precedes key desc n m) = ls.countP fun n => decide (n < l) := by
  intro m
  obtain ⟨hperm, -⟩ := orderLanes_spec key desc hls
  have hidx : ls.idxOf l < (orderLanes key desc ls).length := by
    rw [hperm.length_eq]
    exact List.idxOf_lt_length_of_mem hl
  have hm : m = (orderLanes key desc ls)[ls.idxOf l] := by
    rw [← Option.getD_some (a := (orderLanes key desc ls)[ls.idxOf l]) (b := l), ← List.getElem?_eq_getElem hidx]
    exact List.getD_eq_getElem?_getD
  have hnodup : (orderLanes key desc ls).Nodup := hperm.nodup_iff.mpr (hls.imp Nat.ne_of_lt)
  have hmem : m ∈ ls := hperm.mem_iff.mp (hm ▸ List.getElem_mem hidx)
  refine ⟨hmem, ?_⟩
  rw [← idxOf_orderLanes key desc hls hmem, hm, hnodup.idxOf_getElem, countP_lt_eq_idxOf hls hl]

/-! ### Partners (R96) -/

theorem partners_ascending (s : State) (j : BitVec 4) (l : Nat) : (partners s j l).Pairwise (· < ·) := by
  rw [partners_eq, lanesOf]
  exact ((List.pairwise_lt_range.filter _).filter _).filter _

theorem peer_self (g : Gang) (k l : Nat) : g.peer k l l = true := by
  unfold Gang.peer
  split
  · simp
  · split <;> simp_all

/-- Lanes that take part together have the same peers. -/
theorem peer_of_peer {g : Gang} {k l m : Nat} (h : g.peer k l m = true) : g.peer k m = g.peer k l := by
  funext n
  unfold Gang.peer at *
  split at h
  case isTrue hk => simp only [hk, if_true, beq_iff_eq.mp h]
  case isFalse hk =>
    split at h
    case isTrue hmember =>
      obtain ⟨hm, hband⟩ := Bool.and_eq_true_iff.mp h
      simp only [hk, hm, hmember, if_true, if_false, beq_iff_eq.mp hband]
    case isFalse => rw [beq_iff_eq.mp h]

theorem self_mem_partners {s : State} {j : BitVec 4} {l : Nat} (h : activeLane s l) : l ∈ partners s j l := by
  obtain ⟨hactive, hguard⟩ := List.mem_filter.mp ((mem_active s l).mpr h)
  rw [partners_eq]
  exact List.mem_filter.mpr ⟨List.mem_filter.mpr ⟨hactive, peer_self _ _ _⟩, hguard⟩

theorem partners_of_mem {s : State} {j : BitVec 4} {l m : Nat} (h : m ∈ partners s j l) : partners s j m = partners s j l := by
  rw [partners_eq] at h
  obtain ⟨-, hpeer⟩ := List.mem_filter.mp (List.mem_filter.mp h).1
  rw [partners_eq, partners_eq, peer_of_peer hpeer]

/-! ### What several registers read after they are written -/

/-- `v`m of a lane, in the window from `base` on. -/
def Lane.vregAt (x : Lane) (base m : Nat) : Word := ({ x with wbase := base } : Lane).vreg m

/-- A change of lanes writes the registers of a list only: a lane that is not active keeps them, or gets 0 with .z. -/
def writesOnly (s : State) (ds : List Nat) (F : Nat → Lane → Lane) : Prop :=
  ∀ l x, let w := (s.srcLane l).wbase
    (∀ m, m ∉ ds ∨ s.guardOn l = false ∧ s.issue.pfx.z ≠ 1 → (F l x).vregAt w m = x.vregAt w m) ∧
      (∀ m ∈ ds, s.guardOn l = false → s.issue.pfx.z = 1 → (F l x).vregAt w m = 0) ∧
      F l x = { x with globals := (F l x).globals, stack := (F l x).stack }

/-- An active lane has the value in the register that is written, and every other register as it was. -/
theorem vregAt_writesV {s : State} {l : Nat} (h : s.guardOn l = true) (n m : Nat) (f : Nat → Word) (x : Lane) :
    (s.writesV n f l x).vregAt (s.srcLane l).wbase m = if m = n then f l else x.vregAt (s.srcLane l).wbase m := by
  rw [State.writesV, State.underGuard, if_pos h]
  exact vreg_setVAt ..

theorem writesOnly_writesV (s : State) (n : Nat) (f : Nat → Word) : writesOnly s [n] (s.writesV n f) := by
  intro l x w
  by_cases hg : s.guardOn l = true
  · refine ⟨fun m hm => ?_, fun m _ hoff => ?_, ?_⟩
    · rw [vregAt_writesV hg, if_neg]
      rintro rfl
      simp [hg] at hm
    · simp [hg] at hoff
    · rw [State.writesV, State.underGuard, if_pos hg]
      exact rest_setVAt ..
  · by_cases hz : s.issue.pfx.z = 1
    · rw [State.writesV, State.underGuard, if_neg hg, if_pos hz]
      refine ⟨fun m hm => ?_, fun m hm _ _ => ?_, rest_setVAt ..⟩
      · refine (vreg_setVAt ..).trans (if_neg ?_)
        rintro rfl
        simp [hz] at hm
      · exact (vreg_setVAt ..).trans (if_pos (List.mem_singleton.mp hm))
    · rw [State.writesV, State.underGuard, if_neg hg, if_neg hz]
      exact ⟨fun _ _ => rfl, fun _ _ _ h => absurd h hz, rfl⟩

/-- Two changes of the registers of a lane are one. -/
theorem registersOnly_trans {x y z : Lane} (h : y = { x with globals := y.globals, stack := y.stack })
    (h' : z = { y with globals := z.globals, stack := z.stack }) : z = { x with globals := z.globals, stack := z.stack } := by
  rw [h', h]

theorem writesOnly_trans {s : State} {ds es : List Nat} {F G : Nat → Lane → Lane} (hF : writesOnly s ds F) (hG : writesOnly s es G) :
    writesOnly s (ds ++ es) fun l x => G l (F l x) := by
  intro l x w
  obtain ⟨hkeep, hzero, hrest⟩ := hF l x
  obtain ⟨hkeep', hzero', hrest'⟩ := hG l (F l x)
  refine ⟨fun m hm => ?_, fun m hm hg hz => ?_, ?_⟩
  · simp only [List.mem_append, not_or] at hm
    rw [hkeep' m (hm.imp_left And.right), hkeep m (hm.imp_left And.left)]
  · by_cases he : m ∈ es
    · exact hzero' m he hg hz
    · rw [hkeep' m (.inl he), hzero m ((List.mem_append.mp hm).resolve_right he) hg hz]
  · exact registersOnly_trans hrest hrest'

theorem guardOn_of_active {s : State} {l : Nat} (h : activeLane s l) : s.guardOn l = true :=
  (List.mem_filter.mp ((mem_active s l).mpr h)).2

theorem guardOn_of_inactive {s : State} {l : Nat} (hl : issuing s l) (h : ¬ activeLane s l) : s.guardOn l = false := by
  simpa [activeLane, State.guardOn, hl] using h

/-- Nothing but registers of a list has changed in the issuing lanes: what the statements say beside the values of active lanes. -/
theorem othersStay_of_writesOnly {s t : State} {ds : List Nat} {F : Nat → Lane → Lane} (hF : writesOnly s ds F)
    (h : ∀ l, t.cur.lane l = onLanes (lanesOf s.issue.lanes) F l (s.cur.lane l)) :
    (∀ l m, m ∉ ds ∨ ¬ issuing s l ∨ ¬ activeLane s l ∧ s.issue.pfx.z = 0 → vreg s t l m = vreg s s l m) ∧
      (∀ l m, m ∈ ds → issuing s l → ¬ activeLane s l → s.issue.pfx.z = 1 → vreg s t l m = 0) ∧
      ∀ l, t.cur.lane l = { s.cur.lane l with globals := (t.cur.lane l).globals, stack := (t.cur.lane l).stack } := by
  have hon : ∀ l, issuing s l → t.cur.lane l = F l (s.cur.lane l) := fun l hl => (h l).trans (if_pos ((mem_lanesOf _ l).mpr hl))
  have hoff : ∀ l, ¬ issuing s l → t.cur.lane l = s.cur.lane l := fun l hl =>
    (h l).trans (if_neg fun hmem => hl ((mem_lanesOf _ l).mp hmem))
  refine ⟨fun l m hm => ?_, fun l m hm hl hnot hz => ?_, fun l => ?_⟩
  · by_cases hl : issuing s l
    · obtain ⟨hkeep, -, -⟩ := hF l (s.cur.lane l)
      unfold vreg
      rw [hon l hl]
      refine hkeep m (hm.imp_right fun hm => ?_)
      obtain ⟨hnot, hz⟩ := hm.resolve_left fun hnot => hnot hl
      exact ⟨guardOn_of_inactive hl hnot, by rw [hz]; decide⟩
    · unfold vreg
      rw [hoff l hl]
  · obtain ⟨-, hzero, -⟩ := hF l (s.cur.lane l)
    unfold vreg
    rw [hon l hl]
    exact hzero m hm (guardOn_of_inactive hl hnot) hz
  · by_cases hl : issuing s l
    · obtain ⟨-, -, hrest⟩ := hF l (s.cur.lane l)
      rw [hon l hl]
      exact hrest
    · rw [hoff l hl]

/-- What an active lane reads is what its own change left. -/
theorem vreg_of_lanes {s t : State} {F : Nat → Lane → Lane} (h : ∀ l, t.cur.lane l = onLanes (lanesOf s.issue.lanes) F l (s.cur.lane l))
    {l : Nat} (hl : activeLane s l) (m : Nat) : vreg s t l m = (F l (s.cur.lane l)).vregAt (s.srcLane l).wbase m := by
  unfold vreg
  rw [h l, onLanes, if_pos ((mem_lanesOf _ l).mpr hl.1)]
  rfl

/-- All that a run does which writes `v`n after other registers. -/
theorem lanesChange_crossV_after {s t u : State} {p : List Nat} {G : Nat → Lane → Lane} (ht : t.issue = s.issue) (hp : p.Nodup)
    (hu : lanesChange t u (onLanes p G)) {n : Nat} {v f : Nat → Word} (hv : ∀ l ∈ p, v l = f l) :
    lanesChange t (u.crossV s n p (p.filter s.guardOn) v) (onLanes p fun l x => s.writesV n f l (G l x)) := by
  have hwrite := lanesChange_crossV ((issue_of_lanesChange hu).trans ht) hp n hv
  exact lanesChange_congr (lanesChange_trans hu hwrite) fun l x => by unfold onLanes; split <;> rfl

/-! ### SORT.KV (R102) -/

/-- The lane whose pair a lane gets. -/
def State.sortSource (s : State) (d : BitVec 6) (act : List Nat) (l : Nat) : Nat :=
  (orderLanes (fun l => s.key (s.vAt l d)) (s.aux 2) act).getD (act.idxOf l) l

/-- A lane after SORT.KV: its key is written, then its value. -/
def State.sortWrites (s : State) (d a : BitVec 6) (j : BitVec 4) (l : Nat) (x : Lane) : Lane :=
  s.writesV a.toNat (fun l => s.vAt (s.sortSource d (partners s j l) l) a) l
    (s.writesV d.toNat (fun l => s.vAt (s.sortSource d (partners s j l) l) d) l x)

theorem exec_sortKv_of_ready {s : State} {j : BitVec 4} (h : crossReady s j) (d a : BitVec 6) :
    ∃ t, exec (.sortKv d a j) s = .next t ∧ lanesChange s t (onLanes (lanesOf s.issue.lanes) (s.sortWrites d a j)) := by
  refine ⟨_, crossGo_of_ready h _, lanesChange_crossSets fun t p ht hp hpartners => ?_⟩
  have hkeys := lanesChange_crossV ht hp d.toNat (v := fun l => s.vAt (s.sortSource d (p.filter s.guardOn) l) d) fun l hl => by
    rw [hpartners l hl]
  exact lanesChange_crossV_after ht hp hkeys fun l hl => by rw [hpartners l hl]; rfl

theorem writesOnly_sortWrites (s : State) (d a : BitVec 6) (j : BitVec 4) : writesOnly s [d.toNat, a.toNat] (s.sortWrites d a j) :=
  writesOnly_trans (F := s.writesV d.toNat _) (G := s.writesV a.toNat _) (writesOnly_writesV s _ _) (writesOnly_writesV s _ _)

/-- An active lane has the pair of its source, the key also where both registers are the same. -/
theorem vregAt_sortWrites {s : State} {l : Nat} (h : s.guardOn l = true) (d a : BitVec 6) (j : BitVec 4) (x : Lane) :
    let m := s.sortSource d (partners s j l) l
    (s.sortWrites d a j l x).vregAt (s.srcLane l).wbase d.toNat = s.vAt m d ∧
      (s.sortWrites d a j l x).vregAt (s.srcLane l).wbase a.toNat = s.vAt m a := by
  intro m
  simp only [State.sortWrites, vregAt_writesV h, if_true]
  refine ⟨?_, rfl⟩
  split
  case isTrue hda => rw [State.vAt, State.vAt, hda]
  case isFalse => rfl

/-! ### TOPK (R103) -/

/-- Where no position holds anything, a level of a tree gives nothing. -/
theorem pairUp_of_forall_eq {α : Type} {f : α → α → α} {e : α} (he : f e e = e) {ts : List α} (h : ∀ x ∈ ts, x = e) :
    ∀ x ∈ pairUp f ts, x = e := by
  induction ts using pairUp.induct with
  | case1 a b rest ih =>
    simp only [List.mem_cons, forall_eq_or_imp] at h
    obtain ⟨rfl, hb, hrest⟩ := h
    simp only [pairUp, List.mem_cons, forall_eq_or_imp]
    exact ⟨by rw [hb, he], ih hrest⟩
  | case2 l hl =>
    rw [pairUp.eq_2 _ _ hl]
    exact h

theorem treeOf_of_forall_eq {α : Type} {f : α → α → α} {e : α} (he : f e e = e) {ts : List α} (h : ∀ x ∈ ts, x = e) :
    treeOf f e ts = e := by
  have hall := pairUp_of_forall_eq he (pairUp_of_forall_eq he (pairUp_of_forall_eq he (pairUp_of_forall_eq he (pairUp_of_forall_eq he h))))
  unfold treeOf
  cases hts : pairUp f (pairUp f (pairUp f (pairUp f (pairUp f ts)))) with
  | nil => rfl
  | cons x xs => exact hall x (hts ▸ List.mem_cons_self)

/-- A sum over no lanes raises no flags. -/
theorem topSum_nil_flags (s : State) (a : BitVec 6) : (s.topSum a []).2 = 0 := by
  unfold State.topSum
  split
  · rw [treeOf_of_forall_eq (f := addTerms s.mode) rfl (by simp [State.positions])]
    rfl
  · rfl

theorem getLsbD_foldl_or_of {α : Type} (ps : List α) (f : α → BitVec 5) (x : BitVec 5) (i : Nat) :
    (ps.foldl (fun x p => x ||| f p) x).getLsbD i = true ↔ x.getLsbD i = true ∨ ∃ p ∈ ps, (f p).getLsbD i = true := by
  induction ps generalizing x with
  | nil => simp
  | cons p ps ih => simp only [List.foldl_cons, ih, BitVec.getLsbD_or, Bool.or_eq_true, List.mem_cons, exists_eq_or_imp, or_assoc]

/-- The flags of the runs together are those that the active lanes raise, each from its partners (R82). -/
theorem foldl_flags_eq (s : State) (j : BitVec 4) {flags : List Nat → BitVec 5} (hnil : flags [] = 0) :
    (s.issue.src.participants j.toNat (lanesOf s.issue.lanes)).foldl (fun x p => x ||| flags (p.filter s.guardOn)) 0 =
      s.active.foldl (fun x l => x ||| flags (partners s j l)) 0 := by
  have hperm := participants_flatten_perm s.issue.src j.toNat (lanesOf_nodup s.issue.lanes)
  refine BitVec.eq_of_getLsbD_eq fun i _ => Bool.eq_iff_iff.mpr ?_
  rw [getLsbD_foldl_or_of, getLsbD_foldl_or_of]
  refine or_congr_right ⟨fun ⟨p, hp, hbit⟩ => ?_, fun ⟨l, hl, hbit⟩ => ?_⟩
  · obtain ⟨l, hl⟩ : ∃ l, l ∈ p.filter s.guardOn := List.exists_mem_of_ne_nil _ fun h => by simp [h, hnil] at hbit
    obtain ⟨hmem, hguard⟩ := List.mem_filter.mp hl
    refine ⟨l, List.mem_filter.mpr ⟨hperm.mem_iff.mp (List.mem_flatten.mpr ⟨p, hp, hmem⟩), hguard⟩, ?_⟩
    rwa [← filter_guardOn_eq_partners hp hmem]
  · obtain ⟨hmem, -⟩ := List.mem_filter.mp hl
    obtain ⟨p, hp, hlp⟩ := List.mem_flatten.mp (hperm.mem_iff.mpr hmem)
    exact ⟨p, hp, by rwa [filter_guardOn_eq_partners hp hlp]⟩

/-- The place of a lane in the order of some lanes. -/
def State.rankIn (s : State) (a : BitVec 6) (act : List Nat) (l : Nat) : Nat :=
  (orderLanes (fun l => s.key (s.vAt l a)) (!s.aux 2) act).idxOf l

/-- The sum of the lanes of rank below k, and that of the others. -/
def State.chosenSum (s : State) (a b : BitVec 6) (act : List Nat) : Flagged := s.topSum a (act.filter fun l => s.rankIn a act l < b.toNat)
def State.restSum (s : State) (a b : BitVec 6) (act : List Nat) : Flagged := s.topSum a (act.filter fun l => b.toNat ≤ s.rankIn a act l)

/-- One run of TOPK: the ranks are written, then the two sums. -/
def State.topkRun (s : State) (d a b : BitVec 6) (t : State) (p act : List Nat) : State :=
  ((t.crossV s d.toNat p act fun l => BitVec.ofNat 32 (s.rankIn a act l)).crossV s (d.toNat + 1) p act
    fun _ => (s.chosenSum a b act).1).crossV s (d.toNat + 2) p act fun _ => (s.restSum a b act).1

/-- The flags of a run. -/
def State.topkFlags (s : State) (a b : BitVec 6) (act : List Nat) : BitVec 5 := (s.chosenSum a b act).2 ||| (s.restSum a b act).2

/-- A lane after TOPK. -/
def State.topkWrites (s : State) (d a b : BitVec 6) (j : BitVec 4) (l : Nat) (x : Lane) : Lane :=
  s.writesV (d.toNat + 2) (fun l => (s.restSum a b (partners s j l)).1) l
    (s.writesV (d.toNat + 1) (fun l => (s.chosenSum a b (partners s j l)).1) l
      (s.writesV d.toNat (fun l => BitVec.ofNat 32 (s.rankIn a (partners s j l) l)) l x))

theorem exec_topk_of_ready {s : State} {j : BitVec 4} (h : crossReady s j) (d a b : BitVec 6) :
    ∃ t, exec (.topk d a b j) s = .next (t.raise (s.active.foldl (fun x l => x ||| s.topkFlags a b (partners s j l)) 0)) ∧
      lanesChange s t (onLanes (lanesOf s.issue.lanes) (s.topkWrites d a b j)) := by
  have hexec : exec (.topk d a b j) s = s.crossRaise j (s.topkFlags a b) (s.topkRun d a b) := rfl
  have hnil : s.topkFlags a b [] = 0 := by simp [State.topkFlags, State.chosenSum, State.restSum, topSum_nil_flags]
  rw [hexec, State.crossRaise, crossGo_of_ready h, foldl_flags_eq s j hnil]
  refine ⟨_, rfl, lanesChange_crossSets fun t p ht hp hpartners => ?_⟩
  have hranks := lanesChange_crossV ht hp d.toNat (v := fun l => BitVec.ofNat 32 (s.rankIn a (p.filter s.guardOn) l)) fun l hl => by
    rw [hpartners l hl]
  have hchosen := lanesChange_crossV_after ht hp hranks (n := d.toNat + 1) (v := fun _ => (s.chosenSum a b (p.filter s.guardOn)).1)
    fun l hl => by rw [hpartners l hl]
  exact lanesChange_crossV_after ht hp hchosen fun l hl => by rw [hpartners l hl]

theorem writesOnly_topkWrites (s : State) (d a b : BitVec 6) (j : BitVec 4) :
    writesOnly s [d.toNat, d.toNat + 1, d.toNat + 2] (s.topkWrites d a b j) :=
  writesOnly_trans (F := fun l x => s.writesV (d.toNat + 1) _ l (s.writesV d.toNat _ l x)) (G := s.writesV (d.toNat + 2) _)
    (writesOnly_trans (F := s.writesV d.toNat _) (G := s.writesV (d.toNat + 1) _) (writesOnly_writesV s _ _) (writesOnly_writesV s _ _))
    (writesOnly_writesV s _ _)

/-- An active lane has its rank and the two sums. -/
theorem vregAt_topkWrites {s : State} {l : Nat} (h : s.guardOn l = true) (d a b : BitVec 6) (j : BitVec 4) (x : Lane) :
    let reads := fun m => (s.topkWrites d a b j l x).vregAt (s.srcLane l).wbase m
    reads d.toNat = BitVec.ofNat 32 (s.rankIn a (partners s j l) l) ∧ reads (d.toNat + 1) = (s.chosenSum a b (partners s j l)).1 ∧
      reads (d.toNat + 2) = (s.restSum a b (partners s j l)).1 := by
  simp [State.topkWrites, vregAt_writesV h]

/-- The lanes of the chain's gang when flags have been raised. -/
theorem lane_raise (s : State) (f : BitVec 5) (l : Nat) : (s.raise f).cur.lane l = s.cur.lane l := by rw [cur_raise]; rfl

/-- The rank of a lane among its partners is the number of them that come before it. -/
theorem rankIn_eq {s : State} {j : BitVec 4} {l m : Nat} (a : BitVec 6) (hm : m ∈ partners s j l) :
    s.rankIn a (partners s j l) m =
      (partners s j m).countP fun n => precedes (fun l => s.key (s.vAt l a)) (!s.aux 2) n m := by
  rw [partners_of_mem hm]
  exact idxOf_orderLanes _ _ (partners_ascending s j l) hm

/-! ### CXCH (R105) -/

/-- The value that a lane gets in a pair: the lower lane has the smaller key in an ascending pair, the larger one in a descending pair. -/
def State.exchanged (s : State) (a : BitVec 6) (l q : Nat) : Word :=
  let lo := min l q
  let x := s.vAt lo a
  let y := s.vAt (max l q) a
  if (l == lo) == s.predAt lo s.issue.pfx.o.toNat then (if s.key y < s.key x then y else x) else if s.key y < s.key x then x else y

/-! ### The rows of R102 to R105 -/

/-- Settles O26: SORT.KV and TOPK put lanes in an order in which a lane stands behind as many lanes as precede it; SEARCH and CXCH give
each lane one value that comes of its partners. -/
theorem sortAndSearchResults : Obligations.SortAndSearchResults := by
  unfold Obligations.SortAndSearchResults
  intro s d a b j hready A x w v key down first rank others
  refine ⟨?_, ?_, ?_, ?_⟩
  · obtain ⟨t, hexec, honly, hcur, hlane⟩ := exec_sortKv_of_ready hready d a
    obtain ⟨hkeep, hzero, hregs⟩ := othersStay_of_writesOnly (writesOnly_sortWrites s d a j) hlane
    have ⟨_, hgangs, hmem⟩ := honly
    refine ⟨t, hexec, fun l hl => ?_, ⟨hkeep, hzero, hregs, hmem, hgangs⟩, hcur, honly⟩
    obtain ⟨hsource, hcount⟩ := orderLanes_getD_spec (fun l => s.key (s.vAt l d)) (s.aux 2) (partners_ascending s j l)
      (self_mem_partners hl)
    refine ⟨_, hsource, hcount, ?_⟩
    rw [vreg_of_lanes hlane hl, vreg_of_lanes hlane hl]
    exact vregAt_sortWrites (guardOn_of_active hl) d a j _
  · obtain ⟨u, hexec, honly, hcur, hlane⟩ := exec_topk_of_ready hready d a b
    have hrank : ∀ l, ∀ m ∈ A l, s.rankIn a (A l) m = rank m := fun l m hm => rankIn_eq a hm
    have hchosen : ∀ l, s.chosenSum a b (A l) = s.topSum a ((A l).filter fun m => rank m < b.toNat) := fun l =>
      congrArg (s.topSum a) (List.filter_congr fun m hm => by rw [hrank l m hm])
    have hrest : ∀ l, s.restSum a b (A l) = s.topSum a ((A l).filter fun m => b.toNat ≤ rank m) := fun l =>
      congrArg (s.topSum a) (List.filter_congr fun m hm => by rw [hrank l m hm])
    have hflags := raises_raise s u (fun l => s.topkFlags a b (A l)) honly hcur
    have hlane := fun l => (lane_raise u (s.active.foldl (fun x l => x ||| s.topkFlags a b (A l)) 0) l).trans (hlane l)
    obtain ⟨hkeep, hzero, hregs⟩ := othersStay_of_writesOnly (writesOnly_topkWrites s d a b j) hlane
    have ⟨_, _, _, _, _, hgangs, hmem⟩ := hflags
    refine ⟨_, hexec, fun l hl => ?_, ⟨hkeep, hzero, hregs, hmem, hgangs⟩, ?_⟩
    · rw [← hchosen, ← hrest, ← hrank l l (self_mem_partners hl), vreg_of_lanes hlane hl, vreg_of_lanes hlane hl,
        vreg_of_lanes hlane hl]
      exact vregAt_topkWrites (guardOn_of_active hl) d a b j _
    · simp only [← hchosen, ← hrest]
      exact hflags
  · exact vectorTo_of_crossLane hready (fun act l => BitVec.ofNat 32 (act.countP fun m =>
      key (v m a) < key (v l b) || (s.aux 3 && key (v m a) == key (v l b)))) rfl fun _ => rfl
  · refine vectorTo_of_crossLane hready (fun act l =>
      let q := s.base l + (s.pos l ^^^ b.toNat)
      if q / s.width != l / s.width || !act.contains q then s.vAt l a else s.exchanged a l q) rfl fun l => ?_
    simp only [State.exchanged, Bool.or_eq_true, bne_iff_ne, Bool.not_eq_true', ← Bool.not_eq_true, List.contains_iff_mem, beq_iff_eq,
      decide_eq_true_eq]
    rfl

end Sys2Proof.Machine
end
